-- ==== Sys2Proof/Word.lean ====
section
/-! DEFINITION. The word types of the DVZ-3480 model and their plainest arithmetic. Registers and stored structures
are little-endian and 32 bits wide (R8, R10 of 00_scope.md). -/

namespace Sys2Proof

/-- One register or record word (R10 of 00_scope.md). -/
abbrev Word := BitVec 32

/-- One byte of a stored structure or of a memory (R8 of 00_scope.md). -/
abbrev Byte := BitVec 8

/-- Two's complement value of the low `w` bits of a natural number. -/
def toSigned (w n : Nat) : Int := if n % 2 ^ w < 2 ^ (w - 1) then (n % 2 ^ w : Int) else (n % 2 ^ w : Int) - 2 ^ w

/-- The low `w` bits of an integer, as a natural number. -/
def ofSigned (w : Nat) (i : Int) : Nat := (i % (2 ^ w : Int)).toNat

/-- Saturating increment of a counter of `w` bits. -/
def satInc (w n : Nat) : Nat := if n + 1 < 2 ^ w then n + 1 else 2 ^ w - 1

/-- Ceiling division. -/
def ceilDiv (a b : Nat) : Nat := (a + b - 1) / b

end Sys2Proof
end

