-- ==== Sys2Proof/Syntax.lean ====
section
/-! DEFINITION. The commands of the block: one constructor of `Instr` per row of the operation and event table
(opcode_table.json), in the table's order, with the operands the row's rule gives it. A physical input (a sampled
level, a converted code, a received packet, an upset) is an operand; everything the device computes from it is the
command's meaning in Machine/ (log entry 9, DESIGN CHOICE). The cores' instruction execution is no command (log
entry 78). -/

namespace Sys2Proof

/-- The three channels (R13 and Pins and channels of 00_scope.md: 1, 2, 3 encode A, B, C). -/
inductive Chan | A | B | C
  deriving DecidableEq, Repr

/-- The three cross-links (R22 of 01_architecture.md). -/
inductive Link | AB | BC | CA
  deriving DecidableEq, Repr

/-- The two bridges of a channel (R229 of 08_motor_fault_states.md). -/
inductive Bridge | S | P
  deriving DecidableEq, Repr

/-- Who performs a register access: the application pair, an engine, or the MP (R36, R177, R460). -/
inductive Agent | pair | fce0 | fce1 | nete | mp
  deriving DecidableEq, Repr

/-- Width of an access (R10 of 00_scope.md). -/
inductive AccSize | byte | half | word
  deriving DecidableEq, Repr

/-- A bus address, or an offset in a window, with the width of the access (R10, R38). -/
structure SizedAddr where
  addr : Nat
  size : AccSize
  deriving DecidableEq, Repr

/-- What a cross-link packet carries, with the verdict of its CRC-16 (R23 of 01_architecture.md). -/
structure Packet (α : Type) where
  val : α
  crcOk : Bool
  deriving DecidableEq, Repr

/-- What an MP state read asks for (R29 of 01_architecture.md). -/
inductive MpRead | stewardState | faultStatus | counters
  deriving DecidableEq, Repr

/-- A Folio source (R61 of 02_folio.md). -/
inductive Src | slotA | slotB | peer
  deriving DecidableEq, Repr

/-- The memories of a channel (R36, R177, R170): SRAM, the pair's TCMs and the TCMs of FCE0, FCE1 and NETE. -/
inductive MemId | sram | itcm | dtcm | fce0 | fce1 | nete
  deriving DecidableEq, Repr

/-- One core access (R169 of 05_core_pair.md): a load, or a store of 1, 2 or 4 bytes. -/
inductive MemOp
  | load (size : AccSize)
  | store (size : AccSize) (v : Word)
  deriving DecidableEq, Repr

/-- What the SECDED check of the addressed word finds (R168, R169): an upset of the memory is a physical input. -/
inductive Ecc | clean | single | double
  deriving DecidableEq, Repr

/-- Checker faults of R158: a checker code violation of tree 0 or 1, or a parity error of the input (0) or output (1)
delay register. -/
inductive SelfKind | checker (tree : Fin 2) | parity (reg : Fin 2)
  deriving DecidableEq, Repr

/-- The result an injection step reports (R165, R166): as the table expects, or another kind and group, or with the
checker trees in disagreement. -/
inductive InjReport | expected | other (kind : Fin 4) (group : Fin 64) | treesDisagree
  deriving DecidableEq, Repr

/-- What a channel reset is caused by: STW_RSTCAUSE.CAUSE (R428 of 15_fault_collection.md). -/
inductive ResetCause | powerOn | crst (src : Fin 64) | failSilent | firmware | mp | plannedAbsence | severeLeave
  deriving DecidableEq, Repr

/-- One part of a Folio source as the loader reads it (R539 of 02_folio.md), or an unreadable source (code 0x50). -/
inductive FolPart
  | spine (bytes : List Byte)
  | colophon (bytes : List Byte)
  | body (bytes : List Byte)
  | unreadable
  | emptySlot
  deriving DecidableEq, Repr

/-- The conversion results of a bridge S valley (R185, R188): phase codes, DC-link integral as a mean current code in
Q1.31 of IFS_DC, link-voltage code. -/
structure SValley where
  codeU : Nat
  codeV : Nat
  idc : Int
  vlc : BitVec 14
  deriving DecidableEq, Repr

/-- A join record (R121, R142 of 04_herd_placement.md): the sender, BODY_HASH, COMPAT, the shared digest and the state of its
fault latches, as whether a severe status is latched. -/
structure JoinRec where
  from_ : Chan
  bodyHash : BitVec 256
  compat : Word
  digest : BitVec 256
  severe : Bool
  deriving DecidableEq, Repr

/-- The machine's sensed quantities that the herd evaluates in a decision (R97, R149, R95): voted ground speed in 0.01
km/h, achieved deceleration in 0.01 m/s². -/
structure Env where
  speed : Nat
  decel : Nat
  deriving DecidableEq, Repr

/-- A received Tether frame as the MAC sees it (R336, R337 of 12_tether_network.md). `trx` is the SFD timestamp in
2^-16 ns of the node's own NT (R368). -/
structure Frame where
  port : Fin 2
  fcsOk : Bool
  etype : Nat
  ring : Nat
  dst : Nat
  srcRing : Nat
  src : Nat
  ver : Nat
  kind : Nat
  brk : Bool
  fcopy : Bool
  stream : Nat
  hops : Nat
  seq : Nat
  len : Nat
  corr : Int
  payload : List Byte
  code : Word
  trx : Int
  deriving DecidableEq, Repr

/-- A CAN frame with a 29-bit identifier (R389 of 14_isobus.md): PGN, source, destination (255 = global), data. -/
structure CanFrame where
  pgn : Nat
  sa : Nat
  da : Nat
  data : List Byte
  deriving DecidableEq, Repr

/-- A SENT frame as its pulses (R301, R302 of 10_position_feedback.md), in FCE_x cycles: the calibration pulse; the status
nibble, the data nibbles and the CRC nibble as (length of the pulse, of its low phase); the pause pulse, if one followed. -/
structure SentFrame where
  cal : Nat
  pulses : List (Nat × Nat)
  pause : Option Nat
  deriving DecidableEq, Repr

/-- By how much a forwarded frame that occupies PORT0 or PORT1 at a slot delays an own frame's SFD there, in 2^-16 ns; 0
where the port is free (R335 of 12_tether_network.md). -/
structure SlotWait where
  p0 : Nat
  p1 : Nat
  deriving DecidableEq, Repr

/-- A Tether node at an instant at which it may send a frame of its own (R335). -/
structure NodeSlot where
  ch : Chan
  wait : SlotWait
  deriving DecidableEq, Repr

/-- A sensor sample set of the MSS (R434 of 16_management_and_log.md): 25 samples in their LSB. -/
abbrev SensorSet := List Nat

/-- Wake kinds of R505 of 18_bring_up_and_power.md with the index of the WAKE_SOURCE record and its region bit. -/
structure WakeEvt where
  kind : Nat
  index : Nat
  region : Fin 4
  deriving DecidableEq, Repr

/-- A dmi operation of the debug transport (R508, R511 of 19_debug_port.md). -/
inductive DmiOp | nop | read | write
  deriving DecidableEq, Repr

/-- A debug port: a channel's or the MSS's (R508). -/
inductive DbgPort | ch (c : Chan) | mss
  deriving DecidableEq, Repr

/-- The commands, one constructor per row of opcode_table.json, in its order; each docstring names the row's rule. -/
inductive Instr where
  /-- R11 -/ | registerWrite (ch : Chan) (ag : Agent) (addr : Nat) (v : Word) (size : AccSize)
  /-- R25 -/ | crossLinkDown (l : Link)
  /-- R114 -/ | crossLinkUp (l : Link)
  /-- R24 -/ | class3RetryExhausted (ch : Chan)
  /-- R24 -/ | class4RetryExhausted (ch peer : Chan)
  /-- R21 -/ | clkFail (ch : Chan) (reportArrives : Bool)
  /-- R29 -/ | mpStateRead (ch : Chan) (what : MpRead)
  /-- R29 -/ | mpPlannedAbsence (ch : Chan) (hreq : Fin 4)
  /-- R29 -/ | mpFolioLoad (ch : Chan) (src peer : Fin 4)
  /-- R29 -/ | mpBlockEnable (ch : Chan) (mask : Word)
  /-- R29 -/ | mpBlockReset (ch : Chan) (mask : Word)
  /-- R29 -/ | mpChannelReset (ch : Chan)
  /-- R29 -/ | mpWake (ch : Chan)
  /-- R29 -/ | mpDebugAccess (ch : Chan) (open_ : Bool)
  /-- R31 -/ | mailboxRead (ch : Chan) (off : SizedAddr)
  /-- R31 -/ | mailboxReadTimeout (ch : Chan)
  /-- R37 -/ | peerWindowRead (ch : Chan) (addr : SizedAddr)
  /-- R38 -/ | peerReadReply (dst : Packet Chan)
  /-- R37 -/ | peerReadTimeout (ch : Chan)
  /-- R183 -/ | carrierMarker (ch from_ : Chan) (tb : Packet (BitVec 48)) (latency : Nat)
  /-- R71 -/ | folCtrlWrite (ch : Chan) (v : Word)
  /-- R539 -/ | folioPartReceived (ch : Chan) (src : Src) (size : Nat) (part : FolPart)
  /-- R61 -/ | mssFolioTimeout (ch : Chan)
  /-- R493 -/ | peerLoadRetry (ch : Chan)
  /-- R493 -/ | peerLoadTimeout (ch : Chan)
  /-- R62 -/ | peerLoadServe (ch requester : Chan)
  /-- R67 -/ | folioApplyDone (ch : Chan)
  /-- R112 -/ | roundStart (ch : Chan)
  /-- R112 -/ | hb1Send (ch : Chan) (second : Bool)
  /-- R113 -/ | hb1Received (ch : Chan) (pkt : BitVec 64) (crcOk : Bool) (off : Nat)
  /-- R112 -/ | hb2Relay (ch : Chan)
  /-- R113 -/ | hb2Received (ch : Chan) (pkt : BitVec 64) (crcOk : Bool) (off : Nat)
  /-- R115 -/ | membershipDecision (ch : Chan) (env : Env)
  /-- R89 -/ | simplexTimerExpiry (ch : Chan)
  /-- R92 -/ | idegTimerExpiry (ch : Chan)
  /-- R93 -/ | idegClear (ch : Chan)
  /-- R87 -/ | bringupWindowEnd (ch : Chan)
  /-- R111 -/ | modeReqLeaveService (ch : Chan)
  /-- R111 -/ | modeReqSafeStop (ch : Chan)
  /-- R111 -/ | modeReqService (ch : Chan)
  /-- R111 -/ | modeReqPark (ch : Chan)
  /-- R95 -/ | safeStopRampEnd (ch : Chan)
  /-- R95 -/ | safeStopFullBrake (ch : Chan)
  /-- R97 -/ | stationaryDeclared (ch : Chan)
  /-- R121 -/ | joinRecord (ch : Chan) (rec : Packet JoinRec)
  /-- R121 -/ | admissionReply (ch from_ : Chan) (gen round : Word) (tb : Packet (BitVec 48))
  /-- R120 -/ | listenRoundEnd (ch : Chan)
  /-- R122 -/ | shadowComplete (ch : Chan)
  /-- R133 -/ | controlCycleBoundary (ch : Chan)
  /-- R134 -/ | migrationStateSend (ch : Chan) (task : Fin 256)
  /-- R134 -/ | migrationStateArrived (ch : Chan) (task : Fin 256) (bytes : Packet (List Byte))
  /-- R136 -/ | dataHomeWrite (ch : Chan) (home : Fin 256) (off : Nat) (v : Word)
  /-- R132 -/ | jobRelease (ch : Chan) (task : Fin 256)
  /-- R132 -/ | hrdDone (ch : Chan) (task : Fin 256) (crc : Word)
  /-- R137 -/ | hreqUpdateRotation (ch : Chan)
  /-- R137 -/ | hreqProofTest (ch : Chan)
  /-- R145 -/ | hreqAbort (ch : Chan)
  /-- R140 -/ | repairRequest (ch : Chan)
  /-- R137 -/ | absenceRequestDropped (ch : Chan)
  /-- R141 -/ | rotationNextRequest (ch : Chan)
  /-- R105 -/ | returnDeadline (ch : Chan)
  /-- R148 -/ | commitReportRepeat (ch : Chan)
  /-- R149 -/ | proofTestDue (ch : Chan)
  /-- R149 -/ | proofOverdue (ch : Chan)
  /-- R123 -/ | recoveryWindowExpiry (ch : Chan)
  /-- R159 -/ | cmpDiv (ch : Chan) (group : Fin 64) (pc : Word)
  /-- R159 -/ | cmpSelf (ch : Chan) (kind : SelfKind) (pc : Word)
  /-- R159 -/ | failSilentReset (ch : Chan)
  /-- R160 -/ | digestDue (ch : Chan)
  /-- R160 -/ | digestTaken (ch : Chan) (lead trail : List Word) (stall : Nat)
  /-- R165 -/ | cmpInjStart (ch : Chan) (v : Word) (rep : InjReport)
  /-- R166 -/ | sweepStepTimeout (ch : Chan)
  /-- R167 -/ | channelReset (ch : Chan) (cause : ResetCause)
  /-- R167 -/ | wipeDone (ch : Chan) (splitPin : Bool)
  /-- R169 -/ | coreMemoryAccess (ch : Chan) (mem : MemId) (addr : Nat) (op : MemOp) (ecc : Ecc)
  /-- R170 -/ | patrolScrub (ch : Chan) (mem : MemId) (addr : Nat) (ecc : Ecc)
  /-- R172 -/ | hart1Release (ch : Chan) (v : Word)
  /-- R173 -/ | splitStationaryLost (ch : Chan)
  /-- R185 -/ | bridgeSValley (ch : Chan) (s : SValley)
  /-- R185 -/ | bridgePValley (ch : Chan) (codeU codeV : Nat) (delay : Nat)
  /-- R185 -/ | adcConversionDone (ch : Chan)
  /-- R181 -/ | carrierPeak (ch : Chan) (b : Bridge)
  /-- R187 -/ | offsetCalibrationDone (ch : Chan) (b : Bridge) (sumU sumV : Nat)
  /-- R196 -/ | rotorLockDone (ch : Chan)
  /-- R206 -/ | fceSetptWrite (ch : Chan) (eng : Fin 2) (v : Word)
  /-- R201 -/ | pumpSectorDetectDone (ch : Chan) (dir : Fin 6)
  /-- R201 -/ | pumpHoldEnd (ch : Chan)
  /-- R201 -/ | pumpRampEnd (ch : Chan)
  /-- R201 -/ | pumpHandoverTimeout (ch : Chan)
  /-- R202 -/ | pumpRetry (ch : Chan)
  /-- R248 -/ | pumpStopTimeout (ch : Chan)
  /-- R204 -/ | solenoidTick (ch : Chan)
  /-- R204 -/ | fceSolnSetWrite (ch : Chan) (n : Fin 4) (v : Word)
  /-- R211 -/ | samplePacketReceived (ch : Chan) (pkt : BitVec 176) (crcOk : Bool) (off : Nat)
  /-- R217 -/ | setComputeDone (ch set : Chan) (accepted : Nat)
  /-- R215 -/ | sampleDeadline (ch set : Chan)
  /-- R218 -/ | tripletOverrun (ch set : Chan)
  /-- R220 -/ | dutyTripletReceived (ch : Chan) (pkt : BitVec 256) (crcOk : Bool) (off : Nat)
  /-- R221 -/ | vote (ch : Chan)
  /-- R224 -/ | voteEchoReceived (ch set : Chan) (pkt : BitVec 256) (crcOk : Bool)
  /-- R223 -/ | memberMaskDelivery (ch : Chan) (mask : BitVec 3) (tb : BitVec 48)
  /-- R232 -/ | speedWord (ch : Chan) (b : Bridge) (omega : Nat) (probe : Bool)
  /-- R252 -/ | chopperOn (ch : Chan) (link v0 : Nat)
  /-- R252 -/ | chopperOff (ch : Chan)
  /-- R253 -/ | chopperCheck (ch : Chan) (v1 : Nat)
  /-- R257 -/ | linkOv1 (ch : Chan)
  /-- R257 -/ | linkOv2 (ch : Chan)
  /-- R259 -/ | linkUv (ch : Chan)
  /-- R236 -/ | ov1Clear (ch : Chan)
  /-- R258 -/ | ov2Clear (ch : Chan)
  /-- R236 -/ | uvClear (ch : Chan)
  /-- R236 -/ | dieToDieLoss (ch : Chan)
  /-- R238 -/ | digitalDieSilent (ch : Chan)
  /-- R267 -/ | gdStcmd (ch : Chan) (leg : Fin 6)
  /-- R269 -/ | desatLatch (ch : Chan) (latches : BitVec 17) (sol : BitVec 4) (sameCycle : Bool)
  /-- R270 -/ | ocLatch (ch : Chan) (sol : BitVec 4) (sameCycle : Bool)
  /-- R271 -/ | gdUvlo (ch : Chan) (sol : BitVec 4) (sameCycle : Bool)
  /-- R271 -/ | gdOt (ch : Chan) (sol : BitVec 4) (sameCycle : Bool)
  /-- R274 -/ | gdrBlockReset (ch : Chan)
  /-- R282 -/ | gdrResetRelease (ch : Chan)
  /-- R276 -/ | localBlockReset (ch : Chan)
  /-- R279 -/ | gdenFall (ch : Chan)
  /-- R279 -/ | gdenRise (ch : Chan) (lowNs : Nat) (present : BitVec 20)
  /-- R280 -/ | gdenoPulse (ch : Chan)
  /-- R280 -/ | gdenoPulseEnd (ch : Chan)
  /-- R490 -/ | powerStageSelfTestDone (ch : Chan) (failed : BitVec 18) (chopTest : Option (Nat × Nat))
  /-- R286 -/ | encInputChange (ch : Chan) (unit : Fin 6) (levels : BitVec 3) (since : Nat)
  /-- R287 -/ | encSettlement (ch : Chan) (unit : Fin 6) (cycles : Nat)
  /-- R290 -/ | encErrorWindowEnd (ch : Chan) (unit : Fin 9) (qerr : Bool)
  /-- R294 -/ | observerUpdate (ch : Chan) (unit : Fin 6)
  /-- R295 -/ | standstillTimeout (ch : Chan) (unit : Fin 6)
  /-- R298 -/ | comparePulseEnd (ch : Chan) (unit : Fin 6)
  /-- R299 -/ | encCmpvWrite (ch : Chan) (unit : Fin 6) (v : Word)
  /-- R302 -/ | sentFrame (ch : Chan) (m : Fin 3) (f : SentFrame)
  /-- R304 -/ | sentTimeout (ch : Chan) (m : Fin 3)
  /-- R322 -/ | sinSample (ch : Chan) (raw : BitVec 12)
  /-- R323 -/ | discrepancyTimeout (ch : Chan) (p : Fin 6)
  /-- R323 -/ | faultRearm (ch : Chan) (p : Fin 6)
  /-- R324 -/ | testPulseStart (ch : Chan) (b : Bool)
  /-- R324 -/ | testPulseCheck (ch : Chan) (b : Bool) (raw : BitVec 12)
  /-- R325 -/ | sb1Received (ch : Chan) (pkt : BitVec 64) (crcOk : Bool) (off : Nat)
  /-- R325 -/ | sb2Received (ch : Chan) (pkt : BitVec 64) (crcOk : Bool) (off : Nat)
  /-- R333 -/ | portDown (ch : Chan) (port : Fin 2)
  /-- R333 -/ | portUp (ch : Chan) (port : Fin 2)
  /-- R335 -/ | frameForward (ch : Chan) (f : Frame) (ttx : Int)
  /-- R341 -/ | cycleStart (n : NodeSlot)
  /-- R341 -/ | cycleFrameReceived (n : NodeSlot) (f : Frame)
  /-- R349 -/ | streamFetch (ch : Chan) (id : Fin 128)
  /-- R343 -/ | streamSlot (n : NodeSlot) (id : Fin 128) (nth : Nat) (fold : Bool)
  /-- R348 -/ | streamDataReceived (ch : Chan) (f : Frame)
  /-- R348 -/ | acceptanceWindowEnd (ch : Chan) (id : Fin 128)
  /-- R349 -/ | txCommit (ch : Chan) (port : Fin 4) (v : Word)
  /-- R350 -/ | portSelect (ch : Chan) (port : Fin 4) (v : Word)
  /-- R356 -/ | claimReceived (ch : Chan) (f : Frame) (slot : Fin 16)
  /-- R356 -/ | claimRetry (n : NodeSlot)
  /-- R358 -/ | enumerationFrame (ch : Chan) (f : Frame)
  /-- R358 -/ | enumerationResend (n : NodeSlot)
  /-- R359 -/ | listenTimeout (ch : Chan)
  /-- R360 -/ | startupFrame (ch : Chan) (f : Frame)
  /-- R360 -/ | startupWaitEnd (n : NodeSlot)
  /-- R361 -/ | cycleFrameLoss (ch : Chan)
  /-- R367 -/ | ntcTimelRead (ch : Chan)
  /-- R371 -/ | linkDelayRequestSend (ch : Chan) (port : Fin 2) (t1 : Int)
  /-- R370 -/ | linkDelayRequestReceived (ch : Chan) (f : Frame) (t3 : Int)
  /-- R372 -/ | linkDelayResponseReceived (ch : Chan) (f : Frame)
  /-- R372 -/ | linkDelayTimeout (ch : Chan) (port : Fin 2)
  /-- R386 -/ | cycleMark (ch : Chan) (mark : Fin 8)
  /-- R394 -/ | addressClaimReceived (ch : Chan) (f : CanFrame)
  /-- R394 -/ | claimHoldOffEnd (ch : Chan) (func : Fin 2)
  /-- R397 -/ | requestReceived (ch : Chan) (f : CanFrame)
  /-- R397 -/ | guidanceCommandReceived (ch : Chan) (f : CanFrame)
  /-- R397 -/ | speedMessageReceived (ch : Chan) (f : CanFrame)
  /-- R397 -/ | timeDateReceived (ch : Chan) (f : CanFrame)
  /-- R397 -/ | canFrameReceived (ch : Chan) (f : CanFrame)
  /-- R401 -/ | tpRtsReceived (ch : Chan) (f : CanFrame)
  /-- R401 -/ | tpBamReceived (ch : Chan) (f : CanFrame)
  /-- R400 -/ | tpDtReceived (ch : Chan) (f : CanFrame)
  /-- R400 -/ | tpTimeout (ch : Chan) (sa da : Nat)
  /-- R395 -/ | voiceTxStart (ch : Chan)
  /-- R396 -/ | isoVoice (ch : Chan)
  /-- R403 -/ | isoBusoff (ch : Chan)
  /-- R398 -/ | statusMessageSend (ch : Chan)
  /-- R402 -/ | bamPacketSend (ch : Chan) (func : Fin 2)
  /-- R404 -/ | canTxGo (ch : Chan) (v : Word)
  /-- R404 -/ | canRxPop (ch : Chan)
  /-- R409 -/ | faultEvent (ch : Chan) (src : Fin 64)
  /-- R417 -/ | runWindowEnd (ch : Chan) (src : Fin 64)
  /-- R419 -/ | recovery (ch : Chan) (src : Fin 64)
  /-- R421 -/ | epinPulseEnd (ch : Chan)
  /-- R421 -/ | fccEpinHold (ch : Chan) (hold : Bool)
  /-- R423 -/ | fccInjStart (ch : Chan) (v : Word) (latency : Nat)
  /-- R423 -/ | injectionRelease (ch : Chan)
  /-- R424 -/ | injectionSample (ch : Chan) (stillHigh : Bool)
  /-- R426 -/ | stwBlkrstWrite (ch : Chan) (v : Word)
  /-- R426 -/ | stwChrstWrite (ch : Chan) (v : Word)
  /-- R425 -/ | blockResetRelease (ch : Chan) (blk : Fin 17)
  /-- R416 -/ | stwKick (ch : Chan) (eng : Fin 4)
  /-- R416 -/ | coreWdog (ch : Chan) (eng : Fin 4)
  /-- R430 -/ | optimeSave
  /-- R492 -/ | mssPowerOn (imageOk : Bool) (vsupMUsed : Bool)
  /-- R432 -/ | calendarUpdate (seconds : Word)
  /-- R434 -/ | sensorSample (samples : SensorSet) (backTenSeconds : BitVec 25)
  /-- R435 -/ | envRecord
  /-- R436 -/ | logQueueDrain (ch : Chan)
  /-- R438 -/ | mailboxMessage (ch : Chan) (v : Word)
  /-- R442 -/ | logGo
  /-- R442 -/ | logRecordWritten (fail0 fail1 : Bool)
  /-- R30 -/ | managementLinkDown (ch : Chan)
  /-- R436 -/ | managementLinkUp (ch : Chan)
  /-- R450 -/ | logReadRequest (ch : Chan) (v : Word)
  /-- R451 -/ | logReadDone (ch : Chan) (bad0 bad1 : List Nat)
  /-- R452 -/ | shadowRefresh
  /-- R454 -/ | loadFrame (busyPercent : Nat)
  /-- R455 -/ | mssHbKick
  /-- R455 -/ | mssHbMiss (ch : Chan)
  /-- R455 -/ | resetVoteEnd (ch : Chan)
  /-- R456 -/ | mpVoteReset
  /-- R456 -/ | mpRestartDone
  /-- R477 -/ | keyChallenge (ch : Chan)
  /-- R479 -/ | keySubmitToken (ch : Chan)
  /-- R476 -/ | keyAttest (ch : Chan)
  /-- R465 -/ | keyFuseRootSlot (ch : Chan)
  /-- R479 -/ | keyAppendPart (ch : Chan)
  /-- R474 -/ | attestCredit
  /-- R472 -/ | identityGenerated
  /-- R481 -/ | updOpen (ch : Chan)
  /-- R481 -/ | updBlock (ch : Chan) (words : Nat)
  /-- R482 -/ | updVerify (ch : Chan)
  /-- R482 -/ | updVerifyDone
  /-- R483 -/ | updArmRotation (ch : Chan)
  /-- R483 -/ | updArmPowerCycle (ch : Chan)
  /-- R481 -/ | updDiscard (ch : Chan)
  /-- R483 -/ | slotCopyDone (readBackOk : Bool)
  /-- R471 -/ | commit
  /-- R484 -/ | trialNoHerdTimeout
  /-- R489 -/ | vsupRise (ch : Chan) (allLowFor100ms : Bool)
  /-- R489 -/ | vsupUndervoltage (ch : Chan)
  /-- R489 -/ | vsupReset (ch : Chan)
  /-- R490 -/ | bistDone (ch : Chan) (pass : Bool)
  /-- R496 -/ | p1EnterRequest (ch : Chan)
  /-- R498 -/ | p1LeaveRequest (ch : Chan)
  /-- R499 -/ | keyFiltered (ch : Chan) (on : Bool)
  /-- R499 -/ | awakeTimeEnd (ch : Chan)
  /-- R500 -/ | parkHoldEnd
  /-- R501 -/ | rungDwellEnd (region : Fin 4)
  /-- R503 -/ | wake (w : WakeEvt)
  /-- R511 -/ | dmiAccess (port : DbgPort) (op : DmiOp) (addr : BitVec 7) (data : Word)
  /-- R515 -/ | debugHaltRequest (port : DbgPort) (hart : Fin 5) (hold : Bool)
  /-- R509 -/ | debugResume (port : DbgPort) (hart : Fin 5) (singleStep : Bool)
  /-- R519 -/ | systemBusAccess (ch : Chan) (addr : Nat) (wr : Option Word) (size : AccSize)
  /-- R405 -/ | tempCd (ch : Chan)
  /-- R405 -/ | cpWdog (ch : Chan)
  /-- R405 -/ | d2dErr (ch : Chan)
  /-- R441 -/ | mpWatchdogReset
  /-- R17 -/ | vsupMLoss
  /-- R492 -/ | folioRequest (ch : Chan)
  /-- R38 -/ | peerWindowReadServed (ch : Chan) (requester : Packet Chan)
  /-- R136 -/ | dataHomeUpdateReceived (ch : Chan) (home : Fin 256) (off : Nat) (v : Packet Word)
  /-- R204 -/ | solenoidCurrentSample (ch : Chan) (n : Fin 4) (ma : Nat)
  /-- R264 -/ | vgdRecovered (ch : Chan)
  /-- R404 -/ | canFrameSent (ch : Chan) (func : Fin 2)
  /-- R389 -/ | tpCtsReceived (ch : Chan) (f : CanFrame)
  /-- R396 -/ | busIntegrationDone (ch : Chan)
  /-- R520 -/ | supervisorHeartbeat
  /-- R487 -/ | keyCommandDone (ch : Chan)
  deriving DecidableEq, Repr

end Sys2Proof
end

