-- ==== Sys2Proof/Config.lean ====
section
/-! DEFINITION. What an implementation fixes and what the spec leaves open: opaque constants without a body, so that
no proof can see a value of them. Each is named in a row of notes/assumptions. -/

namespace Sys2Proof.Config

/-- Fresh free values: the agent that draws (1, 2, 3 the channels, 0 the MSS) and its counter of draws
(`Channel.free`, `Mss.free`). DESIGN CHOICE, safe: log entry 8. -/
opaque freeValue : Nat → Nat → Nat

/-- The back-EMF observer of R199 (06_field_control.md): the spec gives its inputs and its purpose, not its
arithmetic to the bit. Inputs: the old angle and speed, the currents iα and iβ now and one period before, the applied
voltages vα and vβ, the period in PCLK counts and the bandwidth; outputs: the new angle (32 bits) and electrical speed (Q16.16, signed).
The same inputs give the same outputs on every channel, as R208 of 07_duty_vote.md needs.
DESIGN CHOICE, safe: log entry 35. -/
opaque observerAngle : List Int → Nat
/-- Speed output of the observer of R199 (log entry 35). -/
opaque observerSpeed : List Int → Int

/-- The 48-bit device ID (R469, R477 of 17_security_and_update.md).
DESIGN CHOICE: log entry 68, as for the four constants that follow. -/
opaque deviceId : BitVec 48
/-- SHA-256 of the vendor public key, fused at manufacture (R462 of 17_security_and_update.md). -/
opaque vendorKeyHash : BitVec 256

/-- A challenge drawn from the MSS random source (R477 of 17_security_and_update.md): 16 bytes as a number. -/
opaque challenge : Nat → BitVec 128
/-- The 60-byte public key of an identity, made from a seed drawn from the MSS random source (R472), as a number; by the
number of the identity. -/
opaque identityPub : Nat → BitVec 480
/-- The HSS signature bytes the identity makes over a message with a leaf (R476); number of identity, leaf, message. -/
opaque identitySig : Nat → Nat → List Byte → List Byte

/-- The initial state of a task's image (R133 of 04_herd_placement.md), by task id and byte: the spec does not say where an
image keeps it. DESIGN CHOICE, safe: log entry 86. -/
opaque taskInit : Nat → Nat → BitVec 8

/-- Where a word of the MAC's frame buffer lies (R350 of 12_tether_network.md), by its number from the start of NETE's view:
stream context, buffer (0 FILL or the one being received, else the current one), byte offset. The spec gives no layout.
DESIGN CHOICE, safe: log entry 79. -/
opaque frameBufWord : Nat → Nat × Nat × Nat

/-- The herd engine's choice of an SRAM address for an object (R127 of 04_herd_placement.md), subject to the
bounds of that rule, which the model checks.
DESIGN CHOICE: log entry 29. -/
opaque allocChoice : Nat → Nat

end Sys2Proof.Config
end

