-- ==== Sys2Proof/Machine/Map.lean ====
section
/-! DEFINITION. Sparse maps from Nat keys, in one canonical form: keys strictly rising, no entry equal to what an
unlisted key reads as. Register files, memories and counter tables are such maps. -/

namespace Sys2Proof.Machine

/-- A sparse map; what an unlisted key reads as is an argument of the operations. -/
abbrev KMap (α : Type) := List (Nat × α)

/-- Read a key. -/
def kget {α : Type} (d : α) : KMap α → Nat → α
  | [], _ => d
  | (k, v) :: r, a => if a = k then v else kget d r a

/-- Remove a key. -/
def kerase {α : Type} : KMap α → Nat → KMap α
  | [], _ => []
  | (k, v) :: r, a => if a = k then kerase r a else (k, v) :: kerase r a

/-- Insert before the first larger key. -/
def kins {α : Type} : KMap α → Nat → α → KMap α
  | [], a, v => [(a, v)]
  | (k, w) :: r, a, v => if a < k then (a, v) :: (k, w) :: r else (k, w) :: kins r a v

/-- Write a key; writing the default removes the entry. -/
def kset {α : Type} [DecidableEq α] (d : α) (m : KMap α) (a : Nat) (v : α) : KMap α :=
  if v = d then kerase m a else kins (kerase m a) a v

/-- The canonical form: keys strictly rising, no entry equal to the default. -/
def kwf {α : Type} [DecidableEq α] (d : α) : KMap α → Bool
  | [] => true
  | [(_, v)] => decide (v ≠ d)
  | (k, v) :: (k', v') :: r => decide (v ≠ d) && decide (k < k') && kwf d ((k', v') :: r)

/-- A memory: bytes by address, unlisted addresses reading 0 (the wipe of R167 of 05_core_pair.md leaves zeros). -/
abbrev Memory := List Host.Cell

/-- The canonical form of a memory.
DESIGN CHOICE, unsafe: log entry 1. -/
abbrev Memory.wf (m : Memory) : Bool := kwf (0 : Byte) m

/-- One byte of a memory.
DESIGN CHOICE, unsafe: log entry 1. -/
def Memory.read (m : Memory) (a : Nat) : Byte := kget 0 m a

/-- Write one byte of a memory. -/
def Memory.write (m : Memory) (a : Nat) (v : Byte) : Memory := kset 0 m a v

/-- `n` bytes from an address. -/
def Memory.readBytes (m : Memory) (a : Nat) : Nat → List Byte
  | 0 => []
  | n + 1 => m.read a :: Memory.readBytes m (a + 1) n

/-- Store bytes from an address upwards. -/
def Memory.writeBytes (m : Memory) (a : Nat) : List Byte → Memory
  | [] => m
  | b :: bs => Memory.writeBytes (m.write a b) (a + 1) bs

/-- A little-endian word (R8 of 00_scope.md). -/
def Memory.readWord (m : Memory) (a : Nat) : Word :=
  (m.read a).setWidth 32 ||| ((m.read (a + 1)).setWidth 32 <<< 8) ||| ((m.read (a + 2)).setWidth 32 <<< 16)
    ||| ((m.read (a + 3)).setWidth 32 <<< 24)

/-- The bytes of a natural number, least significant first. -/
def leBytes : Nat → Nat → List Byte
  | 0, _ => []
  | n + 1, v => BitVec.ofNat 8 v :: leBytes n (v / 256)

/-- The number that bytes spell, least significant first. -/
def leNat : List Byte → Nat
  | [] => 0
  | b :: bs => b.toNat + 256 * leNat bs

/-- Store a little-endian word. -/
def Memory.writeWord (m : Memory) (a : Nat) (v : Word) : Memory := m.writeBytes a (leBytes 4 v.toNat)

/-- A register file: words by address, unlisted addresses reading 0. -/
abbrev RegMap := KMap Word

/-- A whole register. -/
def RegMap.word (r : RegMap) (a : Nat) : Word := kget 0 r a

/-- Write a whole register. -/
def RegMap.setWord (r : RegMap) (a : Nat) (v : Word) : RegMap := kset 0 r a v

end Sys2Proof.Machine
end

