-- ==== Sys2Proof/Machine/Regs.lean ====
section
/-! DEFINITION. The register map: every register of the spec by its name, its address in the map of its block, its
fields, and the table of access types (R10, R11 of 00_scope.md) that REGISTER_WRITE follows. Each block's registers
cite the rule whose tables give them. The FCE names take the engine (0 or 1), the indexed names their index. -/

namespace Sys2Proof.Machine

/-- A field of a register: the register's address, the field's least significant bit, its width. -/
structure Fld where
  addr : Nat
  lsb : Nat
  width : Nat
  deriving DecidableEq, Repr

/-- Access types of R11 of 00_scope.md. -/
inductive Acc | ro | rw | w1c | w1s | wo | lck | stk
  deriving DecidableEq, Repr

/-- FOL_CTRL: R71 of 02_folio.md. -/
abbrev FOL_CTRL : Nat := 0x400E0000
abbrev FOL_CTRL_PEER : Fld := ⟨FOL_CTRL, 4, 2⟩
abbrev FOL_CTRL_SRC : Fld := ⟨FOL_CTRL, 0, 2⟩

/-- FOL_STAT: R71 of 02_folio.md. -/
abbrev FOL_STAT : Nat := 0x400E0004
abbrev FOL_STAT_IGNREC : Fld := ⟨FOL_STAT, 16, 16⟩
abbrev FOL_STAT_RETAINED : Fld := ⟨FOL_STAT, 10, 1⟩
abbrev FOL_STAT_SEALED : Fld := ⟨FOL_STAT, 9, 1⟩
abbrev FOL_STAT_FAILED : Fld := ⟨FOL_STAT, 8, 1⟩
abbrev FOL_STAT_SOURCE : Fld := ⟨FOL_STAT, 4, 2⟩
abbrev FOL_STAT_STAGE : Fld := ⟨FOL_STAT, 0, 4⟩

/-- FOL_RES: R71 of 02_folio.md. -/
abbrev FOL_RES (n : Nat) : Nat := 0x400E0008 + 0x4 * n
abbrev FOL_RES_RECIDX (n : Nat) : Fld := ⟨FOL_RES n, 16, 16⟩
abbrev FOL_RES_QTYPE (n : Nat) : Fld := ⟨FOL_RES n, 8, 8⟩
abbrev FOL_RES_CODE (n : Nat) : Fld := ⟨FOL_RES n, 0, 8⟩

/-- FOL_POS: R71 of 02_folio.md. -/
abbrev FOL_POS (n : Nat) : Nat := 0x400E0014 + 0x4 * n
abbrev FOL_POS_OFFSET (n : Nat) : Fld := ⟨FOL_POS n, 0, 23⟩

/-- FOL_HASH: R71 of 02_folio.md. -/
abbrev FOL_HASH (n : Nat) : Nat := 0x400E0020 + 0x4 * n
abbrev FOL_HASH_VALUE (n : Nat) : Fld := ⟨FOL_HASH n, 0, 32⟩
/-- FOL_VERSION: R71 of 02_folio.md. -/
abbrev FOL_VERSION : Nat := 0x400E0040
abbrev FOL_VERSION_VALUE : Fld := ⟨FOL_VERSION, 0, 32⟩
/-- FOL_COMPAT: R71 of 02_folio.md. -/
abbrev FOL_COMPAT : Nat := 0x400E0044
abbrev FOL_COMPAT_VALUE : Fld := ⟨FOL_COMPAT, 0, 32⟩
/-- FOL_ROLLBACK: R71 of 02_folio.md. -/
abbrev FOL_ROLLBACK : Nat := 0x400E0048
abbrev FOL_ROLLBACK_VALUE : Fld := ⟨FOL_ROLLBACK, 0, 32⟩

/-- STW_SEAL: R72 of 02_folio.md. -/
abbrev STW_SEAL : Nat := 0x40000020
abbrev STW_SEAL_VIOL_CNT : Fld := ⟨STW_SEAL, 8, 16⟩
abbrev STW_SEAL_VIOL : Fld := ⟨STW_SEAL, 1, 1⟩
abbrev STW_SEAL_SEAL : Fld := ⟨STW_SEAL, 0, 1⟩

/-- STW_SEALADDR: R72 of 02_folio.md. -/
abbrev STW_SEALADDR : Nat := 0x40000024
abbrev STW_SEALADDR_ADDR : Fld := ⟨STW_SEALADDR, 0, 32⟩

/-- STW_MODE: R109 of 03_modes_and_two_faults.md. -/
abbrev STW_MODE : Nat := 0x40000010
abbrev STW_MODE_STOPCAUSE : Fld := ⟨STW_MODE, 28, 4⟩
abbrev STW_MODE_REQ : Fld := ⟨STW_MODE, 18, 3⟩
abbrev STW_MODE_REQREF : Fld := ⟨STW_MODE, 17, 1⟩
abbrev STW_MODE_MEMBER : Fld := ⟨STW_MODE, 12, 1⟩
abbrev STW_MODE_FAWN : Fld := ⟨STW_MODE, 11, 1⟩
abbrev STW_MODE_IDEG : Fld := ⟨STW_MODE, 10, 1⟩
abbrev STW_MODE_PLANNED : Fld := ⟨STW_MODE, 9, 1⟩
abbrev STW_MODE_PREV : Fld := ⟨STW_MODE, 4, 3⟩
abbrev STW_MODE_MODE : Fld := ⟨STW_MODE, 0, 3⟩

/-- STW_MODETMR: R110 of 03_modes_and_two_faults.md. -/
abbrev STW_MODETMR : Nat := 0x40000014
abbrev STW_MODETMR_IDEG_REM : Fld := ⟨STW_MODETMR, 16, 16⟩
abbrev STW_MODETMR_SIMPLEX_REM : Fld := ⟨STW_MODETMR, 0, 16⟩

/-- STW_DEPTH: R110 of 03_modes_and_two_faults.md. -/
abbrev STW_DEPTH : Nat := 0x40000018
abbrev STW_DEPTH_LEV : Fld := ⟨STW_DEPTH, 20, 2⟩
abbrev STW_DEPTH_VLOST : Fld := ⟨STW_DEPTH, 16, 3⟩
abbrev STW_DEPTH_COILMIN : Fld := ⟨STW_DEPTH, 12, 2⟩
abbrev STW_DEPTH_RINGS : Fld := ⟨STW_DEPTH, 10, 2⟩
abbrev STW_DEPTH_RWAS : Fld := ⟨STW_DEPTH, 8, 2⟩
abbrev STW_DEPTH_ENCS : Fld := ⟨STW_DEPTH, 6, 2⟩
abbrev STW_DEPTH_PUMP : Fld := ⟨STW_DEPTH, 4, 2⟩
abbrev STW_DEPTH_WIND : Fld := ⟨STW_DEPTH, 2, 2⟩
abbrev STW_DEPTH_HERD : Fld := ⟨STW_DEPTH, 0, 2⟩

/-- HRD_STAT: R151 of 04_herd_placement.md. -/
abbrev HRD_STAT : Nat := 0x40030000
abbrev HRD_STAT_SHADOW : Fld := ⟨HRD_STAT, 21, 3⟩
abbrev HRD_STAT_ABSENT : Fld := ⟨HRD_STAT, 18, 3⟩
abbrev HRD_STAT_VIEW : Fld := ⟨HRD_STAT, 15, 3⟩
abbrev HRD_STAT_LINKS : Fld := ⟨HRD_STAT, 12, 3⟩
abbrev HRD_STAT_REF : Fld := ⟨HRD_STAT, 10, 2⟩
abbrev HRD_STAT_SPLITV : Fld := ⟨HRD_STAT, 8, 1⟩
abbrev HRD_STAT_ROLE : Fld := ⟨HRD_STAT, 0, 3⟩

/-- HRD_GEN: R151 of 04_herd_placement.md. -/
abbrev HRD_GEN : Nat := 0x40030004
abbrev HRD_GEN_VALUE : Fld := ⟨HRD_GEN, 0, 32⟩
/-- HRD_ROUND: R151 of 04_herd_placement.md. -/
abbrev HRD_ROUND : Nat := 0x40030008
abbrev HRD_ROUND_VALUE : Fld := ⟨HRD_ROUND, 0, 32⟩

/-- HRD_REQ: R151 of 04_herd_placement.md. -/
abbrev HRD_REQ : Nat := 0x4003000C
abbrev HRD_REQ_REPAIR : Fld := ⟨HRD_REQ, 3, 1⟩
abbrev HRD_REQ_REFUSED : Fld := ⟨HRD_REQ, 2, 1⟩
abbrev HRD_REQ_HREQ : Fld := ⟨HRD_REQ, 0, 2⟩

/-- HRD_ROT: R151 of 04_herd_placement.md. -/
abbrev HRD_ROT : Nat := 0x40030010
abbrev HRD_ROT_ABORTS : Fld := ⟨HRD_ROT, 24, 8⟩
abbrev HRD_ROT_CAUSE : Fld := ⟨HRD_ROT, 20, 4⟩
abbrev HRD_ROT_DONE : Fld := ⟨HRD_ROT, 17, 3⟩
abbrev HRD_ROT_CH : Fld := ⟨HRD_ROT, 15, 2⟩
abbrev HRD_ROT_STEP : Fld := ⟨HRD_ROT, 12, 3⟩
abbrev HRD_ROT_KIND : Fld := ⟨HRD_ROT, 10, 2⟩
abbrev HRD_ROT_COMMITPEND : Fld := ⟨HRD_ROT, 9, 1⟩

/-- HRD_SHADOW: R151 of 04_herd_placement.md. -/
abbrev HRD_SHADOW : Nat := 0x40030014
abbrev HRD_SHADOW_MISMATCH : Fld := ⟨HRD_SHADOW, 16, 16⟩
abbrev HRD_SHADOW_CYCLES : Fld := ⟨HRD_SHADOW, 0, 16⟩

/-- HRD_RECOV: R151 of 04_herd_placement.md. -/
abbrev HRD_RECOV : Nat := 0x40030018
abbrev HRD_RECOV_REFUSED : Fld := ⟨HRD_RECOV, 16, 16⟩
abbrev HRD_RECOV_LIMIT : Fld := ⟨HRD_RECOV, 8, 8⟩
abbrev HRD_RECOV_COUNT : Fld := ⟨HRD_RECOV, 0, 8⟩

/-- HRD_PROOF: R151 of 04_herd_placement.md. -/
abbrev HRD_PROOF : Nat := 0x4003001C
abbrev HRD_PROOF_INTERVAL : Fld := ⟨HRD_PROOF, 24, 8⟩
abbrev HRD_PROOF_OVERDUE : Fld := ⟨HRD_PROOF, 17, 1⟩
abbrev HRD_PROOF_PENDING : Fld := ⟨HRD_PROOF, 16, 1⟩
abbrev HRD_PROOF_ELAPSED : Fld := ⟨HRD_PROOF, 0, 16⟩

/-- HRD_NEXTSRC: R151 of 04_herd_placement.md. -/
abbrev HRD_NEXTSRC : Nat := 0x40030020
abbrev HRD_NEXTSRC_VALID : Fld := ⟨HRD_NEXTSRC, 7, 1⟩
abbrev HRD_NEXTSRC_STPASS : Fld := ⟨HRD_NEXTSRC, 6, 1⟩
abbrev HRD_NEXTSRC_PEER : Fld := ⟨HRD_NEXTSRC, 4, 2⟩
abbrev HRD_NEXTSRC_SRC : Fld := ⟨HRD_NEXTSRC, 0, 2⟩

/-- HRD_PROOFIN: R151 of 04_herd_placement.md. -/
abbrev HRD_PROOFIN : Nat := 0x40030024
abbrev HRD_PROOFIN_BRAKE : Fld := ⟨HRD_PROOFIN, 16, 10⟩
abbrev HRD_PROOFIN_RATE : Fld := ⟨HRD_PROOFIN, 0, 10⟩

/-- HRD_LOAD: R151 of 04_herd_placement.md. -/
abbrev HRD_LOAD (n : Nat) : Nat := 0x40030030 + 0x4 * n
abbrev HRD_LOAD_UTIL (n : Nat) : Fld := ⟨HRD_LOAD n, 0, 20⟩

/-- HRD_MEM: R151 of 04_herd_placement.md. -/
abbrev HRD_MEM (n : Nat) : Nat := 0x40030040 + 0x4 * n
abbrev HRD_MEM_HOME (n : Nat) : Fld := ⟨HRD_MEM n, 16, 10⟩
abbrev HRD_MEM_TSTATE (n : Nat) : Fld := ⟨HRD_MEM n, 0, 10⟩

/-- HRD_MIG: R151 of 04_herd_placement.md. -/
abbrev HRD_MIG : Nat := 0x40030050
abbrev HRD_MIG_SKIP : Fld := ⟨HRD_MIG, 16, 16⟩
abbrev HRD_MIG_MOVES : Fld := ⟨HRD_MIG, 0, 16⟩

/-- HRD_OVR: R151 of 04_herd_placement.md. -/
abbrev HRD_OVR : Nat := 0x40030054
abbrev HRD_OVR_EFFBUD : Fld := ⟨HRD_OVR, 12, 20⟩
abbrev HRD_OVR_TASK : Fld := ⟨HRD_OVR, 0, 8⟩

/-- HRD_DONE: R151 of 04_herd_placement.md. -/
abbrev HRD_DONE : Nat := 0x40030058
abbrev HRD_DONE_TASK : Fld := ⟨HRD_DONE, 0, 8⟩

/-- HRD_TASK: R151 of 04_herd_placement.md. -/
abbrev HRD_TASK (n : Nat) : Nat := 0x40030400 + 0x4 * n
abbrev HRD_TASK_EFFBUD (n : Nat) : Fld := ⟨HRD_TASK n, 12, 20⟩
abbrev HRD_TASK_STATUS (n : Nat) : Fld := ⟨HRD_TASK n, 9, 3⟩
abbrev HRD_TASK_NEXT (n : Nat) : Fld := ⟨HRD_TASK n, 6, 3⟩
abbrev HRD_TASK_HOSTS (n : Nat) : Fld := ⟨HRD_TASK n, 0, 3⟩
/-- HRD_HOME: R151 of 04_herd_placement.md. -/
abbrev HRD_HOME (n : Nat) : Nat := 0x40030800 + 0x4 * n
abbrev HRD_HOME_STATUS (n : Nat) : Fld := ⟨HRD_HOME n, 9, 3⟩
abbrev HRD_HOME_NEXT (n : Nat) : Fld := ⟨HRD_HOME n, 6, 3⟩
abbrev HRD_HOME_HOSTS (n : Nat) : Fld := ⟨HRD_HOME n, 0, 3⟩

/-- HRD_RES: R151 of 04_herd_placement.md. -/
abbrev HRD_RES (n : Nat) : Nat := 0x40030C00 + 0x4 * n
abbrev HRD_RES_HOLDER (n : Nat) : Fld := ⟨HRD_RES n, 0, 2⟩

/-- CMP_STAT: R174 of 05_core_pair.md. -/
abbrev CMP_STAT : Nat := 0x40020000
abbrev CMP_STAT_SPLIT : Fld := ⟨CMP_STAT, 9, 1⟩
abbrev CMP_STAT_SPLITIGN : Fld := ⟨CMP_STAT, 8, 1⟩
abbrev CMP_STAT_RESYNC : Fld := ⟨CMP_STAT, 5, 1⟩
abbrev CMP_STAT_DIGBUSY : Fld := ⟨CMP_STAT, 4, 1⟩
abbrev CMP_STAT_SWEEPOK : Fld := ⟨CMP_STAT, 1, 1⟩
abbrev CMP_STAT_SWEEPRUN : Fld := ⟨CMP_STAT, 0, 1⟩

/-- CMP_LAST: R174 of 05_core_pair.md. -/
abbrev CMP_LAST : Nat := 0x40020004
abbrev CMP_LAST_KIND : Fld := ⟨CMP_LAST, 30, 2⟩
abbrev CMP_LAST_GROUP : Fld := ⟨CMP_LAST, 24, 6⟩
abbrev CMP_LAST_EVENTS : Fld := ⟨CMP_LAST, 0, 16⟩

/-- CMP_LASTPC: R174 of 05_core_pair.md. -/
abbrev CMP_LASTPC : Nat := 0x40020008
abbrev CMP_LASTPC_PC : Fld := ⟨CMP_LASTPC, 0, 32⟩

/-- CMP_DIGCFG: R174 of 05_core_pair.md. -/
abbrev CMP_DIGCFG : Nat := 0x40020010
abbrev CMP_DIGCFG_PERIOD : Fld := ⟨CMP_DIGCFG, 0, 14⟩

/-- CMP_DIGSTAT: R174 of 05_core_pair.md. -/
abbrev CMP_DIGSTAT : Nat := 0x40020014
abbrev CMP_DIGSTAT_STALL : Fld := ⟨CMP_DIGSTAT, 16, 11⟩
abbrev CMP_DIGSTAT_TAKEN : Fld := ⟨CMP_DIGSTAT, 0, 16⟩

/-- CMP_LATCNT: R174 of 05_core_pair.md. -/
abbrev CMP_LATCNT : Nat := 0x40020018
abbrev CMP_LATCNT_COUNT : Fld := ⟨CMP_LATCNT, 0, 16⟩

/-- CMP_DIGL: R174 of 05_core_pair.md. -/
abbrev CMP_DIGL : Nat := 0x4002001C
abbrev CMP_DIGL_CRC : Fld := ⟨CMP_DIGL, 0, 32⟩
/-- CMP_DIGT: R174 of 05_core_pair.md. -/
abbrev CMP_DIGT : Nat := 0x40020020
abbrev CMP_DIGT_CRC : Fld := ⟨CMP_DIGT, 0, 32⟩

/-- CMP_INJ: R174 of 05_core_pair.md. -/
abbrev CMP_INJ : Nat := 0x40020030
abbrev CMP_INJ_START : Fld := ⟨CMP_INJ, 31, 1⟩
abbrev CMP_INJ_SELF : Fld := ⟨CMP_INJ, 10, 2⟩
abbrev CMP_INJ_POL : Fld := ⟨CMP_INJ, 8, 1⟩
abbrev CMP_INJ_GROUP : Fld := ⟨CMP_INJ, 0, 6⟩

/-- CMP_SWEEP: R174 of 05_core_pair.md. -/
abbrev CMP_SWEEP : Nat := 0x40020034
abbrev CMP_SWEEP_RKIND : Fld := ⟨CMP_SWEEP, 22, 2⟩
abbrev CMP_SWEEP_RGROUP : Fld := ⟨CMP_SWEEP, 16, 6⟩
abbrev CMP_SWEEP_FAILED : Fld := ⟨CMP_SWEEP, 8, 1⟩
abbrev CMP_SWEEP_STEP : Fld := ⟨CMP_SWEEP, 0, 8⟩

/-- CMP_ECC: R174 of 05_core_pair.md. -/
abbrev CMP_ECC : Nat := 0x40020040
abbrev CMP_ECC_UE : Fld := ⟨CMP_ECC, 16, 16⟩
abbrev CMP_ECC_CE : Fld := ⟨CMP_ECC, 0, 16⟩

/-- CMP_ECCCEA: R174 of 05_core_pair.md. -/
abbrev CMP_ECCCEA : Nat := 0x40020044
abbrev CMP_ECCCEA_ADDR : Fld := ⟨CMP_ECCCEA, 0, 32⟩
/-- CMP_ECCUEA: R174 of 05_core_pair.md. -/
abbrev CMP_ECCUEA : Nat := 0x40020048
abbrev CMP_ECCUEA_ADDR : Fld := ⟨CMP_ECCUEA, 0, 32⟩

/-- CMP_HART1: R174 of 05_core_pair.md. -/
abbrev CMP_HART1 : Nat := 0x40020050
abbrev CMP_HART1_PC : Fld := ⟨CMP_HART1, 2, 30⟩
abbrev CMP_HART1_RUN : Fld := ⟨CMP_HART1, 0, 1⟩

/-- FCE_STAT: R206 of 06_field_control.md. -/
abbrev FCE_STAT (k : Nat) : Nat := 0x40040000 + 0x10000 * k
abbrev FCE_STAT_FAWN10 (k : Nat) : Fld := ⟨FCE_STAT k, 19, 1⟩
abbrev FCE_STAT_FW (k : Nat) : Fld := ⟨FCE_STAT k, 18, 1⟩
abbrev FCE_STAT_VSAT (k : Nat) : Fld := ⟨FCE_STAT k, 17, 1⟩
abbrev FCE_STAT_ISAT (k : Nat) : Fld := ⟨FCE_STAT k, 16, 1⟩
abbrev FCE_STAT_OFSOK (k : Nat) : Fld := ⟨FCE_STAT k, 8, 4⟩
abbrev FCE_STAT_ALIGNED (k : Nat) : Fld := ⟨FCE_STAT k, 3, 1⟩
abbrev FCE_STAT_ALIGNBY (k : Nat) : Fld := ⟨FCE_STAT k, 1, 2⟩
abbrev FCE_STAT_RUN (k : Nat) : Fld := ⟨FCE_STAT k, 0, 1⟩

/-- FCE_PWM: R206 of 06_field_control.md. -/
abbrev FCE_PWM (k : Nat) : Nat := 0x40040004 + 0x10000 * k
abbrev FCE_PWM_ALIGNED (k : Nat) : Fld := ⟨FCE_PWM k, 18, 1⟩
abbrev FCE_PWM_SLOT (k : Nat) : Fld := ⟨FCE_PWM k, 16, 2⟩
abbrev FCE_PWM_HALF (k : Nat) : Fld := ⟨FCE_PWM k, 0, 16⟩

/-- FCE_CARR: R206 of 06_field_control.md. -/
abbrev FCE_CARR (k : Nat) : Nat := 0x40040008 + 0x10000 * k
abbrev FCE_CARR_ERR (k : Nat) : Fld := ⟨FCE_CARR k, 16, 16⟩
abbrev FCE_CARR_SYNCERR (k : Nat) : Fld := ⟨FCE_CARR k, 0, 8⟩

/-- FCE_XCHK: R206 of 06_field_control.md. -/
abbrev FCE_XCHK : Nat := 0x4004000C
abbrev FCE_XCHK_RESID : Fld := ⟨FCE_XCHK, 16, 16⟩
abbrev FCE_XCHK_RUN : Fld := ⟨FCE_XCHK, 8, 8⟩
abbrev FCE_XCHK_EVENTS : Fld := ⟨FCE_XCHK, 0, 8⟩

/-- FCE_POSSEL: R206 of 06_field_control.md. -/
abbrev FCE_POSSEL : Nat := 0x40040010
abbrev FCE_POSSEL_SRCC : Fld := ⟨FCE_POSSEL, 8, 4⟩
abbrev FCE_POSSEL_SRCB : Fld := ⟨FCE_POSSEL, 4, 4⟩
abbrev FCE_POSSEL_SRCA : Fld := ⟨FCE_POSSEL, 0, 4⟩

/-- FCE_PUMP: R206 of 06_field_control.md. -/
abbrev FCE_PUMP : Nat := 0x40050010
abbrev FCE_PUMP_SDLY : Fld := ⟨FCE_PUMP, 24, 8⟩
abbrev FCE_PUMP_CAUSE : Fld := ⟨FCE_PUMP, 18, 2⟩
abbrev FCE_PUMP_ATTEMPT : Fld := ⟨FCE_PUMP, 16, 2⟩
abbrev FCE_PUMP_FAULTY : Fld := ⟨FCE_PUMP, 15, 1⟩
abbrev FCE_PUMP_STATE : Fld := ⟨FCE_PUMP, 0, 3⟩

/-- FCE_PAR: R206 of 06_field_control.md. -/
abbrev FCE_PAR (k n : Nat) : Nat := 0x40040100 + 0x10000 * k + 4 * n
abbrev FCE_PAR_VALUE (k n : Nat) : Fld := ⟨FCE_PAR k n, 0, 32⟩

/-- FCE_SETPT: R206 of 06_field_control.md. -/
abbrev FCE_SETPT (k : Nat) : Nat := 0x40040200 + 0x10000 * k
abbrev FCE_SETPT_VALUE (k : Nat) : Fld := ⟨FCE_SETPT k, 0, 32⟩

/-- FCE_ID: R206 of 06_field_control.md. -/
abbrev FCE_ID (k : Nat) : Nat := 0x40040300 + 0x10000 * k
abbrev FCE_ID_VALUE (k : Nat) : Fld := ⟨FCE_ID k, 0, 32⟩
/-- FCE_IQ: R206 of 06_field_control.md. -/
abbrev FCE_IQ (k : Nat) : Nat := 0x40040304 + 0x10000 * k
abbrev FCE_IQ_VALUE (k : Nat) : Fld := ⟨FCE_IQ k, 0, 32⟩
/-- FCE_VD: R206 of 06_field_control.md. -/
abbrev FCE_VD (k : Nat) : Nat := 0x40040308 + 0x10000 * k
abbrev FCE_VD_VALUE (k : Nat) : Fld := ⟨FCE_VD k, 0, 32⟩
/-- FCE_VQ: R206 of 06_field_control.md. -/
abbrev FCE_VQ (k : Nat) : Nat := 0x4004030C + 0x10000 * k
abbrev FCE_VQ_VALUE (k : Nat) : Fld := ⟨FCE_VQ k, 0, 32⟩
/-- FCE_VLINK: R206 of 06_field_control.md. -/
abbrev FCE_VLINK (k : Nat) : Nat := 0x40040310 + 0x10000 * k
abbrev FCE_VLINK_VALUE (k : Nat) : Fld := ⟨FCE_VLINK k, 0, 32⟩
/-- FCE_THETA: R206 of 06_field_control.md. -/
abbrev FCE_THETA (k : Nat) : Nat := 0x40040314 + 0x10000 * k
abbrev FCE_THETA_VALUE (k : Nat) : Fld := ⟨FCE_THETA k, 0, 32⟩
/-- FCE_OMEGA: R206 of 06_field_control.md. -/
abbrev FCE_OMEGA (k : Nat) : Nat := 0x40040318 + 0x10000 * k
abbrev FCE_OMEGA_VALUE (k : Nat) : Fld := ⟨FCE_OMEGA k, 0, 32⟩
/-- FCE_MI: R206 of 06_field_control.md. -/
abbrev FCE_MI (k : Nat) : Nat := 0x4004031C + 0x10000 * k
abbrev FCE_MI_VALUE (k : Nat) : Fld := ⟨FCE_MI k, 0, 32⟩
/-- FCE_CONF: R206 of 06_field_control.md. -/
abbrev FCE_CONF (k : Nat) : Nat := 0x40040320 + 0x10000 * k
abbrev FCE_CONF_VALUE (k : Nat) : Fld := ⟨FCE_CONF k, 0, 32⟩
/-- FCE_IDC: R206 of 06_field_control.md. -/
abbrev FCE_IDC (k : Nat) : Nat := 0x40040324 + 0x10000 * k
abbrev FCE_IDC_VALUE (k : Nat) : Fld := ⟨FCE_IDC k, 0, 32⟩

/-- FCE_SOLSET: R206 of 06_field_control.md. -/
abbrev FCE_SOLSET (n : Nat) : Nat := 0x40050400 + 0x8 * n
abbrev FCE_SOLSET_MA (n : Nat) : Fld := ⟨FCE_SOLSET n, 0, 16⟩
/-- FCE_SOLMEAS: R206 of 06_field_control.md. -/
abbrev FCE_SOLMEAS (n : Nat) : Nat := 0x40050404 + 0x8 * n
abbrev FCE_SOLMEAS_RES (n : Nat) : Fld := ⟨FCE_SOLMEAS n, 16, 16⟩
abbrev FCE_SOLMEAS_MA (n : Nat) : Fld := ⟨FCE_SOLMEAS n, 0, 16⟩

/-- XLK_STAT: R228 of 07_duty_vote.md. -/
abbrev XLK_STAT : Nat := 0x40060000
abbrev XLK_STAT_MASK : Fld := ⟨XLK_STAT, 21, 3⟩
abbrev XLK_STAT_PRES : Fld := ⟨XLK_STAT, 18, 3⟩
abbrev XLK_STAT_OUT : Fld := ⟨XLK_STAT, 16, 2⟩
abbrev XLK_STAT_ODD : Fld := ⟨XLK_STAT, 14, 2⟩
abbrev XLK_STAT_HOLDRUN : Fld := ⟨XLK_STAT, 8, 3⟩
abbrev XLK_STAT_OUTSVC : Fld := ⟨XLK_STAT, 2, 1⟩
abbrev XLK_STAT_RULE : Fld := ⟨XLK_STAT, 0, 2⟩

/-- XLK_DEADL: R228 of 07_duty_vote.md. -/
abbrev XLK_DEADL : Nat := 0x40060004
abbrev XLK_DEADL_VDL : Fld := ⟨XLK_DEADL, 16, 11⟩
abbrev XLK_DEADL_CDL : Fld := ⟨XLK_DEADL, 0, 11⟩

/-- XLK_VCNT: R228 of 07_duty_vote.md. -/
abbrev XLK_VCNT : Nat := 0x40060008
abbrev XLK_VCNT_HOLDS : Fld := ⟨XLK_VCNT, 16, 16⟩
abbrev XLK_VCNT_VOTES : Fld := ⟨XLK_VCNT, 0, 16⟩

/-- XLK_ODD: R228 of 07_duty_vote.md. -/
abbrev XLK_ODD : Nat := 0x4006000C
abbrev XLK_ODD_SPLITS : Fld := ⟨XLK_ODD, 24, 8⟩
abbrev XLK_ODD_ODDC : Fld := ⟨XLK_ODD, 16, 8⟩
abbrev XLK_ODD_ODDB : Fld := ⟨XLK_ODD, 8, 8⟩
abbrev XLK_ODD_ODDA : Fld := ⟨XLK_ODD, 0, 8⟩

/-- XLK_MISS: R228 of 07_duty_vote.md. -/
abbrev XLK_MISS : Nat := 0x40060010
abbrev XLK_MISS_LONE : Fld := ⟨XLK_MISS, 24, 8⟩
abbrev XLK_MISS_MISSC : Fld := ⟨XLK_MISS, 16, 8⟩
abbrev XLK_MISS_MISSB : Fld := ⟨XLK_MISS, 8, 8⟩
abbrev XLK_MISS_MISSA : Fld := ⟨XLK_MISS, 0, 8⟩

/-- XLK_LINK: R228 of 07_duty_vote.md. -/
abbrev XLK_LINK : Nat := 0x40060014
abbrev XLK_LINK_LATES : Fld := ⟨XLK_LINK, 24, 8⟩
abbrev XLK_LINK_ECHOMISS : Fld := ⟨XLK_LINK, 16, 8⟩
abbrev XLK_LINK_MISROUTE : Fld := ⟨XLK_LINK, 8, 8⟩
abbrev XLK_LINK_CRCERR : Fld := ⟨XLK_LINK, 0, 8⟩

/-- XLK_SELF: R228 of 07_duty_vote.md. -/
abbrev XLK_SELF : Nat := 0x40060018
abbrev XLK_SELF_ODDSELF : Fld := ⟨XLK_SELF, 16, 16⟩
abbrev XLK_SELF_OVERRUN : Fld := ⟨XLK_SELF, 0, 8⟩

/-- XLK_CMPT: R228 of 07_duty_vote.md. -/
abbrev XLK_CMPT : Nat := 0x4006001C
abbrev XLK_CMPT_MAX : Fld := ⟨XLK_CMPT, 16, 11⟩
abbrev XLK_CMPT_LAST : Fld := ⟨XLK_CMPT, 0, 11⟩

/-- XLK_VDUTY0: R228 of 07_duty_vote.md. -/
abbrev XLK_VDUTY0 : Nat := 0x40060020
abbrev XLK_VDUTY0_DV : Fld := ⟨XLK_VDUTY0, 16, 16⟩
abbrev XLK_VDUTY0_DU : Fld := ⟨XLK_VDUTY0, 0, 16⟩
/-- XLK_VDUTY1: R228 of 07_duty_vote.md. -/
abbrev XLK_VDUTY1 : Nat := 0x40060024
abbrev XLK_VDUTY1_PSEQ : Fld := ⟨XLK_VDUTY1, 16, 8⟩
abbrev XLK_VDUTY1_DW : Fld := ⟨XLK_VDUTY1, 0, 16⟩

/-- GDR_MSTATE: R261 of 08_motor_fault_states.md. -/
abbrev GDR_MSTATE : Nat := 0x40070100
abbrev GDR_MSTATE_PCAUSE : Fld := ⟨GDR_MSTATE, 18, 10⟩
abbrev GDR_MSTATE_PSTATE : Fld := ⟨GDR_MSTATE, 16, 2⟩
abbrev GDR_MSTATE_SCAUSE : Fld := ⟨GDR_MSTATE, 4, 10⟩
abbrev GDR_MSTATE_SSTATE : Fld := ⟨GDR_MSTATE, 0, 2⟩

/-- GDR_LINK: R261 of 08_motor_fault_states.md. -/
abbrev GDR_LINK : Nat := 0x40070104
abbrev GDR_LINK_PROBE : Fld := ⟨GDR_LINK, 25, 1⟩
abbrev GDR_LINK_CHOPON : Fld := ⟨GDR_LINK, 24, 1⟩
abbrev GDR_LINK_UV : Fld := ⟨GDR_LINK, 23, 1⟩
abbrev GDR_LINK_OV2 : Fld := ⟨GDR_LINK, 22, 1⟩
abbrev GDR_LINK_OV1 : Fld := ⟨GDR_LINK, 21, 1⟩
abbrev GDR_LINK_VLC : Fld := ⟨GDR_LINK, 0, 14⟩

/-- GDR_CHOP: R261 of 08_motor_fault_states.md. -/
abbrev GDR_CHOP : Nat := 0x40070108
abbrev GDR_CHOP_FAILED : Fld := ⟨GDR_CHOP, 31, 1⟩
abbrev GDR_CHOP_RUN : Fld := ⟨GDR_CHOP, 24, 4⟩
abbrev GDR_CHOP_FAILS : Fld := ⟨GDR_CHOP, 16, 8⟩
abbrev GDR_CHOP_PASSES : Fld := ⟨GDR_CHOP, 0, 16⟩

/-- GDR_CHKMARG: R261 of 08_motor_fault_states.md. -/
abbrev GDR_CHKMARG : Nat := 0x4007010C
abbrev GDR_CHKMARG_MARGIN : Fld := ⟨GDR_CHKMARG, 0, 32⟩

/-- GDR_LADCNT: R261 of 08_motor_fault_states.md. -/
abbrev GDR_LADCNT : Nat := 0x40070110
abbrev GDR_LADCNT_OV1CNT : Fld := ⟨GDR_LADCNT, 24, 8⟩
abbrev GDR_LADCNT_OV2CNT : Fld := ⟨GDR_LADCNT, 16, 8⟩
abbrev GDR_LADCNT_UVCNT : Fld := ⟨GDR_LADCNT, 8, 8⟩
abbrev GDR_LADCNT_GUARD : Fld := ⟨GDR_LADCNT, 0, 8⟩

/-- GDR_OSK: R261 of 08_motor_fault_states.md. -/
abbrev GDR_OSK (n : Nat) : Nat := 0x40070114 + 0x4 * n
abbrev GDR_OSK_KOS (n : Nat) : Fld := ⟨GDR_OSK n, 0, 32⟩

/-- GDR_LL: R261 of 08_motor_fault_states.md. -/
abbrev GDR_LL (n : Nat) : Nat := 0x4007011C + 0x4 * n
abbrev GDR_LL_VALUE (n : Nat) : Fld := ⟨GDR_LL n, 0, 32⟩

/-- FCE_CSPIN: R262 of 08_motor_fault_states.md. -/
abbrev FCE_CSPIN : Nat := 0x40040014
abbrev FCE_CSPIN_DONE : Fld := ⟨FCE_CSPIN, 24, 8⟩
abbrev FCE_CSPIN_FAILS : Fld := ⟨FCE_CSPIN, 16, 8⟩
abbrev FCE_CSPIN_CONS : Fld := ⟨FCE_CSPIN, 8, 8⟩
abbrev FCE_CSPIN_PHASE : Fld := ⟨FCE_CSPIN, 0, 2⟩

/-- FCE_DRAG: R262 of 08_motor_fault_states.md. -/
abbrev FCE_DRAG : Nat := 0x40040018
abbrev FCE_DRAG_IQC : Fld := ⟨FCE_DRAG, 0, 32⟩

/-- FCE_REGEN: R262 of 08_motor_fault_states.md. -/
abbrev FCE_REGEN (k : Nat) : Nat := 0x4004001C + 0x10000 * k
abbrev FCE_REGEN_ZERO (k : Nat) : Fld := ⟨FCE_REGEN k, 31, 1⟩
abbrev FCE_REGEN_LOSS (k : Nat) : Fld := ⟨FCE_REGEN k, 30, 1⟩
abbrev FCE_REGEN_LIMITED (k : Nat) : Fld := ⟨FCE_REGEN k, 29, 1⟩
abbrev FCE_REGEN_REGEN (k : Nat) : Fld := ⟨FCE_REGEN k, 0, 16⟩

/-- GDR_STAT: R285 of 09_gate_drive.md. -/
abbrev GDR_STAT : Nat := 0x40070000
abbrev GDR_STAT_LOCALRST : Fld := ⟨GDR_STAT, 15, 1⟩
abbrev GDR_STAT_STFAIL : Fld := ⟨GDR_STAT, 14, 1⟩
abbrev GDR_STAT_VGDOK : Fld := ⟨GDR_STAT, 9, 1⟩
abbrev GDR_STAT_GDEN : Fld := ⟨GDR_STAT, 8, 1⟩
abbrev GDR_STAT_PEND : Fld := ⟨GDR_STAT, 1, 1⟩
abbrev GDR_STAT_INRST : Fld := ⟨GDR_STAT, 0, 1⟩

/-- GDR_FLT: R285 of 09_gate_drive.md. -/
abbrev GDR_FLT : Nat := 0x40070004
abbrev GDR_FLT_MULTI : Fld := ⟨GDR_FLT, 31, 1⟩
abbrev GDR_FLT_LATER : Fld := ⟨GDR_FLT, 30, 1⟩
abbrev GDR_FLT_LATCH : Fld := ⟨GDR_FLT, 0, 20⟩

/-- GDR_FIRST: R285 of 09_gate_drive.md. -/
abbrev GDR_FIRST : Nat := 0x40070008
abbrev GDR_FIRST_BITS : Fld := ⟨GDR_FIRST, 0, 20⟩
/-- GDR_SNAP: R285 of 09_gate_drive.md. -/
abbrev GDR_SNAP : Nat := 0x4007000C
abbrev GDR_SNAP_BITS : Fld := ⟨GDR_SNAP, 0, 20⟩

/-- GDR_STCMD: R285 of 09_gate_drive.md. -/
abbrev GDR_STCMD : Nat := 0x40070010
abbrev GDR_STCMD_COUNT : Fld := ⟨GDR_STCMD, 8, 8⟩
abbrev GDR_STCMD_LEG : Fld := ⟨GDR_STCMD, 0, 6⟩

/-- GDR_LOCK: R285 of 09_gate_drive.md. -/
abbrev GDR_LOCK : Nat := 0x40070014
abbrev GDR_LOCK_LOCK : Fld := ⟨GDR_LOCK, 0, 20⟩

/-- GDR_GDENO: R285 of 09_gate_drive.md. -/
abbrev GDR_GDENO : Nat := 0x40070018
abbrev GDR_GDENO_CLRCNT : Fld := ⟨GDR_GDENO, 16, 16⟩
abbrev GDR_GDENO_PULSE : Fld := ⟨GDR_GDENO, 0, 1⟩

/-- GDR_CNT: R285 of 09_gate_drive.md. -/
abbrev GDR_CNT : Nat := 0x4007001C
abbrev GDR_CNT_DESAT : Fld := ⟨GDR_CNT, 24, 8⟩
abbrev GDR_CNT_OC : Fld := ⟨GDR_CNT, 16, 8⟩
abbrev GDR_CNT_BRST : Fld := ⟨GDR_CNT, 8, 8⟩
abbrev GDR_CNT_ENLOW : Fld := ⟨GDR_CNT, 0, 8⟩

/-- GDR_GD: R285 of 09_gate_drive.md. -/
abbrev GDR_GD (n : Nat) : Nat := 0x4007001C + 0x4 * n
abbrev GDR_GD_VALUE (n : Nat) : Fld := ⟨GDR_GD n, 0, 32⟩

/-- ENC_STAT: R309 of 10_position_feedback.md. -/
abbrev ENC_STAT : Nat := 0x40080000
abbrev ENC_STAT_SVALID : Fld := ⟨ENC_STAT, 24, 3⟩
abbrev ENC_STAT_STILL : Fld := ⟨ENC_STAT, 16, 6⟩
abbrev ENC_STAT_SFAULT : Fld := ⟨ENC_STAT, 8, 3⟩
abbrev ENC_STAT_UFAULT : Fld := ⟨ENC_STAT, 0, 6⟩

/-- ENC_MOTOR: R309 of 10_position_feedback.md. -/
abbrev ENC_MOTOR : Nat := 0x40080004
abbrev ENC_MOTOR_POLES : Fld := ⟨ENC_MOTOR, 8, 8⟩
abbrev ENC_MOTOR_UNIT : Fld := ⟨ENC_MOTOR, 0, 3⟩

/-- ENC_OMEGA: R309 of 10_position_feedback.md. -/
abbrev ENC_OMEGA : Nat := 0x40080008
abbrev ENC_OMEGA_VALUE : Fld := ⟨ENC_OMEGA, 0, 32⟩

/-- ENC_UCFG: R309 of 10_position_feedback.md. Word `w` counts from 1. -/
abbrev ENC_UCFG (n w : Nat) : Nat := 0x400800FC + 0x40 * n + 4 * w
abbrev ENC_UCFG_VALUE (n w : Nat) : Fld := ⟨ENC_UCFG n w, 0, 32⟩

/-- ENC_COUNT: R309 of 10_position_feedback.md. -/
abbrev ENC_COUNT (n : Nat) : Nat := 0x40080118 + 0x40 * n
abbrev ENC_COUNT_VALUE (n : Nat) : Fld := ⟨ENC_COUNT n, 0, 32⟩
/-- ENC_POS: R309 of 10_position_feedback.md. -/
abbrev ENC_POS (n : Nat) : Nat := 0x4008011C + 0x40 * n
abbrev ENC_POS_VALUE (n : Nat) : Fld := ⟨ENC_POS n, 0, 32⟩
/-- ENC_IDX: R309 of 10_position_feedback.md. -/
abbrev ENC_IDX (n : Nat) : Nat := 0x40080128 + 0x40 * n
abbrev ENC_IDX_VALUE (n : Nat) : Fld := ⟨ENC_IDX n, 0, 32⟩
/-- ENC_T0: R309 of 10_position_feedback.md. -/
abbrev ENC_T0 (n : Nat) : Nat := 0x4008012C + 0x40 * n
abbrev ENC_T0_VALUE (n : Nat) : Fld := ⟨ENC_T0 n, 0, 32⟩
/-- ENC_DIST: R309 of 10_position_feedback.md. -/
abbrev ENC_DIST (n : Nat) : Nat := 0x40080138 + 0x40 * n
abbrev ENC_DIST_VALUE (n : Nat) : Fld := ⟨ENC_DIST n, 0, 32⟩

/-- ENC_SPEED: R309 of 10_position_feedback.md. -/
abbrev ENC_SPEED (n : Nat) : Nat := 0x40080120 + 0x40 * n
abbrev ENC_SPEED_VALUE (n : Nat) : Fld := ⟨ENC_SPEED n, 0, 32⟩
/-- ENC_ACC: R309 of 10_position_feedback.md. -/
abbrev ENC_ACC (n : Nat) : Nat := 0x40080124 + 0x40 * n
abbrev ENC_ACC_VALUE (n : Nat) : Fld := ⟨ENC_ACC n, 0, 32⟩

/-- ENC_USTAT: R309 of 10_position_feedback.md. -/
abbrev ENC_USTAT (n : Nat) : Nat := 0x40080130 + 0x40 * n
abbrev ENC_USTAT_UPD (n : Nat) : Fld := ⟨ENC_USTAT n, 24, 8⟩
abbrev ENC_USTAT_UNC (n : Nat) : Fld := ⟨ENC_USTAT n, 16, 8⟩
abbrev ENC_USTAT_CAUSE (n : Nat) : Fld := ⟨ENC_USTAT n, 10, 3⟩
abbrev ENC_USTAT_UFAULT (n : Nat) : Fld := ⟨ENC_USTAT n, 9, 1⟩
abbrev ENC_USTAT_IDXSEEN (n : Nat) : Fld := ⟨ENC_USTAT n, 8, 1⟩
abbrev ENC_USTAT_COAST (n : Nat) : Fld := ⟨ENC_USTAT n, 5, 1⟩
abbrev ENC_USTAT_DIR (n : Nat) : Fld := ⟨ENC_USTAT n, 4, 1⟩
abbrev ENC_USTAT_STATE (n : Nat) : Fld := ⟨ENC_USTAT n, 0, 2⟩

/-- ENC_ERR: R309 of 10_position_feedback.md. -/
abbrev ENC_ERR (n : Nat) : Nat := 0x40080134 + 0x40 * n
abbrev ENC_ERR_IDXERR (n : Nat) : Fld := ⟨ENC_ERR n, 24, 8⟩
abbrev ENC_ERR_QERR (n : Nat) : Fld := ⟨ENC_ERR n, 16, 8⟩
abbrev ENC_ERR_EDGEF (n : Nat) : Fld := ⟨ENC_ERR n, 0, 16⟩

/-- ENC_CMPV: R309 of 10_position_feedback.md. -/
abbrev ENC_CMPV (n : Nat) : Nat := 0x4008013C + 0x40 * n
abbrev ENC_CMPV_CMPV (n : Nat) : Fld := ⟨ENC_CMPV n, 0, 32⟩

/-- ENC_SCFG: R309 of 10_position_feedback.md. Word `w` counts from 1. -/
abbrev ENC_SCFG (n w : Nat) : Nat := 0x400803FC + 0x40 * n + 4 * w
abbrev ENC_SCFG_VALUE (n w : Nat) : Fld := ⟨ENC_SCFG n w, 0, 32⟩

/-- ENC_SSTAT: R309 of 10_position_feedback.md. -/
abbrev ENC_SSTAT (n : Nat) : Nat := 0x40080410 + 0x40 * n
abbrev ENC_SSTAT_AGE (n : Nat) : Fld := ⟨ENC_SSTAT n, 16, 16⟩
abbrev ENC_SSTAT_FRAMES (n : Nat) : Fld := ⟨ENC_SSTAT n, 8, 8⟩
abbrev ENC_SSTAT_SFAULT (n : Nat) : Fld := ⟨ENC_SSTAT n, 1, 1⟩
abbrev ENC_SSTAT_VALID (n : Nat) : Fld := ⟨ENC_SSTAT n, 0, 1⟩

/-- ENC_SDATA: R309 of 10_position_feedback.md. -/
abbrev ENC_SDATA (n : Nat) : Nat := 0x40080414 + 0x40 * n
abbrev ENC_SDATA_VALUE (n : Nat) : Fld := ⟨ENC_SDATA n, 0, 32⟩
/-- ENC_SSIG1: R309 of 10_position_feedback.md. -/
abbrev ENC_SSIG1 (n : Nat) : Nat := 0x40080418 + 0x40 * n
abbrev ENC_SSIG1_VALUE (n : Nat) : Fld := ⟨ENC_SSIG1 n, 0, 32⟩
/-- ENC_SSIG2: R309 of 10_position_feedback.md. -/
abbrev ENC_SSIG2 (n : Nat) : Nat := 0x4008041C + 0x40 * n
abbrev ENC_SSIG2_VALUE (n : Nat) : Fld := ⟨ENC_SSIG2 n, 0, 32⟩
/-- ENC_STS: R309 of 10_position_feedback.md. -/
abbrev ENC_STS (n : Nat) : Nat := 0x40080420 + 0x40 * n
abbrev ENC_STS_VALUE (n : Nat) : Fld := ⟨ENC_STS n, 0, 32⟩
/-- ENC_STICK: R309 of 10_position_feedback.md. -/
abbrev ENC_STICK (n : Nat) : Nat := 0x40080424 + 0x40 * n
abbrev ENC_STICK_VALUE (n : Nat) : Fld := ⟨ENC_STICK n, 0, 32⟩

/-- ENC_SERR: R309 of 10_position_feedback.md. -/
abbrev ENC_SERR (n : Nat) : Nat := 0x40080428 + 0x40 * n
abbrev ENC_SERR_CRC (n : Nat) : Fld := ⟨ENC_SERR n, 24, 8⟩
abbrev ENC_SERR_FORM (n : Nat) : Fld := ⟨ENC_SERR n, 16, 8⟩
abbrev ENC_SERR_CAL (n : Nat) : Fld := ⟨ENC_SERR n, 8, 8⟩
abbrev ENC_SERR_TOUT (n : Nat) : Fld := ⟨ENC_SERR n, 0, 8⟩

/-- ENC_SSLOW: R309 of 10_position_feedback.md. -/
abbrev ENC_SSLOW (n : Nat) : Nat := 0x4008042C + 0x40 * n
abbrev ENC_SSLOW_NEW (n : Nat) : Fld := ⟨ENC_SSLOW n, 31, 1⟩
abbrev ENC_SSLOW_KIND (n : Nat) : Fld := ⟨ENC_SSLOW n, 28, 2⟩
abbrev ENC_SSLOW_ID (n : Nat) : Fld := ⟨ENC_SSLOW n, 20, 8⟩
abbrev ENC_SSLOW_DATA (n : Nat) : Fld := ⟨ENC_SSLOW n, 0, 16⟩

/-- STW_LIMIT: R331 of 11_steering_brake_safety_inputs.md. -/
abbrev STW_LIMIT : Nat := 0x4000001C
abbrev STW_LIMIT_TORQUE : Fld := ⟨STW_LIMIT, 16, 10⟩
abbrev STW_LIMIT_RATE : Fld := ⟨STW_LIMIT, 0, 10⟩

/-- STW_SPDREQ: R331 of 11_steering_brake_safety_inputs.md. -/
abbrev STW_SPDREQ : Nat := 0x40000028
abbrev STW_SPDREQ_HOLD : Fld := ⟨STW_SPDREQ, 17, 1⟩
abbrev STW_SPDREQ_IDEG : Fld := ⟨STW_SPDREQ, 16, 1⟩
abbrev STW_SPDREQ_SPEED : Fld := ⟨STW_SPDREQ, 0, 16⟩

/-- SIN_VOTE: R332 of 11_steering_brake_safety_inputs.md. -/
abbrev SIN_VOTE : Nat := 0x40090000
abbrev SIN_VOTE_CHG : Fld := ⟨SIN_VOTE, 24, 6⟩
abbrev SIN_VOTE_STATE : Fld := ⟨SIN_VOTE, 0, 12⟩

/-- SIN_LOCAL: R332 of 11_steering_brake_safety_inputs.md. -/
abbrev SIN_LOCAL : Nat := 0x40090004
abbrev SIN_LOCAL_STATE : Fld := ⟨SIN_LOCAL, 0, 18⟩

/-- SIN_PEER: R332 of 11_steering_brake_safety_inputs.md. -/
abbrev SIN_PEER (n : Nat) : Nat := 0x40090008 + 0x4 * n
abbrev SIN_PEER_ROUND (n : Nat) : Fld := ⟨SIN_PEER n, 18, 8⟩
abbrev SIN_PEER_STATE (n : Nat) : Fld := ⟨SIN_PEER n, 0, 18⟩

/-- SIN_LEVEL: R332 of 11_steering_brake_safety_inputs.md. -/
abbrev SIN_LEVEL : Nat := 0x40090014
abbrev SIN_LEVEL_TPB : Fld := ⟨SIN_LEVEL, 29, 1⟩
abbrev SIN_LEVEL_TPA : Fld := ⟨SIN_LEVEL, 28, 1⟩
abbrev SIN_LEVEL_FILT : Fld := ⟨SIN_LEVEL, 16, 12⟩
abbrev SIN_LEVEL_RAW : Fld := ⟨SIN_LEVEL, 0, 12⟩

/-- SIN_PAIR: R332 of 11_steering_brake_safety_inputs.md. -/
abbrev SIN_PAIR (n : Nat) : Nat := 0x40090020 + 0x4 * n
abbrev SIN_PAIR_DISC (n : Nat) : Fld := ⟨SIN_PAIR n, 24, 8⟩
abbrev SIN_PAIR_TEST (n : Nat) : Fld := ⟨SIN_PAIR n, 16, 8⟩
abbrev SIN_PAIR_OUTV (n : Nat) : Fld := ⟨SIN_PAIR n, 8, 8⟩
abbrev SIN_PAIR_CAUSE (n : Nat) : Fld := ⟨SIN_PAIR n, 0, 2⟩

/-- SIN_STAT: R332 of 11_steering_brake_safety_inputs.md. -/
abbrev SIN_STAT : Nat := 0x40090040
abbrev SIN_STAT_SICNT : Fld := ⟨SIN_STAT, 16, 16⟩
abbrev SIN_STAT_TPCNT : Fld := ⟨SIN_STAT, 8, 8⟩
abbrev SIN_STAT_STATION : Fld := ⟨SIN_STAT, 7, 1⟩
abbrev SIN_STAT_HOLD : Fld := ⟨SIN_STAT, 6, 1⟩
abbrev SIN_STAT_INVALID : Fld := ⟨SIN_STAT, 0, 6⟩

/-- SIN_CFG: R332 of 11_steering_brake_safety_inputs.md. Word `w` counts from 1. -/
abbrev SIN_CFG (n w : Nat) : Nat := 0x4009007C + 0x10 * n + 4 * w
abbrev SIN_CFG_VALUE (n w : Nat) : Fld := ⟨SIN_CFG n w, 0, 32⟩

/-- TTE_STAT: R364 of 12_tether_network.md. -/
abbrev TTE_STAT : Nat := 0x400A0000
abbrev TTE_STAT_ADDR : Fld := ⟨TTE_STAT, 20, 6⟩
abbrev TTE_STAT_ENUMOVF : Fld := ⟨TTE_STAT, 16, 1⟩
abbrev TTE_STAT_BRK : Fld := ⟨TTE_STAT, 14, 1⟩
abbrev TTE_STAT_FOLD : Fld := ⟨TTE_STAT, 13, 1⟩
abbrev TTE_STAT_LINK1 : Fld := ⟨TTE_STAT, 12, 1⟩
abbrev TTE_STAT_LINK0 : Fld := ⟨TTE_STAT, 11, 1⟩
abbrev TTE_STAT_TOPO : Fld := ⟨TTE_STAT, 10, 1⟩
abbrev TTE_STAT_ROLE : Fld := ⟨TTE_STAT, 0, 3⟩

/-- TTE_CYCLE: R364 of 12_tether_network.md. -/
abbrev TTE_CYCLE : Nat := 0x400A0004
abbrev TTE_CYCLE_CYCLE : Fld := ⟨TTE_CYCLE, 0, 32⟩

/-- TTE_ROLL: R364 of 12_tether_network.md. -/
abbrev TTE_ROLL : Nat := 0x400A0008
abbrev TTE_ROLL_LEAD : Fld := ⟨TTE_ROLL, 20, 6⟩
abbrev TTE_ROLL_NROWS : Fld := ⟨TTE_ROLL, 8, 9⟩
abbrev TTE_ROLL_ROW : Fld := ⟨TTE_ROLL, 0, 8⟩

/-- TTE_RING: R364 of 12_tether_network.md. -/
abbrev TTE_RING (n : Nat) : Nat := 0x400A000C + 0x4 * n
abbrev TTE_RING_VALUE (n : Nat) : Fld := ⟨TTE_RING n, 0, 32⟩

/-- TTE_GUARD: R364 of 12_tether_network.md. -/
abbrev TTE_GUARD : Nat := 0x400A0030
abbrev TTE_GUARD_WITHHELD : Fld := ⟨TTE_GUARD, 16, 16⟩
abbrev TTE_GUARD_COLL : Fld := ⟨TTE_GUARD, 8, 8⟩
abbrev TTE_GUARD_BLOCK : Fld := ⟨TTE_GUARD, 0, 1⟩

/-- TTE_WIN: R364 of 12_tether_network.md. -/
abbrev TTE_WIN : Nat := 0x400A0034
abbrev TTE_WIN_REJECT : Fld := ⟨TTE_WIN, 16, 16⟩
abbrev TTE_WIN_UNRELCNT : Fld := ⟨TTE_WIN, 8, 8⟩

/-- TTE_UNREL: R364 of 12_tether_network.md. -/
abbrev TTE_UNREL (n : Nat) : Nat := 0x400A0038 + 0x4 * n
abbrev TTE_UNREL_SRC (n : Nat) : Fld := ⟨TTE_UNREL n, 0, 32⟩

/-- TTE_ERR: R364 of 12_tether_network.md. -/
abbrev TTE_ERR : Nat := 0x400A0040
abbrev TTE_ERR_OVERSIZE : Fld := ⟨TTE_ERR, 24, 8⟩
abbrev TTE_ERR_RESLEN : Fld := ⟨TTE_ERR, 16, 8⟩
abbrev TTE_ERR_CODE : Fld := ⟨TTE_ERR, 8, 8⟩
abbrev TTE_ERR_FORM : Fld := ⟨TTE_ERR, 0, 8⟩
/-- TTE_ERR2: R364 of 12_tether_network.md. -/
abbrev TTE_ERR2 : Nat := 0x400A0044
abbrev TTE_ERR2_FCS : Fld := ⟨TTE_ERR2, 16, 16⟩
abbrev TTE_ERR2_HOPS0 : Fld := ⟨TTE_ERR2, 8, 8⟩
abbrev TTE_ERR2_ETYPE : Fld := ⟨TTE_ERR2, 0, 8⟩

/-- TTE_FWD: R364 of 12_tether_network.md. -/
abbrev TTE_FWD : Nat := 0x400A0048
abbrev TTE_FWD_STRIPPED : Fld := ⟨TTE_FWD, 16, 16⟩
abbrev TTE_FWD_FWD : Fld := ⟨TTE_FWD, 0, 16⟩

/-- TTE_CLAIM: R364 of 12_tether_network.md. -/
abbrev TTE_CLAIM : Nat := 0x400A0050
abbrev TTE_CLAIM_GRANTS : Fld := ⟨TTE_CLAIM, 24, 8⟩
abbrev TTE_CLAIM_REVOKES : Fld := ⟨TTE_CLAIM, 16, 8⟩
abbrev TTE_CLAIM_SLOT : Fld := ⟨TTE_CLAIM, 8, 4⟩
abbrev TTE_CLAIM_STATE : Fld := ⟨TTE_CLAIM, 0, 2⟩

/-- TTE_DEVID: R364 of 12_tether_network.md. -/
abbrev TTE_DEVID (n : Nat) : Nat := 0x400A0058 + 0x4 * n
abbrev TTE_DEVID_ID (n : Nat) : Fld := ⟨TTE_DEVID n, 0, 32⟩

/-- TTE_PSEL: R364 of 12_tether_network.md. -/
abbrev TTE_PSEL (n : Nat) : Nat := 0x400A0080 + 0x4 * n
abbrev TTE_PSEL_CTX (n : Nat) : Fld := ⟨TTE_PSEL n, 0, 7⟩

/-- TTE_PSTAT: R364 of 12_tether_network.md. -/
abbrev TTE_PSTAT (n : Nat) : Nat := 0x400A0090 + 0x4 * n
abbrev TTE_PSTAT_GEN (n : Nat) : Fld := ⟨TTE_PSTAT n, 24, 8⟩
abbrev TTE_PSTAT_COMMIT (n : Nat) : Fld := ⟨TTE_PSTAT n, 23, 1⟩
abbrev TTE_PSTAT_STATE (n : Nat) : Fld := ⟨TTE_PSTAT n, 21, 2⟩
abbrev TTE_PSTAT_LEN (n : Nat) : Fld := ⟨TTE_PSTAT n, 8, 11⟩

/-- TTE_CTXCFG: R364 of 12_tether_network.md. Word `w` counts from 1. -/
abbrev TTE_CTXCFG (n w : Nat) : Nat := 0x400A3FFC + 0x20 * n + 4 * w
abbrev TTE_CTXCFG_VALUE (n w : Nat) : Fld := ⟨TTE_CTXCFG n w, 0, 32⟩

/-- TTE_CTXSTAT: R364 of 12_tether_network.md. -/
abbrev TTE_CTXSTAT (n : Nat) : Nat := 0x400A400C + 0x20 * n
abbrev TTE_CTXSTAT_SEQ (n : Nat) : Fld := ⟨TTE_CTXSTAT n, 16, 16⟩
abbrev TTE_CTXSTAT_MISSRUN (n : Nat) : Fld := ⟨TTE_CTXSTAT n, 8, 8⟩
abbrev TTE_CTXSTAT_STATE (n : Nat) : Fld := ⟨TTE_CTXSTAT n, 0, 2⟩

/-- TTE_CTXTIME: R364 of 12_tether_network.md. -/
abbrev TTE_CTXTIME (n : Nat) : Nat := 0x400A4010 + 0x20 * n
abbrev TTE_CTXTIME_NS (n : Nat) : Fld := ⟨TTE_CTXTIME n, 0, 32⟩

/-- TTE_CTXCNT: R364 of 12_tether_network.md. -/
abbrev TTE_CTXCNT (n : Nat) : Nat := 0x400A4014 + 0x20 * n
abbrev TTE_CTXCNT_ACCEPT (n : Nat) : Fld := ⟨TTE_CTXCNT n, 16, 16⟩
abbrev TTE_CTXCNT_MISS (n : Nat) : Fld := ⟨TTE_CTXCNT n, 8, 8⟩
abbrev TTE_CTXCNT_DUP (n : Nat) : Fld := ⟨TTE_CTXCNT n, 0, 8⟩
/-- TTE_CTXERR: R364 of 12_tether_network.md. -/
abbrev TTE_CTXERR (n : Nat) : Nat := 0x400A4018 + 0x20 * n
abbrev TTE_CTXERR_OVERSIZE (n : Nat) : Fld := ⟨TTE_CTXERR n, 24, 8⟩
abbrev TTE_CTXERR_REJECT (n : Nat) : Fld := ⟨TTE_CTXERR n, 16, 8⟩
abbrev TTE_CTXERR_CODE (n : Nat) : Fld := ⟨TTE_CTXERR n, 8, 8⟩
abbrev TTE_CTXERR_OLD (n : Nat) : Fld := ⟨TTE_CTXERR n, 0, 8⟩

/-- NTC_STAT: R388 of 13_network_time.md. -/
abbrev NTC_STAT : Nat := 0x400B0000
abbrev NTC_STAT_SYNCPORT : Fld := ⟨NTC_STAT, 10, 2⟩
abbrev NTC_STAT_LDOK1 : Fld := ⟨NTC_STAT, 9, 1⟩
abbrev NTC_STAT_LDOK0 : Fld := ⟨NTC_STAT, 8, 1⟩
abbrev NTC_STAT_HOLD : Fld := ⟨NTC_STAT, 3, 1⟩
abbrev NTC_STAT_CLAMP : Fld := ⟨NTC_STAT, 2, 1⟩
abbrev NTC_STAT_LEAD : Fld := ⟨NTC_STAT, 1, 1⟩
abbrev NTC_STAT_JOINED : Fld := ⟨NTC_STAT, 0, 1⟩

/-- NTC_TIMEL: R388 of 13_network_time.md. -/
abbrev NTC_TIMEL : Nat := 0x400B0004
abbrev NTC_TIMEL_NS : Fld := ⟨NTC_TIMEL, 0, 32⟩
/-- NTC_TIMEH: R388 of 13_network_time.md. -/
abbrev NTC_TIMEH : Nat := 0x400B0008
abbrev NTC_TIMEH_NS : Fld := ⟨NTC_TIMEH, 0, 32⟩

/-- NTC_EPOCH: R388 of 13_network_time.md. -/
abbrev NTC_EPOCH : Nat := 0x400B000C
abbrev NTC_EPOCH_LEADEP : Fld := ⟨NTC_EPOCH, 16, 16⟩
abbrev NTC_EPOCH_EPOCH : Fld := ⟨NTC_EPOCH, 0, 16⟩

/-- NTC_INC: R388 of 13_network_time.md. -/
abbrev NTC_INC : Nat := 0x400B0010
abbrev NTC_INC_VALUE : Fld := ⟨NTC_INC, 0, 32⟩
/-- NTC_RATE: R388 of 13_network_time.md. -/
abbrev NTC_RATE : Nat := 0x400B0014
abbrev NTC_RATE_VALUE : Fld := ⟨NTC_RATE, 0, 32⟩

/-- NTC_OFS: R388 of 13_network_time.md. -/
abbrev NTC_OFS : Nat := 0x400B0018
abbrev NTC_OFS_OFFSET : Fld := ⟨NTC_OFS, 0, 32⟩
/-- NTC_OFSALT: R388 of 13_network_time.md. -/
abbrev NTC_OFSALT : Nat := 0x400B001C
abbrev NTC_OFSALT_OFFSET : Fld := ⟨NTC_OFSALT, 0, 32⟩

/-- NTC_LD: R388 of 13_network_time.md. -/
abbrev NTC_LD (n : Nat) : Nat := 0x400B0020 + 0x4 * n
abbrev NTC_LD_NVAL (n : Nat) : Fld := ⟨NTC_LD n, 28, 4⟩
abbrev NTC_LD_DELAY (n : Nat) : Fld := ⟨NTC_LD n, 0, 16⟩

/-- NTC_LDERR: R388 of 13_network_time.md. -/
abbrev NTC_LDERR : Nat := 0x400B0028
abbrev NTC_LDERR_TOUT1 : Fld := ⟨NTC_LDERR, 24, 8⟩
abbrev NTC_LDERR_DISC1 : Fld := ⟨NTC_LDERR, 16, 8⟩
abbrev NTC_LDERR_TOUT0 : Fld := ⟨NTC_LDERR, 8, 8⟩
abbrev NTC_LDERR_DISC0 : Fld := ⟨NTC_LDERR, 0, 8⟩

/-- NTC_STEP: R388 of 13_network_time.md. -/
abbrev NTC_STEP : Nat := 0x400B002C
abbrev NTC_STEP_LAST : Fld := ⟨NTC_STEP, 0, 32⟩
/-- NTC_CNT: R388 of 13_network_time.md. -/
abbrev NTC_CNT : Nat := 0x400B0030
abbrev NTC_CNT_STEPS : Fld := ⟨NTC_CNT, 16, 16⟩
abbrev NTC_CNT_REJOIN : Fld := ⟨NTC_CNT, 8, 8⟩
abbrev NTC_CNT_CLAMPS : Fld := ⟨NTC_CNT, 0, 8⟩
/-- NTC_CSTART: R388 of 13_network_time.md. -/
abbrev NTC_CSTART : Nat := 0x400B0034
abbrev NTC_CSTART_NS : Fld := ⟨NTC_CSTART, 0, 32⟩

/-- NTC_MKCFG1: R388 of 13_network_time.md. -/
abbrev NTC_MKCFG1 (n : Nat) : Nat := 0x400B0100 + 0x10 * n
abbrev NTC_MKCFG1_VALUE (n : Nat) : Fld := ⟨NTC_MKCFG1 n, 0, 32⟩
/-- NTC_MKCFG2: R388 of 13_network_time.md. -/
abbrev NTC_MKCFG2 (n : Nat) : Nat := 0x400B0104 + 0x10 * n
abbrev NTC_MKCFG2_VALUE (n : Nat) : Fld := ⟨NTC_MKCFG2 n, 0, 32⟩

/-- NTC_MKSTAT: R388 of 13_network_time.md. -/
abbrev NTC_MKSTAT (n : Nat) : Nat := 0x400B0108 + 0x10 * n
abbrev NTC_MKSTAT_FIRED (n : Nat) : Fld := ⟨NTC_MKSTAT n, 16, 16⟩
abbrev NTC_MKSTAT_OVR (n : Nat) : Fld := ⟨NTC_MKSTAT n, 8, 8⟩
abbrev NTC_MKSTAT_PEND (n : Nat) : Fld := ⟨NTC_MKSTAT n, 0, 1⟩
/-- NTC_MKTIME: R388 of 13_network_time.md. -/
abbrev NTC_MKTIME (n : Nat) : Nat := 0x400B010C + 0x10 * n
abbrev NTC_MKTIME_NS (n : Nat) : Fld := ⟨NTC_MKTIME n, 0, 32⟩

/-- CAN_ISTAT: R404 of 14_isobus.md. -/
abbrev CAN_ISTAT : Nat := 0x400C0000
abbrev CAN_ISTAT_BUSOFF : Fld := ⟨CAN_ISTAT, 8, 8⟩
abbrev CAN_ISTAT_ERRPASS : Fld := ⟨CAN_ISTAT, 3, 1⟩
abbrev CAN_ISTAT_OFF : Fld := ⟨CAN_ISTAT, 2, 1⟩
abbrev CAN_ISTAT_RESTRICT : Fld := ⟨CAN_ISTAT, 1, 1⟩
abbrev CAN_ISTAT_VOICE : Fld := ⟨CAN_ISTAT, 0, 1⟩

/-- CAN_CLAIM: R404 of 14_isobus.md. -/
abbrev CAN_CLAIM (n : Nat) : Nat := 0x400C0004 + 0x4 * n
abbrev CAN_CLAIM_STATE (n : Nat) : Fld := ⟨CAN_CLAIM n, 16, 2⟩
abbrev CAN_CLAIM_LOSSES (n : Nat) : Fld := ⟨CAN_CLAIM n, 8, 8⟩
abbrev CAN_CLAIM_SA (n : Nat) : Fld := ⟨CAN_CLAIM n, 0, 8⟩

/-- CAN_TP: R404 of 14_isobus.md. -/
abbrev CAN_TP : Nat := 0x400C000C
abbrev CAN_TP_ABRES : Fld := ⟨CAN_TP, 24, 8⟩
abbrev CAN_TP_ABBUSY : Fld := ⟨CAN_TP, 16, 8⟩
abbrev CAN_TP_TOUT : Fld := ⟨CAN_TP, 8, 8⟩
abbrev CAN_TP_BAMOVR : Fld := ⟨CAN_TP, 0, 8⟩
/-- CAN_ERR: R404 of 14_isobus.md. -/
abbrev CAN_ERR : Nat := 0x400C0010
abbrev CAN_ERR_REC : Fld := ⟨CAN_ERR, 16, 8⟩
abbrev CAN_ERR_TEC : Fld := ⟨CAN_ERR, 8, 8⟩
abbrev CAN_ERR_TXDISC : Fld := ⟨CAN_ERR, 0, 8⟩

/-- CAN_RXINFO: R404 of 14_isobus.md. -/
abbrev CAN_RXINFO : Nat := 0x400C0024
abbrev CAN_RXINFO_SA : Fld := ⟨CAN_RXINFO, 24, 8⟩
abbrev CAN_RXINFO_PGN : Fld := ⟨CAN_RXINFO, 0, 18⟩
/-- CAN_RXMETA: R404 of 14_isobus.md. -/
abbrev CAN_RXMETA : Nat := 0x400C0028
abbrev CAN_RXMETA_SEQ : Fld := ⟨CAN_RXMETA, 16, 16⟩
abbrev CAN_RXMETA_VALID : Fld := ⟨CAN_RXMETA, 11, 1⟩
abbrev CAN_RXMETA_LEN : Fld := ⟨CAN_RXMETA, 0, 11⟩

/-- CAN_RXCTL: R404 of 14_isobus.md. -/
abbrev CAN_RXCTL : Nat := 0x400C002C
abbrev CAN_RXCTL_DROP : Fld := ⟨CAN_RXCTL, 16, 16⟩
abbrev CAN_RXCTL_COUNT : Fld := ⟨CAN_RXCTL, 1, 4⟩
abbrev CAN_RXCTL_POP : Fld := ⟨CAN_RXCTL, 0, 1⟩

/-- CAN_TXCTL: R404 of 14_isobus.md. -/
abbrev CAN_TXCTL : Nat := 0x400C0040
abbrev CAN_TXCTL_GO : Fld := ⟨CAN_TXCTL, 31, 1⟩
abbrev CAN_TXCTL_BUSY : Fld := ⟨CAN_TXCTL, 30, 1⟩
abbrev CAN_TXCTL_RES : Fld := ⟨CAN_TXCTL, 28, 2⟩
abbrev CAN_TXCTL_CF : Fld := ⟨CAN_TXCTL, 27, 1⟩
abbrev CAN_TXCTL_PRIO : Fld := ⟨CAN_TXCTL, 24, 3⟩
abbrev CAN_TXCTL_DA : Fld := ⟨CAN_TXCTL, 16, 8⟩
abbrev CAN_TXCTL_LEN : Fld := ⟨CAN_TXCTL, 0, 11⟩
/-- CAN_TXPGN: R404 of 14_isobus.md. -/
abbrev CAN_TXPGN : Nat := 0x400C0044
abbrev CAN_TXPGN_PGN : Fld := ⟨CAN_TXPGN, 0, 18⟩

/-- FCC_STAT: R427 of 15_fault_collection.md. -/
abbrev FCC_STAT (n : Nat) : Nat := 0x40010000 + 0x4 * n
abbrev FCC_STAT_SRC (n : Nat) : Fld := ⟨FCC_STAT n, 0, 32⟩

/-- FCC_ACT: R427 of 15_fault_collection.md. -/
abbrev FCC_ACT (n : Nat) : Nat := 0x40010008 + 0x4 * n
abbrev FCC_ACT_SRC (n : Nat) : Fld := ⟨FCC_ACT n, 0, 32⟩
/-- FCC_SEV: R427 of 15_fault_collection.md. -/
abbrev FCC_SEV (n : Nat) : Nat := 0x40010010 + 0x4 * n
abbrev FCC_SEV_SRC (n : Nat) : Fld := ⟨FCC_SEV n, 0, 32⟩

/-- FCC_SEVPRE: R427 of 15_fault_collection.md. -/
abbrev FCC_SEVPRE (n : Nat) : Nat := 0x40010018 + 0x4 * n
abbrev FCC_SEVPRE_SRC (n : Nat) : Fld := ⟨FCC_SEVPRE n, 0, 32⟩

/-- FCC_MASK: R427 of 15_fault_collection.md. -/
abbrev FCC_MASK (n : Nat) : Nat := 0x40010020 + 0x4 * n
abbrev FCC_MASK_SRC (n : Nat) : Fld := ⟨FCC_MASK n, 0, 32⟩

/-- FCC_LAST: R427 of 15_fault_collection.md. -/
abbrev FCC_LAST : Nat := 0x40010028
abbrev FCC_LAST_INJ : Fld := ⟨FCC_LAST, 31, 1⟩
abbrev FCC_LAST_SEVT : Fld := ⟨FCC_LAST, 30, 1⟩
abbrev FCC_LAST_SET : Fld := ⟨FCC_LAST, 16, 5⟩
abbrev FCC_LAST_SRC : Fld := ⟨FCC_LAST, 0, 6⟩
/-- FCC_LASTT: R427 of 15_fault_collection.md. -/
abbrev FCC_LASTT : Nat := 0x4001002C
abbrev FCC_LASTT_TB : Fld := ⟨FCC_LASTT, 0, 32⟩

/-- FCC_EPIN: R427 of 15_fault_collection.md. -/
abbrev FCC_EPIN : Nat := 0x40010030
abbrev FCC_EPIN_PULSES : Fld := ⟨FCC_EPIN, 16, 16⟩
abbrev FCC_EPIN_MINPW : Fld := ⟨FCC_EPIN, 2, 7⟩
abbrev FCC_EPIN_LEVEL : Fld := ⟨FCC_EPIN, 1, 1⟩
abbrev FCC_EPIN_HOLD : Fld := ⟨FCC_EPIN, 0, 1⟩

/-- FCC_QUIET: R427 of 15_fault_collection.md. -/
abbrev FCC_QUIET : Nat := 0x40010034
abbrev FCC_QUIET_QUIET : Fld := ⟨FCC_QUIET, 0, 32⟩

/-- FCC_INJ: R427 of 15_fault_collection.md. -/
abbrev FCC_INJ : Nat := 0x40010038
abbrev FCC_INJ_START : Fld := ⟨FCC_INJ, 31, 1⟩
abbrev FCC_INJ_BRSTX : Fld := ⟨FCC_INJ, 16, 1⟩
abbrev FCC_INJ_DUR : Fld := ⟨FCC_INJ, 8, 8⟩
abbrev FCC_INJ_SRC : Fld := ⟨FCC_INJ, 0, 6⟩

/-- FCC_INJRES: R427 of 15_fault_collection.md. -/
abbrev FCC_INJRES : Nat := 0x4001003C
abbrev FCC_INJRES_OTHER : Fld := ⟨FCC_INJRES, 26, 1⟩
abbrev FCC_INJRES_REAL : Fld := ⟨FCC_INJRES, 25, 1⟩
abbrev FCC_INJRES_SEEN : Fld := ⟨FCC_INJRES, 24, 1⟩
abbrev FCC_INJRES_LAT : Fld := ⟨FCC_INJRES, 0, 16⟩

/-- FCC_CNT: R427 of 15_fault_collection.md. -/
abbrev FCC_CNT (n : Nat) : Nat := 0x40010100 + 0x4 * n
abbrev FCC_CNT_OCC (n : Nat) : Fld := ⟨FCC_CNT n, 16, 16⟩
abbrev FCC_CNT_REC (n : Nat) : Fld := ⟨FCC_CNT n, 0, 16⟩

/-- FCC_CFG: R427 of 15_fault_collection.md. -/
abbrev FCC_CFG (n : Nat) : Nat := 0x40010200 + 0x4 * n
abbrev FCC_CFG_VALUE (n : Nat) : Fld := ⟨FCC_CFG n, 0, 32⟩
/-- FCC_WIN: R427 of 15_fault_collection.md. -/
abbrev FCC_WIN (n : Nat) : Nat := 0x40010300 + 0x4 * n
abbrev FCC_WIN_VALUE (n : Nat) : Fld := ⟨FCC_WIN n, 0, 32⟩

/-- STW_ID: R428 of 15_fault_collection.md. -/
abbrev STW_ID : Nat := 0x40000000
abbrev STW_ID_CH : Fld := ⟨STW_ID, 0, 2⟩

/-- STW_BLKEN: R428 of 15_fault_collection.md. -/
abbrev STW_BLKEN : Nat := 0x40000030
abbrev STW_BLKEN_BLK : Fld := ⟨STW_BLKEN, 0, 17⟩
/-- STW_BLKSTAT: R428 of 15_fault_collection.md. -/
abbrev STW_BLKSTAT : Nat := 0x40000038
abbrev STW_BLKSTAT_BLK : Fld := ⟨STW_BLKSTAT, 0, 17⟩

/-- STW_BLKRST: R428 of 15_fault_collection.md. -/
abbrev STW_BLKRST : Nat := 0x40000034
abbrev STW_BLKRST_BLK : Fld := ⟨STW_BLKRST, 0, 17⟩

/-- STW_CHRST: R428 of 15_fault_collection.md. -/
abbrev STW_CHRST : Nat := 0x4000003C
abbrev STW_CHRST_KEY : Fld := ⟨STW_CHRST, 0, 16⟩

/-- STW_RSTCAUSE: R428 of 15_fault_collection.md. -/
abbrev STW_RSTCAUSE : Nat := 0x40000040
abbrev STW_RSTCAUSE_COUNT : Fld := ⟨STW_RSTCAUSE, 16, 16⟩
abbrev STW_RSTCAUSE_SRC : Fld := ⟨STW_RSTCAUSE, 8, 6⟩
abbrev STW_RSTCAUSE_CAUSE : Fld := ⟨STW_RSTCAUSE, 0, 4⟩

/-- STW_REFUSE: R428 of 15_fault_collection.md. -/
abbrev STW_REFUSE : Nat := 0x40000044
abbrev STW_REFUSE_COUNT : Fld := ⟨STW_REFUSE, 0, 16⟩
/-- STW_KICK: R428 of 15_fault_collection.md. -/
abbrev STW_KICK : Nat := 0x40000048
abbrev STW_KICK_ENG : Fld := ⟨STW_KICK, 0, 2⟩

/-- MBX_MSG: R459 of 16_management_and_log.md. -/
abbrev MBX_MSG (n : Nat) : Nat := 0x70000000 + 0x4 * n
abbrev MBX_MSG_VALUE (n : Nat) : Fld := ⟨MBX_MSG n, 0, 32⟩

/-- MBX_QSTAT: R459 of 16_management_and_log.md. -/
abbrev MBX_QSTAT : Nat := 0x70000020
abbrev MBX_QSTAT_DROPS : Fld := ⟨MBX_QSTAT, 16, 16⟩
abbrev MBX_QSTAT_BADSRC : Fld := ⟨MBX_QSTAT, 8, 8⟩
abbrev MBX_QSTAT_FILL : Fld := ⟨MBX_QSTAT, 0, 7⟩

/-- MBX_MSS: R459 of 16_management_and_log.md. -/
abbrev MBX_MSS : Nat := 0x70000040
abbrev MBX_MSS_HELD : Fld := ⟨MBX_MSS, 7, 1⟩
abbrev MBX_MSS_CALVALID : Fld := ⟨MBX_MSS, 6, 1⟩
abbrev MBX_MSS_RET1 : Fld := ⟨MBX_MSS, 5, 1⟩
abbrev MBX_MSS_RET0 : Fld := ⟨MBX_MSS, 4, 1⟩
abbrev MBX_MSS_LOGDEAD : Fld := ⟨MBX_MSS, 3, 1⟩
abbrev MBX_MSS_LOGFULL : Fld := ⟨MBX_MSS, 2, 1⟩
abbrev MBX_MSS_LOAD : Fld := ⟨MBX_MSS, 0, 2⟩

/-- MBX_NEXT: R459 of 16_management_and_log.md. -/
abbrev MBX_NEXT : Nat := 0x70000044
abbrev MBX_NEXT_VALUE : Fld := ⟨MBX_NEXT, 0, 32⟩
/-- MBX_OPTIMEL: R459 of 16_management_and_log.md. -/
abbrev MBX_OPTIMEL : Nat := 0x70000048
abbrev MBX_OPTIMEL_VALUE : Fld := ⟨MBX_OPTIMEL, 0, 32⟩
/-- MBX_OPTIMEH: R459 of 16_management_and_log.md. -/
abbrev MBX_OPTIMEH : Nat := 0x7000004C
abbrev MBX_OPTIMEH_VALUE : Fld := ⟨MBX_OPTIMEH, 0, 32⟩
/-- MBX_PCYC: R459 of 16_management_and_log.md. -/
abbrev MBX_PCYC : Nat := 0x70000050
abbrev MBX_PCYC_VALUE : Fld := ⟨MBX_PCYC, 0, 32⟩
/-- MBX_CAL: R459 of 16_management_and_log.md. -/
abbrev MBX_CAL : Nat := 0x70000054
abbrev MBX_CAL_VALUE : Fld := ⟨MBX_CAL, 0, 32⟩
/-- MBX_CALEP: R459 of 16_management_and_log.md. -/
abbrev MBX_CALEP : Nat := 0x70000058
abbrev MBX_CALEP_VALUE : Fld := ⟨MBX_CALEP, 0, 32⟩
/-- MBX_PROOF: R459 of 16_management_and_log.md. -/
abbrev MBX_PROOF : Nat := 0x7000005C
abbrev MBX_PROOF_VALUE : Fld := ⟨MBX_PROOF, 0, 32⟩

/-- MBX_RDSTART: R459 of 16_management_and_log.md. -/
abbrev MBX_RDSTART : Nat := 0x70000100
abbrev MBX_RDSTART_SEQ : Fld := ⟨MBX_RDSTART, 0, 32⟩
/-- MBX_RDCTL: R459 of 16_management_and_log.md. -/
abbrev MBX_RDCTL : Nat := 0x70000104
abbrev MBX_RDCTL_AREA : Fld := ⟨MBX_RDCTL, 8, 2⟩
abbrev MBX_RDCTL_COUNT : Fld := ⟨MBX_RDCTL, 0, 5⟩

/-- MBX_RDSTAT: R459 of 16_management_and_log.md. -/
abbrev MBX_RDSTAT : Nat := 0x70000108
abbrev MBX_RDSTAT_BAD : Fld := ⟨MBX_RDSTAT, 24, 8⟩
abbrev MBX_RDSTAT_RET : Fld := ⟨MBX_RDSTAT, 19, 5⟩
abbrev MBX_RDSTAT_ERR : Fld := ⟨MBX_RDSTAT, 17, 2⟩
abbrev MBX_RDSTAT_DONE : Fld := ⟨MBX_RDSTAT, 16, 1⟩
abbrev MBX_RDSTAT_BUSY : Fld := ⟨MBX_RDSTAT, 15, 1⟩

/-- MBX_RDBUF: R459 of 16_management_and_log.md. -/
abbrev MBX_RDBUF (n : Nat) : Nat := 0x70000400 + 0x4 * n
abbrev MBX_RDBUF_VALUE (n : Nat) : Fld := ⟨MBX_RDBUF n, 0, 32⟩

/-- MSS_STAT: R460 of 16_management_and_log.md. -/
abbrev MSS_STAT : Nat := 0x48000000
abbrev MSS_STAT_VOTERST : Fld := ⟨MSS_STAT, 24, 8⟩
abbrev MSS_STAT_VOTES : Fld := ⟨MSS_STAT, 16, 3⟩
abbrev MSS_STAT_LINKS : Fld := ⟨MSS_STAT, 8, 3⟩
abbrev MSS_STAT_LOAD : Fld := ⟨MSS_STAT, 0, 2⟩

/-- MSS_HB: R460 of 16_management_and_log.md. -/
abbrev MSS_HB : Nat := 0x48000004
abbrev MSS_HB_KICK : Fld := ⟨MSS_HB, 0, 1⟩

/-- MSS_OPTIMEL: R460 of 16_management_and_log.md. -/
abbrev MSS_OPTIMEL : Nat := 0x48000008
abbrev MSS_OPTIMEL_VALUE : Fld := ⟨MSS_OPTIMEL, 0, 32⟩
/-- MSS_OPTIMEH: R460 of 16_management_and_log.md. -/
abbrev MSS_OPTIMEH : Nat := 0x4800000C
abbrev MSS_OPTIMEH_VALUE : Fld := ⟨MSS_OPTIMEH, 0, 32⟩
/-- MSS_PCYC: R460 of 16_management_and_log.md. -/
abbrev MSS_PCYC : Nat := 0x48000010
abbrev MSS_PCYC_VALUE : Fld := ⟨MSS_PCYC, 0, 32⟩
/-- MSS_CAL: R460 of 16_management_and_log.md. -/
abbrev MSS_CAL : Nat := 0x48000014
abbrev MSS_CAL_VALUE : Fld := ⟨MSS_CAL, 0, 32⟩
/-- MSS_CALEP: R460 of 16_management_and_log.md. -/
abbrev MSS_CALEP : Nat := 0x48000018
abbrev MSS_CALEP_VALUE : Fld := ⟨MSS_CALEP, 0, 32⟩

/-- MSS_CALIN: R460 of 16_management_and_log.md. -/
abbrev MSS_CALIN : Nat := 0x4800001C
abbrev MSS_CALIN_SECONDS : Fld := ⟨MSS_CALIN, 0, 32⟩

/-- MSS_SENS: R460 of 16_management_and_log.md. -/
abbrev MSS_SENS (n : Nat) : Nat := 0x48000100 + 0x4 * n
abbrev MSS_SENS_VALUE (n : Nat) : Fld := ⟨MSS_SENS n, 0, 16⟩

/-- LOG_STAT: R460 of 16_management_and_log.md. -/
abbrev LOG_STAT : Nat := 0x48010000
abbrev LOG_STAT_BUSY : Fld := ⟨LOG_STAT, 4, 1⟩
abbrev LOG_STAT_RET1 : Fld := ⟨LOG_STAT, 3, 1⟩
abbrev LOG_STAT_RET0 : Fld := ⟨LOG_STAT, 2, 1⟩
abbrev LOG_STAT_DEAD : Fld := ⟨LOG_STAT, 1, 1⟩
abbrev LOG_STAT_FULL : Fld := ⟨LOG_STAT, 0, 1⟩
/-- LOG_NEXT: R460 of 16_management_and_log.md. -/
abbrev LOG_NEXT : Nat := 0x48010004
abbrev LOG_NEXT_SEQ : Fld := ⟨LOG_NEXT, 0, 32⟩

/-- LOG_BODY: R460 of 16_management_and_log.md. -/
abbrev LOG_BODY (n : Nat) : Nat := 0x48010010 + 0x4 * n
abbrev LOG_BODY_VALUE (n : Nat) : Fld := ⟨LOG_BODY n, 0, 32⟩
/-- LOG_GO: R460 of 16_management_and_log.md. -/
abbrev LOG_GO : Nat := 0x48010030
abbrev LOG_GO_GO : Fld := ⟨LOG_GO, 0, 1⟩
/-- LOG_STAMP0: R460 of 16_management_and_log.md. -/
abbrev LOG_STAMP0 : Nat := 0x48010034
abbrev LOG_STAMP0_EPOCH : Fld := ⟨LOG_STAMP0, 16, 16⟩
abbrev LOG_STAMP0_ORIGIN : Fld := ⟨LOG_STAMP0, 0, 8⟩
/-- LOG_STAMP1: R460 of 16_management_and_log.md. -/
abbrev LOG_STAMP1 : Nat := 0x48010038
abbrev LOG_STAMP1_NTIME : Fld := ⟨LOG_STAMP1, 0, 32⟩
/-- LOG_STAMP2: R460 of 16_management_and_log.md. -/
abbrev LOG_STAMP2 : Nat := 0x4801003C
abbrev LOG_STAMP2_NTIME : Fld := ⟨LOG_STAMP2, 0, 32⟩

/-- LOG_LIFE: R460 of 16_management_and_log.md. -/
abbrev LOG_LIFE (n : Nat) : Nat := 0x48011000 + 0x4 * n
abbrev LOG_LIFE_COUNT (n : Nat) : Fld := ⟨LOG_LIFE n, 0, 32⟩

/-- KEY_STAT: R487 of 17_security_and_update.md. -/
abbrev KEY_STAT : Nat := 0x48020000
abbrev KEY_STAT_BUSY : Fld := ⟨KEY_STAT, 31, 1⟩
abbrev KEY_STAT_IDSTATE : Fld := ⟨KEY_STAT, 26, 2⟩
abbrev KEY_STAT_EPOCH : Fld := ⟨KEY_STAT, 16, 7⟩
abbrev KEY_STAT_CREDIT : Fld := ⟨KEY_STAT, 12, 4⟩
abbrev KEY_STAT_REVOKED : Fld := ⟨KEY_STAT, 8, 4⟩
abbrev KEY_STAT_FUSED : Fld := ⟨KEY_STAT, 4, 4⟩
abbrev KEY_STAT_DV : Fld := ⟨KEY_STAT, 3, 1⟩
abbrev KEY_STAT_LC : Fld := ⟨KEY_STAT, 0, 3⟩

/-- KEY_LEAF: R487 of 17_security_and_update.md. -/
abbrev KEY_LEAF : Nat := 0x48020004
abbrev KEY_LEAF_VALUE : Fld := ⟨KEY_LEAF, 0, 32⟩
/-- KEY_ROLLBACK: R487 of 17_security_and_update.md. -/
abbrev KEY_ROLLBACK : Nat := 0x48020008
abbrev KEY_ROLLBACK_VALUE : Fld := ⟨KEY_ROLLBACK, 0, 32⟩

/-- KEY_CHAL: R487 of 17_security_and_update.md. -/
abbrev KEY_CHAL (n : Nat) : Nat := 0x48020010 + 0x4 * n
abbrev KEY_CHAL_VALUE (n : Nat) : Fld := ⟨KEY_CHAL n, 0, 32⟩
/-- KEY_NONCE: R487 of 17_security_and_update.md. -/
abbrev KEY_NONCE (n : Nat) : Nat := 0x48020040 + 0x4 * n
abbrev KEY_NONCE_VALUE (n : Nat) : Fld := ⟨KEY_NONCE n, 0, 32⟩

/-- KEY_CMD: R487 of 17_security_and_update.md. -/
abbrev KEY_CMD : Nat := 0x48020020
abbrev KEY_CMD_CMD : Fld := ⟨KEY_CMD, 0, 4⟩
/-- KEY_RES: R487 of 17_security_and_update.md. -/
abbrev KEY_RES : Nat := 0x48020024
abbrev KEY_RES_DONE : Fld := ⟨KEY_RES, 31, 1⟩
abbrev KEY_RES_ERR : Fld := ⟨KEY_RES, 24, 5⟩
abbrev KEY_RES_LEN : Fld := ⟨KEY_RES, 0, 13⟩

/-- KEY_PART: R487 of 17_security_and_update.md. -/
abbrev KEY_PART : Nat := 0x48020028
abbrev KEY_PART_LEN : Fld := ⟨KEY_PART, 0, 14⟩

/-- UPD_STAT: R488 of 17_security_and_update.md. -/
abbrev UPD_STAT : Nat := 0x48030000
abbrev UPD_STAT_PAUSED : Fld := ⟨UPD_STAT, 7, 1⟩
abbrev UPD_STAT_OWNER : Fld := ⟨UPD_STAT, 4, 2⟩
abbrev UPD_STAT_STATE : Fld := ⟨UPD_STAT, 0, 3⟩

/-- UPD_LEN: R488 of 17_security_and_update.md. -/
abbrev UPD_LEN : Nat := 0x48030004
abbrev UPD_LEN_VALUE : Fld := ⟨UPD_LEN, 0, 32⟩
/-- UPD_NEXT: R488 of 17_security_and_update.md. -/
abbrev UPD_NEXT : Nat := 0x48030008
abbrev UPD_NEXT_VALUE : Fld := ⟨UPD_NEXT, 0, 32⟩
/-- UPD_OFS: R488 of 17_security_and_update.md. -/
abbrev UPD_OFS : Nat := 0x48030010
abbrev UPD_OFS_VALUE : Fld := ⟨UPD_OFS, 0, 32⟩

/-- UPD_CMD: R488 of 17_security_and_update.md. -/
abbrev UPD_CMD : Nat := 0x4803000C
abbrev UPD_CMD_BLEN : Fld := ⟨UPD_CMD, 3, 13⟩
abbrev UPD_CMD_CMD : Fld := ⟨UPD_CMD, 0, 3⟩
/-- UPD_RES: R488 of 17_security_and_update.md. -/
abbrev UPD_RES : Nat := 0x48030014
abbrev UPD_RES_DONE : Fld := ⟨UPD_RES, 31, 1⟩
abbrev UPD_RES_ERR : Fld := ⟨UPD_RES, 0, 5⟩

/-- UPD_FOLRES: R488 of 17_security_and_update.md. -/
abbrev UPD_FOLRES : Nat := 0x48030018
abbrev UPD_FOLRES_VALUE : Fld := ⟨UPD_FOLRES, 0, 32⟩
/-- UPD_FOLPOS: R488 of 17_security_and_update.md. -/
abbrev UPD_FOLPOS : Nat := 0x4803001C
abbrev UPD_FOLPOS_VALUE : Fld := ⟨UPD_FOLPOS, 0, 32⟩
/-- UPD_HASH: R488 of 17_security_and_update.md. -/
abbrev UPD_HASH (n : Nat) : Nat := 0x48030020 + 0x4 * n
abbrev UPD_HASH_VALUE (n : Nat) : Fld := ⟨UPD_HASH n, 0, 32⟩

/-- PWR_STAT: R507 of 18_bring_up_and_power.md. -/
abbrev PWR_STAT : Nat := 0x400D0000
abbrev PWR_STAT_WKIND : Fld := ⟨PWR_STAT, 16, 4⟩
abbrev PWR_STAT_WIDX : Fld := ⟨PWR_STAT, 12, 4⟩
abbrev PWR_STAT_MSSLOST : Fld := ⟨PWR_STAT, 10, 1⟩
abbrev PWR_STAT_KEYV : Fld := ⟨PWR_STAT, 9, 1⟩
abbrev PWR_STAT_KEYL : Fld := ⟨PWR_STAT, 8, 1⟩
abbrev PWR_STAT_RUNG : Fld := ⟨PWR_STAT, 0, 3⟩

/-- PWR_REQ: R507 of 18_bring_up_and_power.md. -/
abbrev PWR_REQ : Nat := 0x400D0004
abbrev PWR_REQ_REFUSED : Fld := ⟨PWR_REQ, 8, 1⟩
abbrev PWR_REQ_REQ : Fld := ⟨PWR_REQ, 0, 2⟩

/-- PWR_BOOT: R507 of 18_bring_up_and_power.md. -/
abbrev PWR_BOOT : Nat := 0x400D0008
abbrev PWR_BOOT_TDONE : Fld := ⟨PWR_BOOT, 16, 16⟩
abbrev PWR_BOOT_STEP : Fld := ⟨PWR_BOOT, 0, 4⟩

/-- PWR_CNT: R507 of 18_bring_up_and_power.md. -/
abbrev PWR_CNT : Nat := 0x400D000C
abbrev PWR_CNT_P1ENT : Fld := ⟨PWR_CNT, 16, 16⟩
abbrev PWR_CNT_WAKES : Fld := ⟨PWR_CNT, 0, 16⟩

/-- PWR_LDR: R507 of 18_bring_up_and_power.md. -/
abbrev PWR_LDR (n : Nat) : Nat := 0x400D001C + 0x4 * n
abbrev PWR_LDR_VALUE (n : Nat) : Fld := ⟨PWR_LDR n, 0, 32⟩

/-- PWR_WSRC1: R507 of 18_bring_up_and_power.md. -/
abbrev PWR_WSRC1 (n : Nat) : Nat := 0x400D0100 + 0x8 * n
abbrev PWR_WSRC1_VALUE (n : Nat) : Fld := ⟨PWR_WSRC1 n, 0, 32⟩
/-- PWR_WSRC2: R507 of 18_bring_up_and_power.md. -/
abbrev PWR_WSRC2 (n : Nat) : Nat := 0x400D0104 + 0x8 * n
abbrev PWR_WSRC2_VALUE (n : Nat) : Fld := ⟨PWR_WSRC2 n, 0, 32⟩

/-- STW_DBG: R522 of 19_debug_port.md. -/
abbrev STW_DBG : Nat := 0x40000050
abbrev STW_DBG_HALTED : Fld := ⟨STW_DBG, 8, 5⟩
abbrev STW_DBG_ABSENT : Fld := ⟨STW_DBG, 4, 1⟩
abbrev STW_DBG_HPEND : Fld := ⟨STW_DBG, 3, 1⟩
abbrev STW_DBG_SBWEN : Fld := ⟨STW_DBG, 2, 1⟩
abbrev STW_DBG_TOKEN : Fld := ⟨STW_DBG, 1, 1⟩
abbrev STW_DBG_OPEN : Fld := ⟨STW_DBG, 0, 1⟩

/-- One run of equally laid out registers: first address, stride, count, and each field as (lsb, width, access). -/
structure RegRow where
  base : Nat
  stride : Nat
  count : Nat
  flds : List (Nat × Nat × Acc)
  deriving DecidableEq, Repr

/-- Access types of the FOL registers. -/
def rowsFol : List RegRow :=
  [⟨0x400E0000, 0x4, 1, [(4, 2, .lck), (0, 2, .lck)]⟩,
   ⟨0x400E0004, 0x4, 1, [(16, 16, .ro), (10, 1, .ro), (9, 1, .ro), (8, 1, .ro), (4, 2, .ro), (0, 4, .ro)]⟩,
   ⟨0x400E0008, 0x4, 3, [(16, 16, .ro), (8, 8, .ro), (0, 8, .ro)]⟩,
   ⟨0x400E0014, 0x4, 3, [(0, 23, .ro)]⟩,
   ⟨0x400E0020, 0x4, 8, [(0, 32, .ro)]⟩,
   ⟨0x400E0040, 0x4, 1, [(0, 32, .ro)]⟩,
   ⟨0x400E0044, 0x4, 1, [(0, 32, .ro)]⟩,
   ⟨0x400E0048, 0x4, 1, [(0, 32, .ro)]⟩]

/-- Access types of the STW registers. -/
def rowsStw : List RegRow :=
  [⟨0x40000020, 0x4, 1, [(8, 16, .ro), (1, 1, .stk), (0, 1, .w1s)]⟩,
   ⟨0x40000024, 0x4, 1, [(0, 32, .stk)]⟩,
   ⟨0x40000010, 0x4, 1, [(28, 4, .ro), (18, 3, .wo), (17, 1, .w1c), (12, 1, .ro), (11, 1, .ro), (10, 1, .ro), (9, 1, .ro), (4, 3, .ro), (0, 3, .ro)]⟩,
   ⟨0x40000014, 0x4, 1, [(16, 16, .ro), (0, 16, .ro)]⟩,
   ⟨0x40000018, 0x4, 1, [(20, 2, .ro), (16, 3, .ro), (12, 2, .ro), (10, 2, .ro), (8, 2, .ro), (6, 2, .ro), (4, 2, .ro), (2, 2, .ro), (0, 2, .ro)]⟩,
   ⟨0x4000001C, 0x4, 1, [(16, 10, .ro), (0, 10, .ro)]⟩,
   ⟨0x40000028, 0x4, 1, [(17, 1, .ro), (16, 1, .ro), (0, 16, .ro)]⟩,
   ⟨0x40000000, 0x4, 1, [(0, 2, .ro)]⟩,
   ⟨0x40000030, 0x4, 1, [(0, 17, .lck)]⟩,
   ⟨0x40000038, 0x4, 1, [(0, 17, .ro)]⟩,
   ⟨0x40000034, 0x4, 1, [(0, 17, .wo)]⟩,
   ⟨0x4000003C, 0x4, 1, [(0, 16, .wo)]⟩,
   ⟨0x40000040, 0x4, 1, [(16, 16, .ro), (8, 6, .ro), (0, 4, .ro)]⟩,
   ⟨0x40000044, 0x4, 1, [(0, 16, .ro)]⟩,
   ⟨0x40000048, 0x4, 1, [(0, 2, .wo)]⟩,
   ⟨0x40000050, 0x4, 1, [(8, 5, .ro), (4, 1, .ro), (3, 1, .ro), (2, 1, .ro), (1, 1, .ro), (0, 1, .ro)]⟩]

/-- Access types of the HRD registers. -/
def rowsHrd : List RegRow :=
  [⟨0x40030000, 0x4, 1, [(21, 3, .ro), (18, 3, .ro), (15, 3, .ro), (12, 3, .ro), (10, 2, .ro), (8, 1, .stk), (0, 3, .ro)]⟩,
   ⟨0x40030004, 0x4, 1, [(0, 32, .ro)]⟩,
   ⟨0x40030008, 0x4, 1, [(0, 32, .ro)]⟩,
   ⟨0x4003000C, 0x4, 1, [(3, 1, .wo), (2, 1, .w1c), (0, 2, .wo)]⟩,
   ⟨0x40030010, 0x4, 1, [(24, 8, .ro), (20, 4, .ro), (17, 3, .ro), (15, 2, .ro), (12, 3, .ro), (10, 2, .ro), (9, 1, .ro)]⟩,
   ⟨0x40030014, 0x4, 1, [(16, 16, .ro), (0, 16, .ro)]⟩,
   ⟨0x40030018, 0x4, 1, [(16, 16, .ro), (8, 8, .ro), (0, 8, .ro)]⟩,
   ⟨0x4003001C, 0x4, 1, [(24, 8, .ro), (17, 1, .stk), (16, 1, .ro), (0, 16, .ro)]⟩,
   ⟨0x40030020, 0x4, 1, [(7, 1, .rw), (6, 1, .rw), (4, 2, .rw), (0, 2, .rw)]⟩,
   ⟨0x40030024, 0x4, 1, [(16, 10, .rw), (0, 10, .rw)]⟩,
   ⟨0x40030030, 0x4, 3, [(0, 20, .ro)]⟩,
   ⟨0x40030040, 0x4, 3, [(16, 10, .ro), (0, 10, .ro)]⟩,
   ⟨0x40030050, 0x4, 1, [(16, 16, .ro), (0, 16, .ro)]⟩,
   ⟨0x40030054, 0x4, 1, [(12, 20, .ro), (0, 8, .ro)]⟩,
   ⟨0x40030058, 0x4, 1, [(0, 8, .wo)]⟩,
   ⟨0x40030400, 0x4, 256, [(12, 20, .ro), (9, 3, .ro), (6, 3, .ro), (0, 3, .ro)]⟩,
   ⟨0x40030800, 0x4, 256, [(9, 3, .ro), (6, 3, .ro), (0, 3, .ro)]⟩,
   ⟨0x40030C00, 0x4, 256, [(0, 2, .ro)]⟩,
   ⟨0x40031000, 0x4, 256, [(0, 32, .ro)]⟩,
   ⟨0x40031400, 0x4, 256, [(0, 32, .ro)]⟩]

/-- Access types of the CMP registers. -/
def rowsCmp : List RegRow :=
  [⟨0x40020000, 0x4, 1, [(9, 1, .ro), (8, 1, .stk), (5, 1, .ro), (4, 1, .ro), (1, 1, .ro), (0, 1, .ro)]⟩,
   ⟨0x40020004, 0x4, 1, [(30, 2, .ro), (24, 6, .ro), (0, 16, .ro)]⟩,
   ⟨0x40020008, 0x4, 1, [(0, 32, .ro)]⟩,
   ⟨0x40020010, 0x4, 1, [(0, 14, .lck)]⟩,
   ⟨0x40020014, 0x4, 1, [(16, 11, .ro), (0, 16, .ro)]⟩,
   ⟨0x40020018, 0x4, 1, [(0, 16, .ro)]⟩,
   ⟨0x4002001C, 0x4, 1, [(0, 32, .ro)]⟩,
   ⟨0x40020020, 0x4, 1, [(0, 32, .ro)]⟩,
   ⟨0x40020030, 0x4, 1, [(31, 1, .lck), (10, 2, .lck), (8, 1, .lck), (0, 6, .lck)]⟩,
   ⟨0x40020034, 0x4, 1, [(22, 2, .ro), (16, 6, .ro), (8, 1, .ro), (0, 8, .ro)]⟩,
   ⟨0x40020040, 0x4, 1, [(16, 16, .ro), (0, 16, .ro)]⟩,
   ⟨0x40020044, 0x4, 1, [(0, 32, .ro)]⟩,
   ⟨0x40020048, 0x4, 1, [(0, 32, .ro)]⟩,
   ⟨0x40020050, 0x4, 1, [(2, 30, .rw), (0, 1, .w1s)]⟩]

/-- Access types of the FCE registers. -/
def rowsFce0 : List RegRow :=
  [⟨0x40040000, 0x10000, 2, [(19, 1, .ro), (18, 1, .ro), (17, 1, .ro), (16, 1, .ro), (8, 4, .ro), (3, 1, .ro), (1, 2, .ro), (0, 1, .ro)]⟩,
   ⟨0x40040004, 0x10000, 2, [(18, 1, .lck), (16, 2, .ro), (0, 16, .lck)]⟩,
   ⟨0x40040008, 0x10000, 2, [(16, 16, .ro), (0, 8, .ro)]⟩,
   ⟨0x4004000C, 0x4, 1, [(16, 16, .ro), (8, 8, .ro), (0, 8, .ro)]⟩,
   ⟨0x40040010, 0x4, 1, [(8, 4, .ro), (4, 4, .ro), (0, 4, .ro)]⟩,
   ⟨0x40050010, 0x4, 1, [(24, 8, .ro), (18, 2, .ro), (16, 2, .ro), (15, 1, .ro), (0, 3, .ro)]⟩,
   ⟨0x40040100, 0x4, 64, [(0, 32, .lck)]⟩,
   ⟨0x40050100, 0x4, 64, [(0, 32, .lck)]⟩,
   ⟨0x40040200, 0x10000, 2, [(0, 32, .rw)]⟩,
   ⟨0x40040300, 0x10000, 2, [(0, 32, .ro)]⟩,
   ⟨0x40040304, 0x10000, 2, [(0, 32, .ro)]⟩,
   ⟨0x40040308, 0x10000, 2, [(0, 32, .ro)]⟩,
   ⟨0x4004030C, 0x10000, 2, [(0, 32, .ro)]⟩,
   ⟨0x40040310, 0x10000, 2, [(0, 32, .ro)]⟩,
   ⟨0x40040314, 0x10000, 2, [(0, 32, .ro)]⟩,
   ⟨0x40040318, 0x10000, 2, [(0, 32, .ro)]⟩,
   ⟨0x4004031C, 0x10000, 2, [(0, 32, .ro)]⟩,
   ⟨0x40040320, 0x10000, 2, [(0, 32, .ro)]⟩,
   ⟨0x40040324, 0x4, 1, [(0, 32, .ro)]⟩,
   ⟨0x40050400, 0x8, 4, [(0, 16, .rw)]⟩]

/-- Access types of the FCE registers. -/
def rowsFce1 : List RegRow :=
  [⟨0x40050404, 0x8, 4, [(16, 16, .ro), (0, 16, .ro)]⟩,
   ⟨0x40040014, 0x4, 1, [(24, 8, .ro), (16, 8, .ro), (8, 8, .ro), (0, 2, .ro)]⟩,
   ⟨0x40040018, 0x4, 1, [(0, 32, .ro)]⟩,
   ⟨0x4004001C, 0x10000, 2, [(31, 1, .ro), (30, 1, .ro), (29, 1, .ro), (0, 16, .ro)]⟩]

/-- Access types of the XLK registers. -/
def rowsXlk : List RegRow :=
  [⟨0x40060000, 0x4, 1, [(21, 3, .ro), (18, 3, .ro), (16, 2, .ro), (14, 2, .ro), (8, 3, .ro), (2, 1, .ro), (0, 2, .ro)]⟩,
   ⟨0x40060004, 0x4, 1, [(16, 11, .ro), (0, 11, .ro)]⟩,
   ⟨0x40060008, 0x4, 1, [(16, 16, .ro), (0, 16, .ro)]⟩,
   ⟨0x4006000C, 0x4, 1, [(24, 8, .ro), (16, 8, .ro), (8, 8, .ro), (0, 8, .ro)]⟩,
   ⟨0x40060010, 0x4, 1, [(24, 8, .ro), (16, 8, .ro), (8, 8, .ro), (0, 8, .ro)]⟩,
   ⟨0x40060014, 0x4, 1, [(24, 8, .ro), (16, 8, .ro), (8, 8, .ro), (0, 8, .ro)]⟩,
   ⟨0x40060018, 0x4, 1, [(16, 16, .ro), (0, 8, .ro)]⟩,
   ⟨0x4006001C, 0x4, 1, [(16, 11, .ro), (0, 11, .ro)]⟩,
   ⟨0x40060020, 0x4, 1, [(16, 16, .ro), (0, 16, .ro)]⟩,
   ⟨0x40060024, 0x4, 1, [(16, 8, .ro), (0, 16, .ro)]⟩]

/-- Access types of the GDR registers. -/
def rowsGdr : List RegRow :=
  [⟨0x40070100, 0x4, 1, [(18, 10, .ro), (16, 2, .ro), (4, 10, .ro), (0, 2, .ro)]⟩,
   ⟨0x40070104, 0x4, 1, [(25, 1, .ro), (24, 1, .ro), (23, 1, .ro), (22, 1, .ro), (21, 1, .ro), (0, 14, .ro)]⟩,
   ⟨0x40070108, 0x4, 1, [(31, 1, .stk), (24, 4, .ro), (16, 8, .ro), (0, 16, .ro)]⟩,
   ⟨0x4007010C, 0x4, 1, [(0, 32, .ro)]⟩,
   ⟨0x40070110, 0x4, 1, [(24, 8, .ro), (16, 8, .ro), (8, 8, .ro), (0, 8, .ro)]⟩,
   ⟨0x40070114, 0x4, 2, [(0, 32, .lck)]⟩,
   ⟨0x40070120, 0x4, 6, [(0, 32, .lck)]⟩,
   ⟨0x40070000, 0x4, 1, [(15, 1, .stk), (14, 1, .stk), (9, 1, .ro), (8, 1, .ro), (1, 1, .ro), (0, 1, .ro)]⟩,
   ⟨0x40070004, 0x4, 1, [(31, 1, .ro), (30, 1, .ro), (0, 20, .ro)]⟩,
   ⟨0x40070008, 0x4, 1, [(0, 20, .ro)]⟩,
   ⟨0x4007000C, 0x4, 1, [(0, 20, .ro)]⟩,
   ⟨0x40070010, 0x4, 1, [(8, 8, .ro), (0, 6, .w1c)]⟩,
   ⟨0x40070014, 0x4, 1, [(0, 20, .ro)]⟩,
   ⟨0x40070018, 0x4, 1, [(16, 16, .ro), (0, 1, .wo)]⟩,
   ⟨0x4007001C, 0x4, 1, [(24, 8, .ro), (16, 8, .ro), (8, 8, .ro), (0, 8, .ro)]⟩,
   ⟨0x40070020, 0x4, 4, [(0, 32, .lck)]⟩]

/-- Access types of the ENC registers. -/
def rowsEnc0 : List RegRow :=
  [⟨0x40080000, 0x4, 1, [(24, 3, .ro), (16, 6, .ro), (8, 3, .stk), (0, 6, .stk)]⟩,
   ⟨0x40080004, 0x4, 1, [(8, 8, .lck), (0, 3, .lck)]⟩,
   ⟨0x40080008, 0x4, 1, [(0, 32, .ro)]⟩,
   ⟨0x40080100, 0x40, 6, [(0, 32, .lck)]⟩,
   ⟨0x40080104, 0x40, 6, [(0, 32, .lck)]⟩,
   ⟨0x40080108, 0x40, 6, [(0, 32, .lck)]⟩,
   ⟨0x4008010C, 0x40, 6, [(0, 32, .lck)]⟩,
   ⟨0x40080110, 0x40, 6, [(0, 32, .lck)]⟩,
   ⟨0x40080114, 0x40, 6, [(0, 32, .lck)]⟩,
   ⟨0x40080118, 0x40, 6, [(0, 32, .ro)]⟩,
   ⟨0x4008011C, 0x40, 6, [(0, 32, .ro)]⟩,
   ⟨0x40080128, 0x40, 6, [(0, 32, .ro)]⟩,
   ⟨0x4008012C, 0x40, 6, [(0, 32, .ro)]⟩,
   ⟨0x40080138, 0x40, 6, [(0, 32, .ro)]⟩,
   ⟨0x40080120, 0x40, 6, [(0, 32, .ro)]⟩,
   ⟨0x40080124, 0x40, 6, [(0, 32, .ro)]⟩,
   ⟨0x40080130, 0x40, 6, [(24, 8, .ro), (16, 8, .ro), (10, 3, .ro), (9, 1, .stk), (8, 1, .ro), (5, 1, .ro), (4, 1, .ro), (0, 2, .ro)]⟩,
   ⟨0x40080134, 0x40, 6, [(24, 8, .ro), (16, 8, .ro), (0, 16, .ro)]⟩,
   ⟨0x4008013C, 0x40, 6, [(0, 32, .rw)]⟩,
   ⟨0x40080400, 0x40, 3, [(0, 32, .lck)]⟩]

/-- Access types of the ENC registers. -/
def rowsEnc1 : List RegRow :=
  [⟨0x40080404, 0x40, 3, [(0, 32, .lck)]⟩,
   ⟨0x40080410, 0x40, 3, [(16, 16, .ro), (8, 8, .ro), (1, 1, .stk), (0, 1, .ro)]⟩,
   ⟨0x40080414, 0x40, 3, [(0, 32, .ro)]⟩,
   ⟨0x40080418, 0x40, 3, [(0, 32, .ro)]⟩,
   ⟨0x4008041C, 0x40, 3, [(0, 32, .ro)]⟩,
   ⟨0x40080420, 0x40, 3, [(0, 32, .ro)]⟩,
   ⟨0x40080424, 0x40, 3, [(0, 32, .ro)]⟩,
   ⟨0x40080428, 0x40, 3, [(24, 8, .ro), (16, 8, .ro), (8, 8, .ro), (0, 8, .ro)]⟩,
   ⟨0x4008042C, 0x40, 3, [(31, 1, .w1c), (28, 2, .ro), (20, 8, .ro), (0, 16, .ro)]⟩]

/-- Access types of the SIN registers. -/
def rowsSin : List RegRow :=
  [⟨0x40090000, 0x4, 1, [(24, 6, .w1c), (0, 12, .ro)]⟩,
   ⟨0x40090004, 0x4, 1, [(0, 18, .ro)]⟩,
   ⟨0x40090008, 0x4, 3, [(18, 8, .ro), (0, 18, .ro)]⟩,
   ⟨0x40090014, 0x4, 1, [(29, 1, .ro), (28, 1, .ro), (16, 12, .ro), (0, 12, .ro)]⟩,
   ⟨0x40090020, 0x4, 6, [(24, 8, .ro), (16, 8, .ro), (8, 8, .ro), (0, 2, .ro)]⟩,
   ⟨0x40090040, 0x4, 1, [(16, 16, .ro), (8, 8, .ro), (7, 1, .ro), (6, 1, .ro), (0, 6, .ro)]⟩,
   ⟨0x40090080, 0x10, 6, [(0, 32, .lck)]⟩,
   ⟨0x40090084, 0x10, 6, [(0, 32, .lck)]⟩,
   ⟨0x40090088, 0x10, 6, [(0, 32, .lck)]⟩]

/-- Access types of the TTE registers. -/
def rowsTte0 : List RegRow :=
  [⟨0x400A0000, 0x4, 1, [(20, 6, .ro), (16, 1, .stk), (14, 1, .ro), (13, 1, .ro), (12, 1, .ro), (11, 1, .ro), (10, 1, .ro), (0, 3, .ro)]⟩,
   ⟨0x400A0004, 0x4, 1, [(0, 32, .ro)]⟩,
   ⟨0x400A0008, 0x4, 1, [(20, 6, .ro), (8, 9, .ro), (0, 8, .ro)]⟩,
   ⟨0x400A0010, 0x4, 4, [(0, 32, .lck)]⟩,
   ⟨0x400A0030, 0x4, 1, [(16, 16, .ro), (8, 8, .ro), (0, 1, .ro)]⟩,
   ⟨0x400A0034, 0x4, 1, [(16, 16, .ro), (8, 8, .ro)]⟩,
   ⟨0x400A0038, 0x4, 2, [(0, 32, .ro)]⟩,
   ⟨0x400A0040, 0x4, 1, [(24, 8, .ro), (16, 8, .ro), (8, 8, .ro), (0, 8, .ro)]⟩,
   ⟨0x400A0044, 0x4, 1, [(16, 16, .ro), (8, 8, .ro), (0, 8, .ro)]⟩,
   ⟨0x400A0048, 0x4, 1, [(16, 16, .ro), (0, 16, .ro)]⟩,
   ⟨0x400A0050, 0x4, 1, [(24, 8, .ro), (16, 8, .ro), (8, 4, .ro), (0, 2, .ro)]⟩,
   ⟨0x400A0058, 0x4, 2, [(0, 32, .ro)]⟩,
   ⟨0x400A0080, 0x4, 4, [(0, 7, .rw)]⟩,
   ⟨0x400A0090, 0x4, 4, [(24, 8, .ro), (23, 1, .w1s), (21, 2, .ro), (8, 11, .rw)]⟩,
   ⟨0x400A4020, 0x20, 127, [(0, 32, .lck)]⟩,
   ⟨0x400A4024, 0x20, 127, [(0, 32, .lck)]⟩,
   ⟨0x400A4028, 0x20, 127, [(0, 32, .lck)]⟩,
   ⟨0x400A402C, 0x20, 127, [(16, 16, .ro), (8, 8, .ro), (0, 2, .ro)]⟩,
   ⟨0x400A4030, 0x20, 127, [(0, 32, .ro)]⟩,
   ⟨0x400A4034, 0x20, 127, [(16, 16, .ro), (8, 8, .ro), (0, 8, .ro)]⟩]

/-- Access types of the TTE registers. -/
def rowsTte1 : List RegRow :=
  [⟨0x400A4038, 0x20, 127, [(24, 8, .ro), (16, 8, .ro), (8, 8, .ro), (0, 8, .ro)]⟩]

/-- Access types of the NTC registers. -/
def rowsNtc : List RegRow :=
  [⟨0x400B0000, 0x4, 1, [(10, 2, .ro), (9, 1, .ro), (8, 1, .ro), (3, 1, .ro), (2, 1, .ro), (1, 1, .ro), (0, 1, .ro)]⟩,
   ⟨0x400B0004, 0x4, 1, [(0, 32, .ro)]⟩,
   ⟨0x400B0008, 0x4, 1, [(0, 32, .ro)]⟩,
   ⟨0x400B000C, 0x4, 1, [(16, 16, .ro), (0, 16, .ro)]⟩,
   ⟨0x400B0010, 0x4, 1, [(0, 32, .ro)]⟩,
   ⟨0x400B0014, 0x4, 1, [(0, 32, .ro)]⟩,
   ⟨0x400B0018, 0x4, 1, [(0, 32, .ro)]⟩,
   ⟨0x400B001C, 0x4, 1, [(0, 32, .ro)]⟩,
   ⟨0x400B0020, 0x4, 2, [(28, 4, .ro), (0, 16, .ro)]⟩,
   ⟨0x400B0028, 0x4, 1, [(24, 8, .ro), (16, 8, .ro), (8, 8, .ro), (0, 8, .ro)]⟩,
   ⟨0x400B002C, 0x4, 1, [(0, 32, .ro)]⟩,
   ⟨0x400B0030, 0x4, 1, [(16, 16, .ro), (8, 8, .ro), (0, 8, .ro)]⟩,
   ⟨0x400B0034, 0x4, 1, [(0, 32, .ro)]⟩,
   ⟨0x400B0100, 0x10, 8, [(0, 32, .lck)]⟩,
   ⟨0x400B0104, 0x10, 8, [(0, 32, .lck)]⟩,
   ⟨0x400B0108, 0x10, 8, [(16, 16, .ro), (8, 8, .ro), (0, 1, .w1c)]⟩,
   ⟨0x400B010C, 0x10, 8, [(0, 32, .ro)]⟩]

/-- Access types of the CAN registers. -/
def rowsCan : List RegRow :=
  [⟨0x400C0000, 0x4, 1, [(8, 8, .ro), (3, 1, .ro), (2, 1, .ro), (1, 1, .ro), (0, 1, .ro)]⟩,
   ⟨0x400C0004, 0x4, 2, [(16, 2, .ro), (8, 8, .ro), (0, 8, .ro)]⟩,
   ⟨0x400C000C, 0x4, 1, [(24, 8, .ro), (16, 8, .ro), (8, 8, .ro), (0, 8, .ro)]⟩,
   ⟨0x400C0010, 0x4, 1, [(16, 8, .ro), (8, 8, .ro), (0, 8, .ro)]⟩,
   ⟨0x400C0024, 0x4, 1, [(24, 8, .ro), (0, 18, .ro)]⟩,
   ⟨0x400C0028, 0x4, 1, [(16, 16, .ro), (11, 1, .ro), (0, 11, .ro)]⟩,
   ⟨0x400C002C, 0x4, 1, [(16, 16, .ro), (1, 4, .ro), (0, 1, .wo)]⟩,
   ⟨0x400C0040, 0x4, 1, [(31, 1, .w1s), (30, 1, .ro), (28, 2, .ro), (27, 1, .rw), (24, 3, .rw), (16, 8, .rw), (0, 11, .rw)]⟩,
   ⟨0x400C0044, 0x4, 1, [(0, 18, .rw)]⟩]

/-- Access types of the FCC registers. -/
def rowsFcc : List RegRow :=
  [⟨0x40010000, 0x4, 2, [(0, 32, .w1c)]⟩,
   ⟨0x40010008, 0x4, 2, [(0, 32, .ro)]⟩,
   ⟨0x40010010, 0x4, 2, [(0, 32, .ro)]⟩,
   ⟨0x40010018, 0x4, 2, [(0, 32, .ro)]⟩,
   ⟨0x40010020, 0x4, 2, [(0, 32, .rw)]⟩,
   ⟨0x40010028, 0x4, 1, [(31, 1, .ro), (30, 1, .ro), (16, 5, .ro), (0, 6, .ro)]⟩,
   ⟨0x4001002C, 0x4, 1, [(0, 32, .ro)]⟩,
   ⟨0x40010030, 0x4, 1, [(16, 16, .ro), (2, 7, .lck), (1, 1, .ro), (0, 1, .rw)]⟩,
   ⟨0x40010034, 0x4, 1, [(0, 32, .lck)]⟩,
   ⟨0x40010038, 0x4, 1, [(31, 1, .lck), (16, 1, .lck), (8, 8, .lck), (0, 6, .lck)]⟩,
   ⟨0x4001003C, 0x4, 1, [(26, 1, .ro), (25, 1, .ro), (24, 1, .ro), (0, 16, .ro)]⟩,
   ⟨0x40010100, 0x4, 64, [(16, 16, .ro), (0, 16, .ro)]⟩,
   ⟨0x40010200, 0x4, 64, [(0, 32, .lck)]⟩,
   ⟨0x40010300, 0x4, 64, [(0, 32, .lck)]⟩]

/-- Access types of the MBX registers. -/
def rowsMbx : List RegRow :=
  [⟨0x70000000, 0x4, 8, [(0, 32, .wo)]⟩,
   ⟨0x70000020, 0x4, 1, [(16, 16, .ro), (8, 8, .ro), (0, 7, .ro)]⟩,
   ⟨0x70000040, 0x4, 1, [(7, 1, .ro), (6, 1, .ro), (5, 1, .ro), (4, 1, .ro), (3, 1, .ro), (2, 1, .ro), (0, 2, .ro)]⟩,
   ⟨0x70000044, 0x4, 1, [(0, 32, .ro)]⟩,
   ⟨0x70000048, 0x4, 1, [(0, 32, .ro)]⟩,
   ⟨0x7000004C, 0x4, 1, [(0, 32, .ro)]⟩,
   ⟨0x70000050, 0x4, 1, [(0, 32, .ro)]⟩,
   ⟨0x70000054, 0x4, 1, [(0, 32, .ro)]⟩,
   ⟨0x70000058, 0x4, 1, [(0, 32, .ro)]⟩,
   ⟨0x7000005C, 0x4, 1, [(0, 32, .ro)]⟩,
   ⟨0x70000100, 0x4, 1, [(0, 32, .wo)]⟩,
   ⟨0x70000104, 0x4, 1, [(8, 2, .wo), (0, 5, .wo)]⟩,
   ⟨0x70000108, 0x4, 1, [(24, 8, .ro), (19, 5, .ro), (17, 2, .ro), (16, 1, .ro), (15, 1, .ro)]⟩,
   ⟨0x70000400, 0x4, 256, [(0, 32, .ro)]⟩]

/-- Access types of the MSS registers. -/
def rowsMss : List RegRow :=
  [⟨0x48000000, 0x4, 1, [(24, 8, .ro), (16, 3, .ro), (8, 3, .ro), (0, 2, .rw)]⟩,
   ⟨0x48000004, 0x4, 1, [(0, 1, .wo)]⟩,
   ⟨0x48000008, 0x4, 1, [(0, 32, .ro)]⟩,
   ⟨0x4800000C, 0x4, 1, [(0, 32, .ro)]⟩,
   ⟨0x48000010, 0x4, 1, [(0, 32, .ro)]⟩,
   ⟨0x48000014, 0x4, 1, [(0, 32, .ro)]⟩,
   ⟨0x48000018, 0x4, 1, [(0, 32, .ro)]⟩,
   ⟨0x4800001C, 0x4, 1, [(0, 32, .wo)]⟩,
   ⟨0x48000100, 0x4, 25, [(0, 16, .ro)]⟩]

/-- Access types of the LOG registers. -/
def rowsLog : List RegRow :=
  [⟨0x48010000, 0x4, 1, [(4, 1, .ro), (3, 1, .ro), (2, 1, .ro), (1, 1, .ro), (0, 1, .ro)]⟩,
   ⟨0x48010004, 0x4, 1, [(0, 32, .ro)]⟩,
   ⟨0x48010010, 0x4, 8, [(0, 32, .rw)]⟩,
   ⟨0x48010030, 0x4, 1, [(0, 1, .wo)]⟩,
   ⟨0x48010034, 0x4, 1, [(16, 16, .rw), (0, 8, .rw)]⟩,
   ⟨0x48010038, 0x4, 1, [(0, 32, .rw)]⟩,
   ⟨0x4801003C, 0x4, 1, [(0, 32, .rw)]⟩,
   ⟨0x48011000, 0x4, 1024, [(0, 32, .ro)]⟩]

/-- Access types of the KEY registers. -/
def rowsKey : List RegRow :=
  [⟨0x48020000, 0x4, 1, [(31, 1, .ro), (26, 2, .ro), (16, 7, .ro), (12, 4, .ro), (8, 4, .ro), (4, 4, .ro), (3, 1, .ro), (0, 3, .ro)]⟩,
   ⟨0x48020004, 0x4, 1, [(0, 32, .ro)]⟩,
   ⟨0x48020008, 0x4, 1, [(0, 32, .ro)]⟩,
   ⟨0x48020010, 0x4, 4, [(0, 32, .ro)]⟩,
   ⟨0x48020040, 0x4, 8, [(0, 32, .wo)]⟩,
   ⟨0x48020020, 0x4, 1, [(0, 4, .wo)]⟩,
   ⟨0x48020024, 0x4, 1, [(31, 1, .ro), (24, 5, .ro), (0, 13, .ro)]⟩,
   ⟨0x48020028, 0x4, 1, [(0, 14, .rw)]⟩]

/-- Access types of the UPD registers. -/
def rowsUpd : List RegRow :=
  [⟨0x48030000, 0x4, 1, [(7, 1, .ro), (4, 2, .ro), (0, 3, .ro)]⟩,
   ⟨0x48030004, 0x4, 1, [(0, 32, .rw)]⟩,
   ⟨0x48030008, 0x4, 1, [(0, 32, .ro)]⟩,
   ⟨0x48030010, 0x4, 1, [(0, 32, .rw)]⟩,
   ⟨0x4803000C, 0x4, 1, [(3, 13, .wo), (0, 3, .wo)]⟩,
   ⟨0x48030014, 0x4, 1, [(31, 1, .ro), (0, 5, .ro)]⟩,
   ⟨0x48030018, 0x4, 1, [(0, 32, .ro)]⟩,
   ⟨0x4803001C, 0x4, 1, [(0, 32, .ro)]⟩,
   ⟨0x48030020, 0x4, 8, [(0, 32, .ro)]⟩]

/-- Access types of the PWR registers. -/
def rowsPwr : List RegRow :=
  [⟨0x400D0000, 0x4, 1, [(16, 4, .ro), (12, 4, .ro), (10, 1, .ro), (9, 1, .ro), (8, 1, .ro), (0, 3, .ro)]⟩,
   ⟨0x400D0004, 0x4, 1, [(8, 1, .w1c), (0, 2, .wo)]⟩,
   ⟨0x400D0008, 0x4, 1, [(16, 16, .ro), (0, 4, .ro)]⟩,
   ⟨0x400D000C, 0x4, 1, [(16, 16, .ro), (0, 16, .ro)]⟩,
   ⟨0x400D0020, 0x4, 4, [(0, 32, .lck)]⟩,
   ⟨0x400D0100, 0x8, 16, [(0, 32, .lck)]⟩,
   ⟨0x400D0104, 0x8, 16, [(0, 32, .lck)]⟩]

/-- The registers of a channel's block windows. -/
def channelRows : List RegRow :=
  rowsFol ++ rowsStw ++ rowsHrd ++ rowsCmp ++ rowsFce0 ++ rowsFce1 ++ rowsXlk ++ rowsGdr ++ rowsEnc0 ++ rowsEnc1 ++ rowsSin ++ rowsTte0 ++ rowsTte1 ++ rowsNtc ++ rowsCan ++ rowsFcc ++ rowsPwr

/-- The registers of the mailbox that are not key or update registers (R459 of 16_management_and_log.md). -/
def mailboxRows : List RegRow := rowsMbx

/-- The MP's own registers (R460 of 16_management_and_log.md). -/
def mpRows : List RegRow := rowsMss ++ rowsLog

/-- The key and update registers (R487, R488 of 17_security_and_update.md), in the MP's map. -/
def keyRows : List RegRow := rowsKey ++ rowsUpd

/-- The row of an address, if a register lies there. -/
def findRow : List RegRow → Nat → Option RegRow
  | [], _ => none
  | r :: rs, a =>
    if r.base ≤ a ∧ (a - r.base) % r.stride = 0 ∧ (a - r.base) / r.stride < r.count then some r else findRow rs a

end Sys2Proof.Machine
end

