-- ==== Sys2Proof/Machine/Parts.lean ====
section
/-! DEFINITION. The parts of a channel's and of the management subsystem's state that no register of the register map
holds: one structure per chapter. A register of the spec lives in a register map (Map.lean, Regs.lean) under its
address; what stands here is what the rules name beside the registers. The default of every field is its value after
channel reset (after power-on for the MSS); where the spec gives none, log entry 3 (DESIGN CHOICE, unsafe). What a sender
keeps of what it has sent over a link, ring or bus is log entry 10 (DESIGN CHOICE). -/

namespace Sys2Proof.Machine

/-- A log message of a channel's queue (R437, R440 of 16_management_and_log.md). `data` is DATA as a little-endian
number; `origin` 0 is the MSS. -/
structure LogMsg where
  origin : Nat
  mode : Nat
  epoch : Nat
  nt : Nat
  src : Nat
  code : Nat
  data : BitVec 208
  deriving DecidableEq, Repr

/-- A log record (R439 of 16_management_and_log.md), field by field. -/
structure LogRecord where
  seq : Nat
  optime : Nat
  pcyc : Nat
  origin : Nat
  src : Nat
  code : Nat
  epoch : Nat
  ntime : Nat
  caltime : Nat
  calepoch : Nat
  data : BitVec 208
  crc : Nat
  deriving DecidableEq, Repr

/-- An unwritten slot of a log bank. -/
def LogRecord.blank : LogRecord := ⟨0, 0, 0, 0, 0, 0, 0, 0, 0, 0, 0, 0⟩

/-- The fault collector beside its registers (15_fault_collection.md). -/
structure Fcc where
  /-- Open counting runs: source to events so far (R417); 0 = no run open. -/
  runs : KMap Nat := []
  /-- Events of a source since its previous message (R410). -/
  since : KMap Nat := []
  /-- The FAULTMAP quire has been applied (R540). -/
  loaded : Bool := false
  /-- Announced tagged source and whether its block reset is applied (R423); `fccInj` tells an FCC_INJ injection from
  the announcements of CMP_INJ and R284. -/
  tag : Option (Nat × Bool) := none
  fccInj : Bool := false
  /-- The forced output has been released, the sample of R424 is due. -/
  released : Bool := false
  /-- TB at the latest STW_KICK of each engine or its release, by engine number (R416). -/
  kicks : KMap Nat := []
  /-- Engines whose firmware has been released: bit 1 FCE0, 2 FCE1, 3 NETE (R416). -/
  engines : BitVec 4 := 0
  /-- A pulse runs on ERR_x (R421). -/
  pulse : Bool := false
  /-- NMIs taken by the pair since channel reset (R413). -/
  nmis : Nat := 0
  /-- The channel stays out of the herd with its bridges off (R415). -/
  stayOut : Bool := false
  /-- A channel-removing severe source asks for the reset of R407 at the boundary. -/
  leave : Bool := false
  /-- A source became severe since the latest round start (R498). -/
  newSev : Bool := false
  deriving DecidableEq, Repr

/-- The measurement of one port's link delay (R370 to R372 of 13_network_time.md). -/
structure LinkDelay where
  /-- Kept measurements in 1/16 ns, newest last, at most 8; consecutive discarded ones. -/
  kept : List Int := []
  disc : Nat := 0
  /-- REQSEQ of the latest request, and of the one awaited with its t1 in 2^-16 ns. -/
  seq : Nat := 0
  wait : Option (Nat × Int) := none
  deriving DecidableEq, Repr

/-- A cycle frame as network time uses it (R375, R378): CYCLE, LEAD, TXTIME in ns, CORR in 2^-16 ns, t_rx in 2^-16 ns. -/
structure SyncFrame where
  cycle : Nat
  lead : Nat
  txtime : Nat
  corr : Int
  trx : Int
  deriving DecidableEq, Repr

/-- The network-time clock beside its registers (13_network_time.md). -/
structure Ntc where
  /-- The counter of R365: NT with its 24-bit fraction, in 2^-24 ns. -/
  nt : Nat := 0
  /-- The integral j of R376 in 2^-16 ns; consecutive clamped frames. -/
  j : Int := 0
  clampRun : Nat := 0
  /-- The first of the two frames of a join (R378). -/
  first : Option SyncFrame := none
  /-- HOPS of the copy used in this cycle, and j, the run and the registers INC and RATE before it, so that a better copy
  takes its place (R375); the node joined on a frame of this cycle. -/
  used : Option Nat := none
  jPrev : Int := 0
  runPrev : Nat := 0
  incPrev : Nat := 0
  justJoined : Bool := false
  ld0 : LinkDelay := {}
  ld1 : LinkDelay := {}
  /-- Sync offset e in 2^-16 ns (R375); `none` when no frame has been used since the node joined or left. -/
  e : Option Int := none
  /-- CYCLE of the latest firing of each mark, plus 1 (R379, R386). -/
  fired : KMap Nat := []
  deriving DecidableEq, Repr

/-- The Tether node beside its registers (12_tether_network.md). -/
structure Tte where
  /-- Frames sent by the latest command that sent any, each with its port; `trx` is the SFD time at the sender. -/
  out : List (Nat × Frame) := []
  /-- Buffers by stream id (R348, R349): the octets of the current or SEND buffer up to its LEN, that buffer whole, the
idle or FILL buffer, LEN of FILL, GEN, COMMIT. -/
  cur : KMap (List Byte) := []
  whole : KMap Memory := []
  fill : KMap Memory := []
  fillLen : KMap Nat := []
  gen : KMap Nat := []
  commit : KMap Bool := []
  /-- Octets of the frame buffer that belong to no context, by offset (R15, R350). -/
  spare : Memory := []
  /-- Contexts that accepted a frame in this cycle (R348). -/
  got : KMap Bool := []
  /-- Start of the current cycle in 2^-16 ns of NT and its number (R384); a cycle frame has been accepted or sent in it. -/
  grid : Int := 0
  cyc : Nat := 0
  framed : Bool := false
  /-- Consecutive cycle starts without a valid cycle frame (R361, R362). -/
  missing : Nat := 0
  /-- A frame of the own returned in this cycle, one was sent in it; cycles in a row that sent some and saw none return (R355). -/
  returned : Bool := false
  sent : Bool := false
  lonely : Nat := 0
  /-- BRK seen or a port down in this cycle at the lead, clean cycles in a row, FOLD as the lead sends it; FOLD and ENUM
  of the latest cycle frame (R355, R358). -/
  brkSeen : Bool := false
  clean : Nat := 0
  leadFold : Bool := false
  fold : Bool := false
  enumFlag : Bool := false
  /-- Window rejections in a row and passes in a row, by source address (R353). -/
  rej : KMap Nat := []
  pass : KMap Nat := []
  /-- Grants in force by claim slot (R356): 128 × address + stream, 0 free; cycles in a row that a grant was silent,
  whether its frame came in this cycle; the claim accepted in a slot in this cycle: source, device, REQ, STREAM. -/
  grants : KMap Nat := []
  silent : KMap Nat := []
  heard : KMap Bool := []
  /-- Claim slots whose grant is new in this cycle's frame: it is used from the cycle after (R356). -/
  fresh : List Nat := []
  claims : KMap (Option (Nat × Nat × Nat × Nat)) := []
  /-- Addresses given (R357): device ID and address; the latest grant; address requests that wait. -/
  table : List (Nat × Nat) := []
  granted : Nat × Nat := (0, 0)
  asks : List Nat := []
  /-- Stream of the own claim, 0 for an address (R356). -/
  claimFor : Nat := 0
  /-- Enumeration by the lead (R358): the pass in progress (0 none, 1 first, 2 second of a line), the COUNT it started from
  and the cycles since it was sent; the report that an end node owes. -/
  enumPass : Nat := 0
  enumCount : Nat := 0
  enumAge : Nat := 0
  owed : Option Nat := none
  deriving DecidableEq, Repr

/-- An entry of the CAN receive queue (R404 of 14_isobus.md). -/
structure RxEntry where
  pgn : Nat
  sa : Nat
  seq : Nat
  data : List Byte
  deriving DecidableEq, Repr

/-- A transport session in reception (R400). -/
structure RxSession where
  sa : Nat
  da : Nat
  pgn : Nat
  size : Nat
  packets : Nat
  bam : Bool
  /-- Next sequence number and the bytes so far; packets that one CTS may ask for, and the last packet asked for. -/
  next : Nat := 1
  data : List Byte := []
  limit : Nat := 255
  upTo : Nat := 0
  deriving DecidableEq, Repr

/-- A transport session in transmission (R402). -/
structure TxSession where
  da : Nat
  pgn : Nat
  data : List Byte
  /-- Next packet. -/
  next : Nat := 1
  deriving DecidableEq, Repr

/-- The ISOBUS attachment beside its registers (14_isobus.md). Functions are numbered 0 steering, 1 brake. -/
structure Can where
  rxq : List RxEntry := []
  rx : List RxSession := []
  tx0 : Option TxSession := none
  tx1 : Option TxSession := none
  /-- Data of the transmit window. -/
  txBuf : Memory := []
  /-- Frames that wait for transmission, and frames transmitted in the latest command. -/
  queue : List CanFrame := []
  out : List CanFrame := []
  /-- Answers owed to requests received while no channel could answer (R395). -/
  owed : List CanFrame := []
  /-- The voice transmits: 1.0 ms after its switch (R395); functions held off for 250 ms after a claim (R394). -/
  on : Bool := false
  /-- The controller has completed bus integration (R425). -/
  up : Bool := false
  /-- Frames of the functions' latest GO that wait for transmission (R404). -/
  pend0 : Option CanFrame := none
  pend1 : Option CanFrame := none
  hold0 : Bool := false
  hold1 : Bool := false
  /-- NAMEs heard on the bus by address. -/
  names : KMap Nat := []
  /-- Transmit sessions of the voice as every channel hears them (R402): function, destination, PGN. -/
  theirs : List (Nat × Nat × Nat) := []
  deriving DecidableEq, Repr

/-- One half-bridge leg (R266, R267). -/
structure Leg where
  /-- The commands of its high-side and low-side switch in the latest PCLK cycle. -/
  hi : Bool := false
  lo : Bool := false
  /-- PCLK cycles for which each switch has been commanded off without a break, to 511 (R266). -/
  offHi : Nat := 0
  offLo : Nat := 0
  /-- PCLK cycles since the on edge of each gate output, to 4,095; 0 with the output off (R269). -/
  onHi : Nat := 0
  onLo : Nat := 0
  deriving DecidableEq, Repr

/-- The three legs of a bridge. -/
structure Legs where
  u : Leg := {}
  v : Leg := {}
  w : Leg := {}
  deriving DecidableEq, Repr

/-- The power die beside its registers (08_motor_fault_states.md, 09_gate_drive.md). -/
structure Pow where
  /-- Latest speed words of the two bridges, electrical rad/s in Q16.16 (R232). -/
  omegaS : Nat := 0
  omegaP : Nat := 0
  /-- The safe-state selectors' choice: short (true) or open (R232). -/
  shortS : Bool := false
  shortP : Bool := false
  /-- The rectification guard has shorted the bridge (R234). -/
  guardS : Bool := false
  guardP : Bool := false
  /-- Consecutive periods with rectified link current (R234). -/
  guardRun : Nat := 0
  /-- Bridge P is in the short phase of its stop (R248). -/
  stopShort : Bool := false
  /-- Why cause bit 5 holds (R236): VSUP_x undervoltage, die-to-die loss, the fail-silent line. -/
  uvCause : Bool := false
  d2dCause : Bool := false
  fsCause : Bool := false
  /-- Level of the GDEN_x pin, and the pulse on GDENO_x (R279, R280). -/
  gden : Bool := true
  gdeno : Bool := false
  /-- The chopper check in progress: V0 in mV and the slope before turn-on in µV/µs (R253). -/
  chk : Option (Nat × Int) := none
  /-- The two latest valley samples of VLINK_x, in LSB with their TB counts, the later one first (R253). -/
  vlcs : List (Nat × Nat) := []
  /-- The legs of both bridges, and the duties in force since the latest carrier peak (R181, R266). -/
  legsS : Legs := {}
  legsP : Legs := {}
  dutyS : Nat × Nat × Nat := (0, 0, 0)
  dutyP : Nat × Nat × Nat := (0, 0, 0)
  /-- PCLK cycles since the chopper's on edge, to 4,095; 0 with its gate off (R269). -/
  chopRun : Nat := 0
  /-- Latches and locks that hold their gates off since the latest block reset, bit map of R285 (R272, R282). -/
  held : Nat := 0
  /-- A gate-drive block reset met OV1 or OV2, per bridge (R260). -/
  ovHeldS : Bool := false
  ovHeldP : Bool := false
  /-- GDENO_x has ended its pulse with GDEN_x low (R271). -/
  lowAfter : Bool := false
  /-- Gates of detectors that failed the self-test stay off (R284), bit map of R285. -/
  stLock : BitVec 20 := 0
  /-- The FCE1 solenoid drivers are off until their next tick (R274, R258). -/
  solOff : Bool := true
  deriving DecidableEq, Repr

/-- The power-state controller beside its registers (18_bring_up_and_power.md). -/
structure Pwr where
  /-- VSUP_x is at or above 6.0 V (R430, R431, R489), from the latest rise to the next undervoltage. -/
  up : Bool := true
  /-- The part is in power-on reset or unpowered (R489): its digital die has no state. -/
  off : Bool := false
  /-- P1 request written since the latest round start (R496): 1 enter, 2 leave. -/
  p1Req : Nat := 0
  /-- AWAKET has passed since the latest wake (R499). -/
  awake : Bool := true
  /-- Step 7 of R490 is complete. -/
  done7 : Bool := false
  /-- Time since VSUP_x rose through 6.0 V, in counts of 5 ns (R491, PWR_BOOT.TDONE). -/
  boot : Nat := 0
  deriving DecidableEq, Repr

/-- One winding set as one FCE0 computes it (R208, R212 of 07_duty_vote.md). -/
structure SetLoop where
  /-- The six state fields that the echo carries (R212, R224). -/
  oth : Nat := 0
  oom : Int := 0
  intd : Int := 0
  intq : Int := 0
  intfw : Int := 0
  idfw : Int := 0
  /-- The state is agreed: started by R209 or taken from an echo. -/
  agreed : Bool := false
  /-- The set enters service: its observer starts at its position source (R209). -/
  fresh : Bool := false
  /-- The sample packet of the period, held and not yet computed; whether one came before SDL; the latest one. -/
  pkt : Option (BitVec 176) := none
  got : Bool := false
  last : BitVec 176 := 0
  /-- `last` is of the latest period: one that is absent at SDL leaves nothing to choose or compensate by (R194, R246). -/
  here : Bool := false
  /-- PSEQ of the period whose echo is due, none before the first SDL (R225). -/
  due : Option Nat := none
  /-- The own triplet of the period, and whether the echo of the period came or none was due (R225). -/
  trip : Option (BitVec 256) := none
  echoed : Bool := true
  /-- Voltage applied by the latest echo, αβ, and the currents of the period before (R199, R224). -/
  va : Int := 0
  vb : Int := 0
  ia : Int := 0
  ib : Int := 0
  /-- Observer confidence in Q16.16 and its run below OBSCONF (R199). -/
  conf : Nat := 0
  low : Nat := 0
  /-- Awaiting re-acquisition (R240), and the consistent-estimate count had reached 8 (R245); it has resumed by R243 and is
  still shorted (R260). -/
  await : Bool := false
  had8 : Bool := false
  resumed : Bool := false
  deriving DecidableEq, Repr

/-- FCE0 and its coprocessor beside the registers (06_field_control.md, 07_duty_vote.md). -/
structure Fce0 where
  setA : SetLoop := {}
  setB : SetLoop := {}
  setC : SetLoop := {}
  /-- The own encoder's alignment (R195, R196), its faults (R197, R198), the run of R198, the check of R197 still due. -/
  cref : Int := 0
  aoff : Nat := 0
  encBad : Bool := false
  posRun : Nat := 0
  /-- Consecutive periods beyond POSTOL from the only valid peer (R198). -/
  posRun1 : Nat := 0
  /-- What the sample packet shows of t0, latched at the valley (R210): EV, AL, BST, THETA, OMEGA. -/
  ev0 : Bool := false
  al0 : Bool := false
  bst0 : Nat := 0
  th0 : Nat := 0
  om0 : Int := 0
  idxDue : Bool := false
  /-- The own unit's count latched at t0 (R195, R297), and TB at t0. -/
  latch : Int := 0
  t0 : Nat := 0
  /-- The samples of the period, until their conversions complete (R185). -/
  pend : Option SValley := none
  /-- Phase offsets of bridge S (R187). -/
  offU : Nat := 8192
  offV : Nat := 8192
  /-- iq reference taken at t0 (R210). -/
  iqref : Int := 0
  /-- The own sample packet, as sent (R210). -/
  pktOut : BitVec 176 := 0
  /-- Duties in force in the two halves of the interval and the currents at its start (R188). -/
  dNow : Nat × Nat × Nat := (0, 0, 0)
  dPrev : Nat × Nat × Nat := (0, 0, 0)
  iuPrev : Int := 0
  ivPrev : Int := 0
  /-- A bridge was off or shorted at the latest valley (R188). -/
  deadPrev : Bool := true
  /-- The herd has left BRING-UP and the step of TB waits for the valley (R184). -/
  fawnStep : Bool := false
  /-- TB of the carrier reference minus the own TB, at the latest marker (R183). -/
  align : Int := 0
  lateMarks : Nat := 0
  /-- Rotor lock is applied (R196). -/
  rotorLock : Bool := false
  /-- Probe bit for the next speed word (R241). -/
  probe : Bool := false
  /-- Sets whose bridge S is unused, from the CH_ROLE records of the Folio (R176, R207). -/
  noSet : BitVec 3 := 0
  deriving DecidableEq, Repr

/-- One solenoid loop of FCE1 (R204, R205). -/
structure SolLoop where
  int : Int := 0
  duty : Int := 0
  tick : Nat := 0
  plus : Bool := true
  sum : Nat := 0
  count : Nat := 0
  badR : Nat := 0
  lowI : Nat := 0
  lost : Bool := false
  deriving DecidableEq, Repr

/-- FCE1 and its coprocessor beside the registers. -/
structure Fce1 where
  oth : Nat := 0
  oom : Int := 0
  intd : Int := 0
  intq : Int := 0
  intfw : Int := 0
  idfw : Int := 0
  va : Int := 0
  vb : Int := 0
  ia : Int := 0
  ib : Int := 0
  conf : Nat := 0
  confRun : Nat := 0
  /-- Duties of bridge P issued for the next peak (R181). -/
  du : Nat := 0
  dv : Nat := 0
  dw : Nat := 0
  issued : Bool := false
  offU : Nat := 8192
  offV : Nat := 8192
  /-- The start sequencer (R201, R202): direction of the setpoint, start angle, periods of the ramp, whether the attempt
  is to be taken again without counting (R250). -/
  fwd : Bool := true
  theta0 : Nat := 0
  rampN : Nat := 0
  /-- PCLK cycles since sector detection began (R201). -/
  sector : Nat := 0
  again : Bool := false
  /-- A reversal waits for the stop (R249); the stop ends on the estimator (R249); PUMP_STOP has been raised (R248). -/
  reverse : Bool := false
  resume : Bool := false
  stopLate : Bool := false
  /-- The estimator of R242 run on the pump (R248): dwell, previous angle, consistent count, speed. -/
  dwell : Nat := 0
  phi : Nat := 0
  cons : Nat := 0
  /-- Periods left of the turn onto the observer's q-axis and the angle it began at (R201). -/
  turn : Nat := 0
  turnOff : Int := 0
  /-- Integral of the speed loop and its iq reference (R200, R255). -/
  iqref : Int := 0
  spd : Int := 0
  /-- The latest complete bridge P term of R188, in 0.1 A × 2^31, and what it is built from. -/
  pterm : Int := 0
  dPrev : Nat × Nat × Nat := (0, 0, 0)
  iuPrev : Int := 0
  ivPrev : Int := 0
  sol0 : SolLoop := {}
  sol1 : SolLoop := {}
  sol2 : SolLoop := {}
  sol3 : SolLoop := {}
  deriving DecidableEq, Repr

/-- An encoder unit beside its registers (10_position_feedback.md). -/
structure EncUnit where
  /-- Synchronised levels of the inputs, which a unit that is off and a reset follow too (R300), and the stored, settled
  levels (R286): bit 0 A, 1 B, 2 Z. -/
  lvl : BitVec 3 := 0
  stored : BitVec 3 := 0
  /-- The hysteretic position P (R293) and the observer's p̂, ŝ, a (R294), with 16 fraction bits. -/
  pos : Int := 0
  phat : Int := 0
  shat : Int := 0
  acc : Int := 0
  /-- Open counting runs of QERR settlements and of edge faults (R290); 0 = no run open. -/
  qrun : Nat := 0
  erun : Nat := 0
  /-- Consecutive failed index checks (R292). -/
  idxRun : Nat := 0
  /-- Level of the compare output (R298). -/
  cmpOut : Bool := false
  deriving DecidableEq, Repr

/-- A SENT receiver beside its registers. -/
structure SentRx where
  /-- The previous calibration pulse in FCE_x cycles (R302). -/
  prev : Option Nat := none
  /-- The open counting run of errors (R304). -/
  err : Nat := 0
  /-- Bits 3 and 2 of the latest status nibbles, newest last (R301). -/
  slow : List (Bool × Bool) := []
  /-- Counts of 5 ns since the latest valid frame. -/
  since : Option Nat := none
  deriving DecidableEq, Repr

/-- The position-feedback block beside its registers. -/
structure Enc where
  u0 : EncUnit := {}
  u1 : EncUnit := {}
  u2 : EncUnit := {}
  u3 : EncUnit := {}
  u4 : EncUnit := {}
  u5 : EncUnit := {}
  s0 : SentRx := {}
  s1 : SentRx := {}
  s2 : SentRx := {}
  /-- PINS has been applied: the pass-through outputs are driven (R68, R300). -/
  pins : Bool := false
  /-- Levels of PTO0 and PTO1: bit 0 A, 1 B, 2 Z. -/
  pto0 : BitVec 3 := 0
  pto1 : BitVec 3 := 0
  deriving DecidableEq, Repr

/-- The duty voter of CP-x and the cross-link's class 0 traffic beside the registers (07_duty_vote.md). -/
structure Xlk where
  /-- Triplets present for the period, by origin (R220). -/
  trA : Option (BitVec 256) := none
  trB : Option (BitVec 256) := none
  trC : Option (BitVec 256) := none
  /-- The most recent result used, bits 255:16 of the layout of R212 (R222). -/
  held : Option (BitVec 240) := none
  /-- The latest result was used and waits for the peak (R181). -/
  used : Bool := false
  /-- Member mask in force and the one delivered ahead with its TB count (R223). -/
  mask : BitVec 3 := 0
  next : Option (BitVec 3 × Nat) := none
  /-- TB of the latest marker sent (R183). -/
  markOut : Option (BitVec 48) := none
  /-- The latest echo formed and the triplets sent to the peers' sets, as the links carry them (R213, R214). -/
  echoOut : BitVec 256 := 0
  tripOutA : BitVec 256 := 0
  tripOutB : BitVec 256 := 0
  tripOutC : BitVec 256 := 0
  /-- The peer-window read in progress (R37): peer and address; replies served to requesters and not yet taken, by
  channel index, `some none` for a bus error at the server. -/
  rdReq : Option (Chan × Nat) := none
  rdRep : KMap (Option (Option Word)) := []
  deriving DecidableEq, Repr

/-- The safety-input block beside its registers (11_steering_brake_safety_inputs.md). Contact n is bit n of SIN_LEVEL. -/
structure Sin where
  /-- Contacts whose filtered level is valid: one was held for FILT since the load (R329). -/
  valid : Nat := 0
  /-- Level that a contact tends to and the consecutive samples that showed it (R322). -/
  cand : Nat := 0
  run : KMap Nat := []
  /-- Levels of the last sample before the latest pulse of TPA_x and TPB_x, and samples still excluded (R324). -/
  beforeA : Nat := 0
  beforeB : Nat := 0
  exclA : Nat := 0
  exclB : Nat := 0
  /-- Pairs in FAULT whose test has failed in the time that would re-arm them (R323). -/
  failed : Nat := 0
  /-- Rounds for which an IDLE or ACTIVE pair has differed from its vote; pairs now outvoted (R326). -/
  differ : KMap Nat := []
  outv : Nat := 0
  /-- Own states as sent in this round's SB1, and the states held of the round by SB1 and by SB2, per channel index
  (R325). -/
  sb1Out : BitVec 64 := 0
  sb2Out : List (BitVec 64) := []
  direct : KMap (Option Nat) := []
  relayed : KMap (Option Nat) := []
  deriving DecidableEq, Repr

/-- One record of a Folio as the parser finds it (R46 of 02_folio.md): TYPE, index within its quire, byte offset, body. -/
structure FolRec where
  type : Nat
  index : Nat
  offset : Nat
  body : List Word
  deriving DecidableEq, Repr

/-- One-time-programmable items of a die (R462 of 17_security_and_update.md): bits change only from 0 to 1. Root slots
by number: key hash, FUSED, REVOKED; the life-cycle state that the fuses spell (R467); the security epoch (R470). -/
structure Otp where
  hash : KMap (BitVec 256) := []
  fused : BitVec 4 := 0
  revoked : BitVec 4 := 0
  lc : Nat := 1
  epoch : Nat := 0
  deriving DecidableEq, Repr

/-- The Folio loader beside its registers (02_folio.md). Sources are numbered 1 slot A, 2 slot B, 3 peer. -/
structure Fol where
  /-- Records of the accepted Folio, in Folio order, and its shared digest (R142 of 04_herd_placement.md). -/
  recs : List FolRec := []
  digest : BitVec 256 := 0
  /-- The load has been started by the one honoured write of FOL_CTRL (R71); its SRC and PEER. -/
  started : Bool := false
  src : Nat := 0
  peer : Nat := 0
  /-- The source being read (0 none) and those still to be tried after it (R61). -/
  cur : Nat := 0
  todo : List Nat := []
  /-- A request to the MSS waits for its answer (R61, R492). -/
  asked : Bool := false
  /-- The channel is at the peer step (R61) and a request to the peers is out (R493); the serving channel's BODY_HASH
  (R62). -/
  waitPeer : Bool := false
  peerAsked : Bool := false
  peerHash : Option (BitVec 256) := none
  /-- What the MSS or the serving peer announced with the source: root public keys by slot (R463), ROLLBACK (R470). -/
  keys : KMap (List Byte) := []
  rollback : Nat := 0
  /-- Parts read of the source in progress (R539), the accepted Folio's among them until the next channel reset. -/
  spine : List Byte := []
  colophon : List Byte := []
  body : List Byte := []
  /-- The accepted Folio waits to be applied (R67). -/
  accepted : Bool := false
  /-- The slot that the MSS named as ACTIVE when it answered: 1 A, 2 B, 0 none heard (R61, R63). -/
  active : Nat := 0
  /-- The peer that serves the load in progress (R61, R62), 0 none. -/
  servedBy : Nat := 0
  /-- Size of the retained copy in bytes, 0 when none is held (R66). -/
  retained : Nat := 0
  deriving DecidableEq, Repr

/-- A placed task or home (R129, R133 of 04_herd_placement.md): hosts now, from B1, from B2 (bit 0 A, 1 B, 2 C), the
status decided, the round of B1 (0 when no switch is pending), whether a copy is due at B2, and the effective budget. -/
structure Placed where
  hosts : Nat := 0
  atB1 : Nat := 0
  atB2 : Nat := 0
  status : Nat := 0
  b1 : Nat := 0
  b2 : Nat := 0
  copy : Bool := false
  /-- The latest switch performed: its round, the hosts before it, whether it copies state. -/
  at_ : Nat := 0
  from_ : Nat := 0
  moved : Bool := false
  deriving DecidableEq, Repr

/-- What the members of a herd agree on (03_modes_and_two_faults.md, 04_herd_placement.md). Masks have bit 0 A, 1 B,
2 C; channels are numbered 1, 2, 3. A shadow carries the herd's value, so that it can follow the rounds. -/
structure Herd where
  view : Nat := 0
  gen : Nat := 0
  /-- R73, R109: mode, mode before the latest change, STOPCAUSE, IDEG, PLANNED. -/
  mode : Nat := 1
  prev : Nat := 0
  stopcause : Nat := 0
  ideg : Bool := false
  planned : Bool := false
  /-- Rounds run by the SIMPLEX and the input-degraded timer (R89, R92). -/
  simplex : Option Nat := none
  idegRun : Option Nat := none
  /-- STW_DEPTH as counted (R110). -/
  depth : Nat := 0
  /-- Votes of the six pairs, two bits each (R325). -/
  votes : Nat := 0
  /-- The machine is stationary (R97); the brake demand of SAFE-STOP (R95): 0 none, 1 rising, 2 at DECEL, 3 full brake
  capacity, 4 hold. -/
  stationary : Bool := false
  brake : Nat := 0
  /-- Rounds since the entry into SAFE-STOP, and the deceleration demanded in 0.01 m/s² while it rises or holds at DECEL
  (R95); the causes of SAFE-STOP in the latest round (R107). -/
  brakeRun : Nat := 0
  demand : Nat := 0
  causes : List Nat := []
  /-- P1 IDLE is in force (R496). -/
  idle : Bool := false
  /-- The bring-up window has ended (R87). -/
  window : Bool := false
  /-- The shadow, its cycles so far and needed, whether its return counts against RECOV_LIM, its mismatches, whether it
  is complete (R122, R123, R143). -/
  shadow : Nat := 0
  shCycles : Nat := 0
  shNeed : Nat := 0
  shCount : Bool := false
  shDone : Bool := false
  mismatch : Nat := 0
  /-- The absence in progress (R137, R138): the channel, its cause as LCAUSE (R113), its round B2, whether it has left,
  the HEALTH of each channel at the grant, the level the absence left, the mode at the grant, its step of R151. -/
  absent : Nat := 0
  absKind : Nat := 0
  b2 : Nat := 0
  left : Bool := false
  absHealth : KMap Nat := []
  absLevel : Int := 0
  absMode : Nat := 0
  absStep : Nat := 0
  /-- The channel that returns after an abort without shadow phase (R146), and the mode hold of R105 in rounds run. -/
  ret : Nat := 0
  hold : Option Nat := none
  /-- The rotation (R141): 0 none, 1 update, 2 proof test; channels still to visit; channels done; the round of the
  next request in the gap; latest abort cause; aborts. -/
  rotKind : Nat := 0
  rotOrder : List Nat := []
  rotDone : Nat := 0
  gap : Option Nat := none
  cause : Nat := 0
  aborts : Nat := 0
  /-- The rotation's new BODY_HASH once a channel votes with it (R121, R147), and that of its shadow; completion waits for
  the MSS (R148). -/
  newHash : Option (BitVec 256) := none
  shHash : Option (BitVec 256) := none
  commitPend : Bool := false
  /-- Rounds of the counted returns in the window (R123), before round 0 for those of an earlier herd; joins refused; channels
  that have voted in this herd; those whose latest leave was unplanned, and of these the ones that left in SERVICE or
  PARK (R29). -/
  recov : List Int := []
  refused : Nat := 0
  ever : Nat := 0
  unplanned : Nat := 0
  svcLeft : Nat := 0
  /-- The voice relief has been used (R396). -/
  relief : Bool := false
  /-- The proof-test schedule (R149): operating minutes at round `proofFrom`, due, overdue, earliest round of a request
  after an abort. -/
  proofBase : Nat := 0
  proofFrom : Nat := 0
  proofDue : Bool := false
  overdue : Bool := false
  proofRetry : Nat := 0
  /-- Placement (R129): holders of resources, tasks, homes, effective budgets in µs that differ from BUDGET, the loads;
  the mask and generation it was computed for; switches that copied state (R151). -/
  holders : KMap Nat := []
  tasks : KMap Placed := []
  homes : KMap Placed := []
  budgets : KMap Nat := []
  loads : List (Nat × Nat × Nat) := []
  placedFor : Nat × Nat := (0, 0)
  moves : Nat := 0
  /-- Pending switches of resources (R133, R395), by id: the holder until then, and the boundary. -/
  resSwitch : KMap (Nat × Nat) := []
  deriving DecidableEq, Repr

/-- The jobs of a task that this channel runs (R132): TB counts at the releases not yet done, oldest first; periods in a row
above EFFBUD, largest of their times in µs. -/
structure Job where
  starts : List Nat := []
  run : Nat := 0
  most : Nat := 0
  /-- The state of a migration has not arrived yet (R134). -/
  awaiting : Bool := false
  /-- CRC-32C of the latest output (R143). -/
  crc : Nat := 0
  deriving DecidableEq, Repr

/-- The herd engine of one channel beside its registers. -/
structure Hrd where
  /-- The agreed value in force and the one decided for the next round start, with the own role from there (R112). -/
  cur : Herd := {}
  next : Option (Herd × Nat) := none
  /-- The herd round number, which HRD_ROUND shows modulo 2^32. -/
  round : Nat := 0
  /-- HB1 held of the round by direct receipt and by relay, by channel index; the own HB1 as sent; the relays sent. -/
  direct : KMap (Option (BitVec 64)) := []
  relayed : KMap (Option (BitVec 64)) := []
  hb1Out : Option (BitVec 64) := none
  hb2Out : List (BitVec 64) := []
  /-- Packets of classes 2, 3 and 4 that failed the CRC of R23. -/
  crcBad : Nat := 0
  /-- Requests for the next HB1 (R111, R137, R140): mode, rotation, repair. -/
  mreq : Nat := 0
  hreq : Nat := 0
  repair : Bool := false
  /-- The voice asks for its relief (R396). -/
  relief : Bool := false
  /-- The channel asks to join (R120); join records held by a member, by channel index; the own record as sent. -/
  asking : Bool := false
  joins : KMap (Option JoinRec) := []
  joinOut : Option JoinRec := none
  /-- The admission reply as sent (R121): the channel admitted, GEN and ROUND. -/
  admitOut : Option (Nat × Nat × Nat) := none
  /-- This channel gives fawn service (R86). -/
  fawn : Bool := false
  /-- The control-cycle boundary at which a channel that a severe source removed resets (R407); 0 = none. -/
  dropAt : Nat := 0
  /-- The rung left by a wake, which the decision after the next round start takes (R99). -/
  wake : Nat := 0
  /-- Snapshots of the round start: the P1 request written before it (1 enter, 2 leave), a source newly severe (R496,
  R498). -/
  p1Now : Nat := 0
  sevNow : Bool := false
  /-- Environment of the latest decision (R97, R95). -/
  speed : Nat := 0
  decel : Nat := 0
  /-- Jobs by task id; the overrun report for the next heartbeat round and the one of this round (R132). -/
  jobs : KMap Job := []
  report : List (Nat × Nat) := []
  reportNow : List (Nat × Nat) := []
  /-- Migration traffic: task states sent, home updates sent (R134, R136). -/
  stateOut : List (Nat × List Byte) := []
  homeOut : List (Nat × Nat × Word) := []
  /-- Task states that arrived before B2, addresses of tasks given up whose state is still to be sent, contents of homes as
  they were given up (R133, R134); peers whose class 4 transfers were abandoned, as reported (R25). -/
  arrived : KMap (List Byte) := []
  lastAddr : KMap Nat := []
  gone : KMap (List Byte) := []
  abandoned : Nat := 0
  /-- Cross-links up at this end: bit 0 A–B, 1 B–C, 2 C–A (R114). -/
  links : Nat := 0
  deriving DecidableEq, Repr

/-- A debug module (R508 to R522 of 19_debug_port.md). The harts' halted bits of a channel are STW_DBG.HALTED. -/
structure Dbg where
  /-- A token of FIELD has opened the port (R513). -/
  token : Bool := false
  /-- Harts halted (of the MSS port; a channel's stand in STW_DBG.HALTED), and halt requests that wait (R515). -/
  halted : BitVec 5 := 0
  want : BitVec 5 := 0
  /-- Outcome of the latest dmi access: op (0 success, 2 failed) and its data (R511). -/
  op : Nat := 0
  data : Word := 0
  /-- Registers of the debug module by dmi address, abstract command error, system-bus error (R509, R519). -/
  regs : KMap Word := []
  cmderr : Nat := 0
  sberr : Nat := 0
  /-- Harts that have acknowledged a resume. -/
  resumed : BitVec 5 := 0
  /-- Triggers, tdata1 and tdata2, by 8 × hart + 2 × trigger (R509, R518); the selected trigger by hart. -/
  trig : KMap Word := []
  tsel : KMap Nat := []
  /-- Registers of halted harts as the port has written or read them, by 65,536 × hart + register number. -/
  hregs : KMap (Option Word) := []
  deriving DecidableEq, Repr

/-- The management-link port of the MSS that serves one channel (16_management_and_log.md, 17_security_and_update.md). -/
structure Port where
  /-- MBX_RD, KEY_CHAL, KEY_NONCE, KEY_RES and KEY_PART of this channel, and the read results. -/
  regs : RegMap := []
  /-- The 8 KiB key buffer and the token assembly (R479, R487). -/
  keyBuf : Memory := []
  assembly : List Byte := []
  /-- The link is up at the MSS; its last DCNT; a reset vote stands (R436, R455). -/
  up : Bool := false
  lastDcnt : BitVec 32 := 0
  vote : Bool := false
  /-- Loaded hash reported at the seal (R476). -/
  hash : Option (BitVec 256) := none
  /-- Challenges issued and not yet used (R477). -/
  chals : List (BitVec 128) := []
  /-- Log read in progress: AREA, first SEQ, COUNT (R450). -/
  read : Option (Nat × Nat × Nat) := none
  /-- Key command in progress (R487), 0 none. -/
  keyCmd : Nat := 0
  /-- The steward's reply to the latest MP request (R29): honoured, and the words read. -/
  reply : Option (Bool × List Word) := none
  deriving DecidableEq, Repr

/-- The event log of the MSS (R436 to R449 of 16_management_and_log.md). LOG_NEXT, FULL, DEAD, the retirements and the
life counters stand in the MSS registers. -/
structure Log where
  bank0 : KMap LogRecord := []
  bank1 : KMap LogRecord := []
  /-- Last-words buffer, newest last, at most 64 (R448). -/
  last : List LogRecord := []
  /-- Messages received and not yet recorded, at most 256 (R436); MSS records not yet formed. -/
  intake : List LogMsg := []
  own : List LogMsg := []
  /-- The record being written (R442). -/
  now : Option LogRecord := none
  /-- The MP has written LOG_BODY or LOG_STAMP since the latest record. -/
  body : Bool := false
  deriving DecidableEq, Repr

/-- The MSS clocks, sensors and supervisor (R429 to R435, R453 to R458 of 16_management_and_log.md). -/
structure Sup where
  /-- OPTIME in ms with its two stored copies (R430), PCYC (R431), the calendar (R432): CALTIME, whether it has been set,
  CALEPOCH. -/
  optime : Nat := 0
  optA : Nat := 0
  optB : Nat := 0
  pcyc : Nat := 0
  cal : Nat := 0
  calSet : Bool := false
  calEpoch : Nat := 0
  /-- The running calendar: CALTIME holds its value while it is behind (R432). -/
  calTrue : Nat := 0
  /-- Nanoseconds of the RTC within a millisecond, milliseconds within a second, milliseconds since MSS power-on. -/
  ns : Nat := 0
  ms : Nat := 0
  up : Nat := 0
  /-- Extremes since the previous ENV record (R435); sensors beyond their limit (R434); VSUP_M is used. -/
  env : Option (List Nat) := none
  beyond : BitVec 25 := 0
  vsupM : Bool := false
  /-- Consecutive frames above 70, 80 and 90 % and below 60 % of load (R454). -/
  above1 : Nat := 0
  above2 : Nat := 0
  above3 : Nat := 0
  below : Nat := 0
  /-- Vote resets without 60 s of unbroken heartbeats between them (R457), and the time of the first heartbeat since the
  latest reset, in ms of `up`. -/
  votes : Nat := 0
  hbFrom : Option Nat := none
  /-- Pulses driven on ERR_M (R458). -/
  errM : Nat := 0
  deriving DecidableEq, Repr

/-- The key store and the identity of the MSS (17_security_and_update.md). -/
structure KeyStore where
  otp : Otp := {}
  /-- Root public keys by slot in the key and state area (R463). -/
  keys : KMap (List Byte) := []
  /-- Number of the identity (0 before the first one), the two copies of its leaf index (`none` unreadable), the list of
  key hashes (R472, R473, R475). -/
  id : Nat := 0
  leafA : Option Nat := some 0
  leafB : Option Nat := some 0
  hashes : List (BitVec 256) := []
  /-- Attestations in request order (R473). -/
  queue : List Chan := []
  /-- Lower trees generated; what is being generated: 1 a lower tree, 2 a new identity for a life-cycle change to `lcTo`
  that channel `lcBy` asked for by a token of kind `lcKind` (R468, R472). -/
  trees : Nat := 1
  gen : Nat := 0
  lcTo : Nat := 0
  lcKind : Nat := 0
  lcBy : Chan := .A
  /-- Ports that a debug token of this power cycle opens: ARG AND FLDEN (R478, R513). -/
  dbgPorts : Nat := 0
  deriving DecidableEq, Repr

/-- The update path and the Folio slots of the MSS (R60, R471, R480 to R484). -/
structure Upd where
  /-- Contents of slots A and B, as stored. -/
  bytesA : List Byte := []
  bytesB : List Byte := []
  /-- The staging area, filled up to UPD_NEXT; the staging buffer of the mailbox. -/
  staged : List Byte := []
  buffer : Memory := []
  /-- ms of `up` at the latest block (R481). -/
  blockAt : Nat := 0
  /-- Slot being written by an arm command, and which arm (R483): 1 rotation, 2 power cycle. -/
  copy : Nat := 0
  arm : Nat := 0
  /-- A power-cycle arm has been made ACTIVE by an MSS power-on (R484), and the former ACTIVE slot. -/
  started : Bool := false
  former : Nat := 0
  /-- A journalled commit (R471): the slot, 1 A, 2 B. -/
  journal : Nat := 0
  /-- 10 s have passed since power-on without a herd (R484). -/
  noHerd : Bool := false
  deriving DecidableEq, Repr

/-- The comparator beside its registers (05_core_pair.md). -/
structure Cmp where
  /-- Step of the injection sweep that comes next (R165). -/
  step : Nat := 0
  /-- A digest mismatch waits for its re-synchronisation (R162, R163). -/
  latent : Bool := false
  /-- The sweep failed in this life of the channel: it stays out of the herd (R166). -/
  swept : Bool := false
  deriving DecidableEq, Repr

end Sys2Proof.Machine
end

