-- ==== Sys2Proof/Machine/State.lean ====
section
/-! DEFINITION. The state of the DVZ-3480: three channels, the management subsystem and the queue of waiting commands.
Plain data throughout. Registers are words of a sparse map under their addresses (Regs.lean); what the rules name beside
them stands in the parts of Parts.lean. -/

namespace Sys2Proof.Machine

/-- Why a step could stop. No command of this block stops: every request that the device turns away is an outcome the
spec describes (a bus error, a refusal counted by the steward, a discarded packet) and is held in State. -/
inductive Fault
  deriving DecidableEq, Repr

/-- Why the model refuses a command. -/
inductive Refusal
  /-- Raised by an arm of `exec` whose command has no meaning in this model; safe: no next state is claimed. -/
  | notModelled (mnemonic : String)
  deriving DecidableEq, Repr

/-- How the latest bus access of a channel ended (R10, R31, R36, R37). -/
inductive Bus
  | idle
  | ok (v : Word)
  | error
  | waiting
  deriving DecidableEq, Repr

/-- One channel: its digital die CD-x and its power die CP-x (R15 of 01_architecture.md). -/
structure Channel where
  /-- The channel's letter (STW_ID.CH holds its number, R428). -/
  me : Chan
  /-- The registers of the block windows, keyed by address (R10, R36). -/
  regs : RegMap
  /-- The memories of R36 and R177, keyed by address. -/
  sram : Memory := []
  itcm : Memory := []
  dtcm : Memory := []
  fce0 : Memory := []
  fce1 : Memory := []
  nete : Memory := []
  /-- The aligned timebase TB in counts of 5 ns (R181, R182). -/
  tb : BitVec 48 := 0
  /-- How the latest bus access in the channel ended (R10, R31, R36, R37). -/
  bus : Bus := .idle
  /-- Held in channel reset: cores stopped, wipe running (R167). -/
  resetting : Bool := true
  /-- The channel is fail-silent (R159): cores stopped, transmitters off. -/
  failSilent : Bool := false
  /-- The management link is up at this end (R436). -/
  mlink : Bool := false
  /-- The log queue, oldest first, at most 64 messages (R436). -/
  logq : List LogMsg := []
  /-- DCNT: messages dropped since channel reset, modulo 2^32 (R436). -/
  dcnt : BitVec 32 := 0
  fcc : Fcc := {}
  cmp : Cmp := {}
  pow : Pow := {}
  pwr : Pwr := {}
  ntc : Ntc := {}
  tte : Tte := {}
  can : Can := {}
  f0 : Fce0 := {}
  f1 : Fce1 := {}
  xlk : Xlk := {}
  enc : Enc := {}
  sin : Sin := {}
  fol : Fol := {}
  hrd : Hrd := {}
  dbg : Dbg := {}
  /-- The die's one-time-programmable memory; no reset changes it (R462). -/
  otp : Otp := {}
  /-- No MSS heartbeat for 50 ms: the reset vote that follows (R455), and the MSS reported lost (R501). -/
  mssVote : Bool := false
  hbLost : Bool := false
  /-- A voting member now, and since the latest channel reset (R74, R415). -/
  voting : Bool := false
  voted : Bool := false
  /-- The model's own counter of free values drawn (log entry 8). -/
  free : Nat := 0
  deriving DecidableEq, Repr

/-- The management subsystem with its MRAM dies (R15, R20). Its registers are those of the MSS, LOG, KEY and UPD maps
(R460, R487, R488); KEY_STAT's and LOG_STAT's fields, KEY_LEAF, KEY_ROLLBACK and LOG_NEXT are the state itself. -/
structure Mss where
  regs : RegMap := []
  /-- How the latest register access of the MP ended (R10, R460), and its 512 KiB of SRAM (R15, R53). -/
  bus : Bus := .idle
  sram : Memory := []
  /-- Shadows of MBX_MSS to MBX_PROOF as the MP refreshed them (R452). -/
  shadow : RegMap := []
  /-- The model's own counter of free values drawn (log entry 8). -/
  free : Nat := 0
  /-- Rung of the management region (R494 of 18_bring_up_and_power.md). -/
  rung : Nat := 0
  /-- Powered; ready to serve (R492); the MP runs; the MP is held in reset (R457). -/
  on : Bool := false
  ready : Bool := false
  mp : Bool := false
  held : Bool := false
  /-- A reset of the MP in progress: CODE and vote mask of its MSS_PON (R441). -/
  restart : Option (Nat × Nat) := none
  /-- The herd mode last reported on any management link (R439). -/
  herdMode : Nat := 0
  portA : Port := {}
  portB : Port := {}
  portC : Port := {}
  log : Log := {}
  sup : Sup := {}
  key : KeyStore := {}
  upd : Upd := {}
  dbg : Dbg := {}
  /-- States of the Folio slots (0 EMPTY, 1 TRIAL, 2 GOOD) and the ACTIVE one (0 A, 1 B) (R60). -/
  slotA : Nat := 0
  slotB : Nat := 0
  active : Nat := 0
  /-- Operating minutes since the last completed proof test (MBX_PROOF), and OPTIME at that test. -/
  proofMinutes : Nat := 0
  proofAt : Nat := 0
  deriving DecidableEq, Repr

/-- The machine. -/
structure State where
  a : Channel
  b : Channel
  c : Channel
  mss : Mss
  /-- Commands that wait, first in, first out. -/
  pending : List Instr
  deriving DecidableEq, Repr

/-- Registers whose reset value the spec gives and is not 0, by address. -/
def resetRegs (me : Chan) : RegMap :=
  [(STW_ID, match me with | .A => 1 | .B => 2 | .C => 3),
   (STW_MODE, 1),
   (STW_BLKEN, 0x0001C04F),
   (HRD_PROOFIN, 0x03FF03FF),
   (GDR_MSTATE, 0x00130043),
   (ENC_SSTAT 0, 0xFFFF0000), (ENC_SSTAT 1, 0xFFFF0000), (ENC_SSTAT 2, 0xFFFF0000),
   (SIN_LEVEL, 0x30000000),
   (NTC_INC, 0x08000000), (NTC_OFS, 0x80000000), (NTC_OFSALT, 0x80000000),
   (CAN_ISTAT, 2), (CAN_CLAIM 0, 0xFE), (CAN_CLAIM 1, 0xFE),
   (CAN_TXCTL, 0x06FF0000),
   (PWR_BOOT, 0xFFFF0001),
   (FOL_RES 0, 0xFF), (FOL_RES 1, 0xFF), (FOL_RES 2, 0xFF)]

/-- Registers of the MSS whose value right after manufacture is not 0: BLANK, a full attestation credit (R467, R474),
UPD_FOLRES (R488). -/
def mssResetRegs : RegMap := [(KEY_STAT, 0x00008001), (UPD_FOLRES, 0xFF)]

/-- A channel right after power-on reset (R420, R428, R489).
DESIGN CHOICE, unsafe: log entry 2. -/
def Channel.powerOn (me : Chan) : Channel := { me := me, regs := resetRegs me }

/-- The machine right after reset: every channel at its power-on reset, the queue empty.
DESIGN CHOICE, unsafe: log entries 1, 2. -/
def State.reset : State :=
  { a := Channel.powerOn .A, b := Channel.powerOn .B, c := Channel.powerOn .C, mss := { regs := mssResetRegs }, pending := [] }

end Sys2Proof.Machine
end

