-- ==== Sys2Proof/Machine/Ops.lean ====
section
/-! DEFINITION. The named operations over registers, channels and the machine, through which every meaning acts. -/

namespace Sys2Proof

/-- The number of a channel: 1 A, 2 B, 3 C (Pins and channels of 00_scope.md). -/
def Chan.num : Chan → Nat
  | .A => 1
  | .B => 2
  | .C => 3

/-- The index of a channel: 0 A, 1 B, 2 C. -/
def Chan.idx : Chan → Nat
  | .A => 0
  | .B => 1
  | .C => 2

/-- The channel of a number; `none` for 0 and the rest. -/
def Chan.ofNum : Nat → Option Chan
  | 1 => some .A
  | 2 => some .B
  | 3 => some .C
  | _ => none

/-- The two peers of a channel, lower letter first. -/
def Chan.peers : Chan → List Chan
  | .A => [.B, .C]
  | .B => [.A, .C]
  | .C => [.A, .B]

end Sys2Proof

namespace Sys2Proof.Machine

/-- The outcome type of `exec` and `step`. -/
abbrev Out := Host.Outcome State Fault Refusal

/-- A field of a register file, as a number. -/
def RegMap.get (r : RegMap) (f : Fld) : Nat := (r.word f.addr).toNat / 2 ^ f.lsb % 2 ^ f.width

/-- Write a field; the value is cut to the field's width, every other bit keeps its value. -/
def RegMap.put (r : RegMap) (f : Fld) (v : Nat) : RegMap :=
  let w := (r.word f.addr).toNat
  let old := w / 2 ^ f.lsb % 2 ^ f.width
  r.setWord f.addr (BitVec.ofNat 32 (w - old * 2 ^ f.lsb + v % 2 ^ f.width * 2 ^ f.lsb))

/-- A field of a channel's registers. -/
def Channel.rd (c : Channel) (f : Fld) : Nat := c.regs.get f

/-- A field of a channel's registers as a flag. -/
def Channel.is (c : Channel) (f : Fld) : Bool := c.rd f != 0

/-- Write a field of a channel's registers. -/
def Channel.wr (c : Channel) (f : Fld) (v : Nat) : Channel := { c with regs := c.regs.put f v }

/-- Write a flag. -/
def Channel.flag (c : Channel) (f : Fld) (b : Bool) : Channel := c.wr f (if b then 1 else 0)

/-- Count in a saturating counter. -/
def Channel.sat (c : Channel) (f : Fld) : Channel := c.wr f (satInc f.width (c.rd f))

/-- Count modulo the field's width. -/
def Channel.inc (c : Channel) (f : Fld) : Channel := c.wr f (c.rd f + 1)

/-- A field read as two's complement. -/
def Channel.rdS (c : Channel) (f : Fld) : Int := toSigned f.width (c.rd f)

/-- Write a two's complement field, cut to its width. -/
def Channel.wrS (c : Channel) (f : Fld) (v : Int) : Channel := c.wr f (ofSigned f.width v)

/-- Write a two's complement field, saturating. -/
def Channel.wrSat (c : Channel) (f : Fld) (v : Int) : Channel :=
  c.wrS f (max (-(2 ^ (f.width - 1) : Int)) (min v (2 ^ (f.width - 1) - 1)))

/-- Write a whole register. -/
def Channel.wrWord (c : Channel) (a : Nat) (v : Word) : Channel := { c with regs := c.regs.setWord a v }

/-- Bit `b` of a field. -/
def Channel.bit (c : Channel) (f : Fld) (b : Nat) : Bool := (c.rd f).testBit b

/-- Write bit `b` of a field. -/
def Channel.setBit (c : Channel) (f : Fld) (b : Nat) (v : Bool) : Channel :=
  c.wr f (if v then c.rd f ||| 2 ^ b else c.rd f &&& (2 ^ f.width - 1 - 2 ^ b))

/-- One channel of the machine. -/
def State.chan (s : State) : Chan → Channel
  | .A => s.a
  | .B => s.b
  | .C => s.c

/-- Replace one channel. -/
def State.setChan (s : State) (ch : Chan) (x : Channel) : State :=
  match ch with
  | .A => { s with a := x }
  | .B => { s with b := x }
  | .C => { s with c := x }

/-- The bit of the link that joins two channels, by number; 3 for none. -/
def linkBit (x y : Nat) : Nat :=
  if (x = 1 ∧ y = 2) ∨ (x = 2 ∧ y = 1) then 0
  else if (x = 2 ∧ y = 3) ∨ (x = 3 ∧ y = 2) then 1
  else if (x = 3 ∧ y = 1) ∨ (x = 1 ∧ y = 3) then 2 else 3

/-- The cross-link to the channel of a number is up at this end. -/
def Channel.hearsN (c : Channel) (n : Nat) : Bool := c.hrd.links.testBit (linkBit c.me.num n)

/-- A cross-link packet of class 2, 3 or 4 that fails its CRC is discarded and counted (R23). -/
def Channel.badCrc (c : Channel) : Channel := { c with hrd := { c.hrd with crcBad := c.hrd.crcBad + 1 } }

/-- This end holds the cross-link to a peer up (R25, R114): while it does not, all traffic of that peer is absent. -/
def Channel.hears (c : Channel) (p : Chan) : Bool := c.hearsN p.num

/-- Both ends of the cross-link between two channels hold it up (R114). -/
def State.crossUp (s : State) (x y : Chan) : Bool :=
  (s.chan x).hrd.links.testBit (linkBit x.num y.num) && (s.chan y).hrd.links.testBit (linkBit x.num y.num)

/-- Change one channel. -/
def State.on (s : State) (ch : Chan) (f : Channel → Channel) : State := s.setChan ch (f (s.chan ch))

/-- The digital die holds its state: supplied, out of reset and not fail-silent (R159, R167, R489). -/
def Channel.alive (c : Channel) : Bool := !c.resetting && !c.failSilent && !c.pwr.off

/-- The digital die runs: alive, and not clock-stopped on a rung P2 or below (R494).
DESIGN CHOICE, unsafe: log entry 6. -/
def Channel.live (c : Channel) : Bool := c.alive && decide (c.rd PWR_STAT_RUNG < 2)

/-- The channel runs its pair in lockstep (R171). -/
def Channel.lockstep (c : Channel) : Bool := !c.is CMP_STAT_SPLIT

/-- Change one channel if its digital die runs; a die that does not run takes no step.
DESIGN CHOICE, unsafe: log entry 6. -/
def State.onLive (s : State) (ch : Chan) (f : Channel → Channel) : State :=
  s.on ch fun c => if c.live then f c else c

/-- Change one channel's power die, which runs while the channel is supplied.
DESIGN CHOICE, unsafe: log entry 6. -/
def State.onPower (s : State) (ch : Chan) (f : Channel → Channel) : State :=
  s.on ch fun c => if c.pwr.off then c else f c

/-- Change the MSS. -/
def State.onMss (s : State) (f : Mss → Mss) : State := { s with mss := f s.mss }

/-- Apply a change when a condition holds. -/
def Channel.when (c : Channel) (p : Bool) (f : Channel → Channel) : Channel := if p then f c else c

/-- Draw a free value below `n` (0 when `n` is 0).
DESIGN CHOICE, safe: log entry 8. -/
def Channel.draw (c : Channel) (n : Nat) : Nat × Channel :=
  (Config.freeValue c.me.num c.free % n, { c with free := c.free + 1 })

/-- A field of the MSS registers. -/
def Mss.rd (m : Mss) (f : Fld) : Nat := m.regs.get f

/-- Write a field of the MSS registers. -/
def Mss.wr (m : Mss) (f : Fld) (v : Nat) : Mss := { m with regs := m.regs.put f v }

/-- A flag of the MSS registers. -/
def Mss.is (m : Mss) (f : Fld) : Bool := m.rd f != 0

/-- Count in a saturating counter of the MSS. -/
def Mss.sat (m : Mss) (f : Fld) : Mss := m.wr f (satInc f.width (m.rd f))

/-- Registers that a channel reset keeps: those reset at power-on only (R167, R174, R366, R418, R420, R428). -/
def keptRegs : List Nat :=
  [HRD_NEXTSRC, CMP_LAST, CMP_LASTPC, CMP_LATCNT, FCC_SEVPRE 0, FCC_SEVPRE 1, STW_RSTCAUSE] ++
    (List.range 64).map FCC_CNT

/-- Copy whole registers from one register file to another. -/
def copyRegs (src : RegMap) : List Nat → RegMap → RegMap
  | [], r => r
  | a :: as, r => copyRegs src as (r.setWord a (src.word a))

/-- What a channel keeps of a herd that it leaves (R123, R132): the count of returns and the effective budgets last until
a power cycle.
DEDUCED, unsafe: log entry 27. -/
def Herd.kept (h : Herd) : Herd := { mismatch := h.mismatch, recov := h.recov, refused := h.refused, budgets := h.budgets }

end Sys2Proof.Machine
end

