-- ==== Sys2Proof/Machine/BridgeOps.lean ====
section
/-! DEFINITION. The state of a bridge: causes, precedence and the safe-state selector (R229 to R239 of
08_motor_fault_states.md), with the gate-drive cause of 09_gate_drive.md. -/

namespace Sys2Proof.Machine

/-- The cause field of a bridge (R236, R261). -/
def causeFld : Bridge → Fld
  | .S => GDR_MSTATE_SCAUSE
  | .P => GDR_MSTATE_PCAUSE

/-- The state field of a bridge (R229, R261). -/
def stateFld : Bridge → Fld
  | .S => GDR_MSTATE_SSTATE
  | .P => GDR_MSTATE_PSTATE

/-- Active causes of a bridge, bit n = cause bit n of R236. -/
def Channel.causes (c : Channel) (b : Bridge) : Nat := c.rd (causeFld b)

/-- State of a bridge (R229): 0 in service, 1 open, 2 active short, 3 off. -/
def Channel.bstate (c : Channel) (b : Bridge) : Nat := c.rd (stateFld b)

/-- |ω| × KOS and VLINK_x on one scale of 2^-40 V (R232): Q16.16 by Q8.24, and VLC at 100 V ÷ 16,384. -/
def Channel.emfVolts (c : Channel) (b : Bridge) : Nat :=
  match b with
  | .S => c.pow.omegaS * c.rd (GDR_OSK_KOS 0) * 16384
  | .P => c.pow.omegaP * c.rd (GDR_OSK_KOS 1) * 16384

/-- VLINK_x on the scale of `emfVolts`. -/
def Channel.linkVolts (c : Channel) : Nat := c.rd GDR_LINK_VLC * 100 * 2 ^ 40

/-- At or above the open-safe speed (R231, R232). -/
def Channel.aboveOs (c : Channel) (b : Bridge) : Bool := c.linkVolts ≤ c.emfVolts b

/-- Below 0.9 of the open-safe speed (R232). -/
def Channel.belowOs (c : Channel) (b : Bridge) : Bool := 10 * c.emfVolts b < 9 * c.linkVolts

/-- The selector's choice. -/
def Channel.short (c : Channel) : Bridge → Bool
  | .S => c.pow.shortS
  | .P => c.pow.shortP

/-- The rectification guard has shorted the bridge (R234). -/
def Channel.guard (c : Channel) : Bridge → Bool
  | .S => c.pow.guardS
  | .P => c.pow.guardP

/-- The probe bit of bridge S (R241). -/
def Channel.probe (c : Channel) (b : Bridge) : Bool := b == .S && c.is GDR_LINK_PROBE

/-- Set the selector's choice. -/
def Channel.setShort (c : Channel) (b : Bridge) (v : Bool) : Channel :=
  match b with
  | .S => { c with pow := { c.pow with shortS := v } }
  | .P => { c with pow := { c.pow with shortP := v } }

/-- Set or clear the guard. -/
def Channel.setGuard (c : Channel) (b : Bridge) (v : Bool) : Channel :=
  match b with
  | .S => { c with pow := { c.pow with guardS := v } }
  | .P => { c with pow := { c.pow with guardP := v } }

/-- The selector decides anew on its latest word (R232): short at or above the open-safe speed or on the probe, open
below 0.9 of it, its previous choice between. -/
def Channel.select (c : Channel) (b : Bridge) : Channel :=
  if c.aboveOs b || c.probe b then c.setShort b true
  else if c.belowOs b then c.setShort b false
  else c

/-- A gate-drive block reset has met OV1 or OV2 (R260). -/
def Channel.ovHeld (c : Channel) : Bridge → Bool
  | .S => c.pow.ovHeldS
  | .P => c.pow.ovHeldP

/-- A gate-drive block reset during OV1 or OV2 leaves the bridge off until both causes have cleared (R260). -/
def Channel.holdOv (c : Channel) (b : Bridge) : Channel :=
  let k := c.causes b
  let ov := k.testBit 1 || k.testBit 3
  let h := (k.testBit 0 && ov) || (c.ovHeld b && (k.testBit 0 || ov))
  match b with
  | .S => { c with pow := { c.pow with ovHeldS := h } }
  | .P => { c with pow := { c.pow with ovHeldP := h } }

/-- The state that the causes give (R237); without a cause the state stays until the carrier peak of R230. -/
def Channel.stateOf (c : Channel) (b : Bridge) : Nat :=
  let k := c.causes b
  if k = 0 then c.bstate b
  else if k.testBit 0 || k.testBit 1 || k.testBit 2 || c.ovHeld b then 3
  else if k.testBit 3 then (match b with | .S => 2 | .P => 1)
  else if (k.testBit 7 && c.probe b) || c.guard b then 2
  else if b == .P && k.testBit 7 && c.pow.stopShort then 2
  else if b == .P && !(k.testBit 4 || k.testBit 5 || k.testBit 9) then 1
  else if c.short b then 2 else 1

/-- Bring the state of a bridge into line with its causes. -/
def Channel.settle (c : Channel) (b : Bridge) : Channel :=
  let c := if c.causes b = 0 then c.setGuard b false else c
  c.wr (stateFld b) (c.stateOf b)

/-- Set or clear one cause. A bridge that leaves service between the two speeds of R232 is shorted. -/
def Channel.setCause (c : Channel) (b : Bridge) (n : Nat) (v : Bool) : Channel :=
  let leaving := c.bstate b = 0 ∧ c.causes b = 0 ∧ v = true
  let c := if leaving then c.setShort b (!c.belowOs b || c.probe b) else c
  ((c.setBit (causeFld b) n v).holdOv b).settle b

/-- Set or clear one cause of both bridges. -/
def Channel.setCauses (c : Channel) (n : Nat) (v : Bool) : Channel := (c.setCause .S n v).setCause .P n v

/-- Switches of a bridge in the bit map of R285. -/
def bridgeMask : Bridge → Nat
  | .S => 0x3F
  | .P => 0xFC0

/-- Locked gates with those of failed detectors (R281, R284): a lock of bit 17 covers bits 11:0. -/
def Channel.locks (c : Channel) : Nat :=
  let l := c.rd GDR_LOCK_LOCK ||| c.pow.stLock.toNat
  if l.testBit 17 then l ||| 0xFFF else l

/-- Latches and locks reach the gates (R272, R282): by a block reset, the clear of R279 or the bring-up test, never by
themselves. -/
def Channel.takeHeld (c : Channel) : Channel :=
  { c with pow := { c.pow with held := c.rd GDR_FLT_LATCH ||| c.locks } }

/-- The gate-drive block keeps a bridge off (R271, R274, R279, R281, R282): reset, GDEN_x low, a latch of one of its
switches or the OC latch since the block reset, a lock, and the UVLO latch at once. -/
def Channel.gdHolds (c : Channel) (b : Bridge) : Bool :=
  let l := c.pow.held
  c.is GDR_STAT_INRST || !c.pow.gden || (l &&& bridgeMask b) != 0 || l.testBit 17 || (c.rd GDR_FLT_LATCH).testBit 18

/-- Bring cause bit 0, GDEN and PEND into line with the block (R236, R285). -/
def Channel.gdRefresh (c : Channel) : Channel :=
  let c := (c.flag GDR_STAT_GDEN c.pow.gden).flag GDR_STAT_PEND (c.rd GDR_FLT_LATCH != 0)
  (c.setCause .S 0 (c.gdHolds .S)).setCause .P 0 (c.gdHolds .P)

/-- The gate-drive block reset at CP-x (R274): every gate sinking, cause bit 0, the block in reset; latches, LCK fields
and counters are kept; the dead-time timers restart with every switch just turned off, duties are discarded; the solenoid
drivers stay off until a tick after the release (R282). -/
def Channel.gdrAtDie (c : Channel) : Channel :=
  let c := (c.wr GDR_STAT_INRST 1).sat GDR_CNT_BRST
  let c := { c.wr GDR_LINK_CHOPON 0 with
    pow := { c.pow with solOff := true, chk := none, legsS := {}, legsP := {}, dutyS := (0, 0, 0), dutyP := (0, 0, 0),
                        chopRun := 0 }
    xlk := { c.xlk with used := false }, f1 := { c.f1 with issued := false } }
  c.takeHeld.gdRefresh

end Sys2Proof.Machine
end

