-- ==== Sys2Proof/Machine/Fixed.lean ====
section
/-! DEFINITION. The coprocessor's arithmetic to the bit (R178, R179 of 06_field_control.md, R243 of
08_motor_fault_states.md): exact integers inside a formula, rounded half upwards and saturated at its end. -/

namespace Sys2Proof.Machine

/-- Arithmetic shift right by `s`, rounded half upwards (R178).
DEDUCED, unsafe: log entry 36. -/
def rshift (s : Nat) (v : Int) : Int := if s = 0 then v else (v + 2 ^ (s - 1)) / 2 ^ s

/-- Saturation to a signed 32-bit format. -/
def sat32 (v : Int) : Int := max (-(2 ^ 31 : Int)) (min v (2 ^ 31 - 1))

/-- A phase current in Q1.31 of I_FS from a code less its offset (R178, R186). -/
def phaseCurrent (d : Int) : Int := sat32 (d * 2 ^ 18)

/-- One formula: exact value with `s` excess fraction bits. -/
def fx (s : Nat) (v : Int) : Int := sat32 (rshift s v)

/-- Rounding division, half upwards, by a positive divisor. -/
def rdiv (n : Int) (d : Nat) : Int := if d = 0 then 0 else (2 * n + d) / (2 * d : Int)

/-- Clamp. -/
def clampI (v lo hi : Int) : Int := max lo (min v hi)

/-- Integer square root rounded down, by halving intervals: `n` bits of result. -/
def isqrtBits : Nat → Nat → Nat → Nat
  | 0, _, r => r
  | n + 1, v, r => isqrtBits n v (if (r + 2 ^ n) * (r + 2 ^ n) ≤ v then r + 2 ^ n else r)

/-- isqrt of R190: the integer square root rounded down, of values below 2^66; 0 of a negative value. -/
def isqrt (v : Int) : Int := (isqrtBits 33 v.toNat 0 : Int)

/-- 2π × 2^100.
DEDUCED, unsafe: log entry 36. -/
def twoPi100 : Int := 7964883625991394727376702227904

/-- The Taylor series of the sine in fixed point with 100 fraction bits. -/
def sinSeries : Nat → Nat → Int → Int → Int
  | 0, _, _, _ => 0
  | n + 1, k, x2, t => t + sinSeries n (k + 1) x2 (-(t * x2 / 2 ^ 100) / ((2 * k + 2) * (2 * k + 3) : Int))

/-- Table entry in the first quadrant, 0 ≤ r ≤ 1,024, before the saturation. -/
def sinQuarter (r : Nat) : Int :=
  let x := twoPi100 * r / 4096
  rshift 69 (sinSeries 24 0 (x * x / 2 ^ 100) x)

/-- S[k] of R179: the integer nearest to 2^31 × sin(2πk ÷ 4,096), halves away from zero, saturated to 2^31 − 1. -/
def sinTab (k : Nat) : Int :=
  let r := k % 1024
  match k / 1024 % 4 with
  | 0 => min (sinQuarter r) (2 ^ 31 - 1)
  | 1 => min (sinQuarter (1024 - r)) (2 ^ 31 - 1)
  | 2 => -sinQuarter r
  | _ => -sinQuarter (1024 - r)

/-- sin θ of R179. -/
def sinQ (theta : Nat) : Int :=
  let k := theta / 2 ^ 20 % 4096
  let f : Int := (theta / 2 ^ 4 % 2 ^ 16 : Nat)
  let a := sinTab k
  a + rshift 16 ((sinTab ((k + 1) % 4096) - a) * f)

/-- cos θ of R179. -/
def cosQ (theta : Nat) : Int := sinQ ((theta + 0x40000000) % 2 ^ 32)

/-- A[i] of R243: the integer nearest to 2^32 × atan(2^−i) ÷ 2π. -/
def atanTab : List Nat :=
  [536870912, 316933406, 167458907, 85004756, 42667331, 21354465, 10679838, 5340245, 2670163, 1335087, 667544, 333772,
   166886, 83443, 41722, 20861, 10430, 5215, 2608, 1304, 652, 326, 163, 81]

/-- The iterations of the vectoring CORDIC.
DEDUCED, unsafe: log entry 36. -/
def cordic : List Nat → Nat → Int → Int → Int → Int
  | [], _, _, _, z => z
  | a :: as, i, x, y, z =>
    if 0 ≤ y then cordic as (i + 1) (x + y / 2 ^ i) (y - x / 2 ^ i) (z + a)
    else cordic as (i + 1) (x - y / 2 ^ i) (y + x / 2 ^ i) (z - a)

/-- angle(x, y) of R243: unsigned 32-bit angle of the vector; a vector in the left half-plane is turned by half a turn
first. -/
def angleQ (x y : Int) : Nat :=
  if x < 0 then ofSigned 32 (cordic atanTab 0 (-x) (-y) 0 + 2 ^ 31) else ofSigned 32 (cordic atanTab 0 x y 0)

/-- The signed difference of two angles. -/
def angDiff (a b : Nat) : Int := toSigned 32 (a + 2 ^ 32 - b % 2 ^ 32)

/-- Proportional-integral step of R191 over Q1.31 with gains in Q16.16; `se` are the fraction bits of KI × e and KP × e
above Q1.31. Answers u and int'. -/
def piStep (se : Nat) (e kp ki int : Int) : Int × Int :=
  let i1 := fx se (int * 2 ^ se + ki * e)
  let raw := rshift se (kp * e + i1 * 2 ^ se)
  let u := sat32 raw
  if (raw > 2 ^ 31 - 1 && e > 0) || (raw < -(2 ^ 31 : Int) && e < 0) then (u, int) else (u, i1)

/-- Rated speed of a motor in electrical rad/s, Q16.16: rpm × poles × 2π ÷ 60. -/
def ratedOmega (rpm poles : Nat) : Int := rdiv (rpm * poles * twoPi100) (60 * 2 ^ 84)

end Sys2Proof.Machine
end

