-- ==== Sys2Proof/Machine/EncOps.lean ====
section
/-! DEFINITION. Shared operations of the position-feedback block (10_position_feedback.md): units, their configuration
words and the latch at t0 (R297). -/

namespace Sys2Proof.Machine

/-- A unit. -/
def Enc.unit (e : Enc) (n : Nat) : EncUnit :=
  match n with
  | 0 => e.u0
  | 1 => e.u1
  | 2 => e.u2
  | 3 => e.u3
  | 4 => e.u4
  | _ => e.u5

/-- Replace a unit. -/
def Enc.putUnit (e : Enc) (n : Nat) (u : EncUnit) : Enc :=
  match n with
  | 0 => { e with u0 := u }
  | 1 => { e with u1 := u }
  | 2 => { e with u2 := u }
  | 3 => { e with u3 := u }
  | 4 => { e with u4 := u }
  | _ => { e with u5 := u }

/-- Change a unit. -/
def Channel.unitUp (c : Channel) (n : Nat) (g : EncUnit → EncUnit) : Channel :=
  { c with enc := c.enc.putUnit n (g (c.enc.unit n)) }

/-- A unit of the channel. -/
def Channel.unit (c : Channel) (n : Nat) : EncUnit := c.enc.unit n

/-- A field of ENC_UNIT word `w` of unit `n` (R306). -/
def Channel.ucfg (c : Channel) (n w lo k : Nat) : Nat := c.rd (ENC_UCFG_VALUE n w) / 2 ^ lo % 2 ^ k

/-- A unit with a record is on: its MINEDGE is at least 8 (R306). -/
def Channel.encOn (c : Channel) (n : Nat) : Bool := c.ucfg n 1 16 16 != 0

/-- Counts per index of a unit (R291). -/
def Channel.unitCpr (c : Channel) (n : Nat) : Int :=
  if c.ucfg n 1 4 2 = 0 then (4 * c.ucfg n 2 0 16 : Nat) else (c.ucfg n 2 0 16 : Nat)

/-- The electrical speed of the steering-motor unit (R297): ŝ × 2π × POLES ÷ CPR. -/
def Channel.motorOmega (c : Channel) : Int :=
  let n := c.rd ENC_MOTOR_UNIT
  let cpr := c.unitCpr n
  if cpr ≤ 0 then 0 else sat32 (rdiv ((c.unit n).shat * twoPi100 * c.rd ENC_MOTOR_POLES) (2 ^ 100 * cpr.toNat))

/-- A unit that starts anew on the levels its inputs have: they are its stored levels.
DESIGN CHOICE, unsafe: log entry 87. -/
def EncUnit.restart (u : EncUnit) : EncUnit := { lvl := u.lvl, stored := u.lvl }

/-- The units start anew (R425). -/
def Enc.restart (e : Enc) : Enc :=
  { u0 := e.u0.restart, u1 := e.u1.restart, u2 := e.u2.restart, u3 := e.u3.restart, u4 := e.u4.restart,
    u5 := e.u5.restart }

/-- The levels of the pass-through output that PASS names with `o`: those of the unit that names it; low when none does. -/
def Channel.passLevel (c : Channel) (o : Nat) : BitVec 3 :=
  match (List.range 6).find? fun n => c.ucfg n 1 10 2 == o with
  | some n => (c.unit n).lvl
  | none => 0

/-- The pass-through outputs follow (R300, R425): low before PINS and while the block is held in reset. -/
def Channel.passThrough (c : Channel) : Channel :=
  let out (o : Nat) : BitVec 3 := if c.enc.pins && !c.bit STW_BLKSTAT_BLK 8 then c.passLevel o else 0
  { c with enc := { c.enc with pto0 := out 1, pto1 := out 2 } }

/-- A field of SENT_RX word `w` of receiver `m` (R308). -/
def Channel.scfg (c : Channel) (m w lo k : Nat) : Nat := c.rd (ENC_SCFG_VALUE m w) / 2 ^ lo % 2 ^ k

/-- A receiver with a record is on: its TICK is at least 30. -/
def Channel.sentOn (c : Channel) (m : Nat) : Bool := c.scfg m 1 16 16 != 0

/-- The receiver of the road-wheel angle shows SFAULT (R75, R305). -/
def Channel.rwaFault (c : Channel) : Bool :=
  [0, 1, 2].any fun m => c.sentOn m && c.scfg m 1 2 1 == 1 && c.is (ENC_SSTAT_SFAULT m)

/-- The units latch C at t0 of bridge S. -/
def Channel.latchT0 (c : Channel) : List Nat → Channel
  | [] => c
  | n :: r => (if c.encOn n then c.wr (ENC_T0_VALUE n) (c.rd (ENC_COUNT_VALUE n)) else c).latchT0 r

/-- The latch at t0 (R297): every unit that is on, and the motor unit's speed. -/
def Channel.latchUnits (c : Channel) : Channel := (c.latchT0 (List.range 6)).wrS ENC_OMEGA_VALUE c.motorOmega

end Sys2Proof.Machine
end

