-- ==== Sys2Proof/Machine/BlockReset.lean ====
section
/-! DEFINITION. Block resets and the channel reset (R425 of 15_fault_collection.md, R167 of 05_core_pair.md). -/

namespace Sys2Proof.Machine

/-- Numbers of the blocks (R425). -/
def blkCMP : Nat := 2
def blkFCE0 : Nat := 4
def blkFCE1 : Nat := 5
def blkGDR : Nat := 7
def blkENC : Nat := 8
def blkSIN : Nat := 9
def blkTTE : Nat := 10
def blkNTC : Nat := 11
def blkCAN0 : Nat := 12
def blkHSH : Nat := 16

/-- The blocks that a block reset may name (R425). -/
def resettable (b : Nat) : Bool := b == 4 || b == 5 || (7 ≤ b && b ≤ 12) || b == 16

/-- A block reset as the steward applies it (R425): the block shows in STW_BLKSTAT and takes its state after reset;
BLOCK_RESET_RELEASE releases it. The pass-through outputs are low meanwhile. The gate-drive block of CP-x follows with GDR_BLOCK_RESET (R274, R275).
DESIGN CHOICE, unsafe: log entry 3. -/
def Channel.blockReset (c : Channel) (b : Nat) : Channel :=
  if !resettable b then c
  else
    let c := c.setBit STW_BLKSTAT_BLK b true
    if b = blkENC then c.passThrough else c

/-- The channel reset (R167, R420, R425, R428): every register takes its reset value but those kept, the parts their
values after reset; FCC_SEV is ORed into FCC_SEVPRE (R418); the supplies, the pins and the debug module (R513) stand as
they are; the channel is held until the wipe is done. `cause` and `src` go to STW_RSTCAUSE. A channel that R415 keeps out
of the herd with its bridges off stays so unless firmware (3) or the MP (4) asked for the reset.
DESIGN CHOICE, unsafe: log entry 3. -/
def Channel.reset (c : Channel) (cause src : Nat) : Channel :=
  let keep := copyRegs c.regs keptRegs (resetRegs c.me)
  let n : Channel :=
    { me := c.me, regs := keep, free := c.free, otp := c.otp,
      enc := c.enc.restart, ntc := {}, fcc := { stayOut := c.fcc.stayOut && !(cause == 3 || cause == 4) }, pwr := { up := c.pwr.up, awake := c.pwr.awake, boot := c.pwr.boot },
      pow := { gden := c.pow.gden }, dbg := { c.dbg with want := 0, trig := [], tsel := [], hregs := [], resumed := 0 } }
  let n := (n.wr (FCC_SEVPRE_SRC 0) (c.rd (FCC_SEVPRE_SRC 0) ||| c.rd (FCC_SEV_SRC 0))).wr (FCC_SEVPRE_SRC 1)
    (c.rd (FCC_SEVPRE_SRC 1) ||| c.rd (FCC_SEV_SRC 1))
  let n := n.wr NTC_EPOCH_EPOCH (c.rd NTC_EPOCH_EPOCH)
  let n := ((n.sat STW_RSTCAUSE_COUNT).wr STW_RSTCAUSE_CAUSE cause).wr STW_RSTCAUSE_SRC src
  if n.fcc.stayOut then n.setCauses 9 true else n

/-- The power-on reset (R489): only the die's OTP and the pins' levels remain.
DESIGN CHOICE, unsafe: log entry 2. -/
def Channel.repower (c : Channel) : Channel :=
  { Channel.powerOn c.me with free := c.free, otp := c.otp, enc := c.enc.restart, pow := { gden := c.pow.gden } }

end Sys2Proof.Machine
end

