-- ==== Sys2Proof/Machine/Flags.lean ====
section
/-! DEFINITION. The fault collector's one operation (R405 to R424 of 15_fault_collection.md): events of the 64 sources
set their status, count, queue their log message and take their reaction set. Every command that raises a source calls
`Channel.raise` or `Channel.raiseAll`. -/

namespace Sys2Proof.Machine

/-- The block that owns each source (R405), by its bit of R425. CORE_WDOG and FCE_OFS name their engine when raised. -/
def blockOf (src : Nat) : Nat :=
  if src ≤ 4 then 2
  else if src ≤ 7 then 0
  else if src = 8 then 15
  else if src ≤ 10 then 0
  else if src = 11 then 4
  else if src ≤ 14 then 6
  else if src ≤ 17 then 3
  else if src ≤ 23 then 4
  else if src ≤ 26 then 5
  else if src ≤ 30 then 6
  else if src ≤ 43 then 7
  else if src ≤ 45 then 8
  else if src ≤ 49 then 9
  else if src ≤ 54 then 10
  else if src ≤ 57 then 11
  else if src ≤ 60 then 12
  else if src = 61 then 7
  else 6

/-- Default class of a source (R405). -/
def defaultClass (src : Nat) : Char :=
  if src ∈ [0, 1, 5] then 'C'
  else if src = 4 then 'F'
  else if src = 11 then 'G'
  else if src ∈ [22, 23] then 'H'
  else if src ∈ [14, 20, 27, 28, 29, 30] then 'B'
  else if 35 ≤ src ∧ src ≤ 41 then 'D'
  else if src ∈ [7, 8, 19, 21, 24, 26, 31, 44, 45, 50, 61] then 'A'
  else 'E'

/-- Reactions (R411): bits of REACT and SEVERE. -/
def rINT : Nat := 1
def rNMI : Nat := 2
def rBRST : Nat := 4
def rCRST : Nat := 8
def rEPIN : Nat := 16

/-- Reaction set, severe set, N and WINDOW of a class (R406). -/
def classSets : Char → Nat × Nat × Nat × Nat
  | 'A' => (1, 17, 1, 1000)
  | 'B' => (1, 17, 3, 10000)
  | 'C' => (24, 24, 1, 1000)
  | 'D' => (5, 21, 2, 1000)
  | 'F' => (2, 26, 2, 1000)
  | 'G' => (5, 21, 3, 10000)
  | 'H' => (1, 17, 2, 60000)
  | _ => (1, 1, 15, 1000)

/-- FCC_CFGn and FCC_WINn that spell the default class of a source (R427). -/
def defaultCfg (src : Nat) : Nat × Nat :=
  let (r, v, n, w) := classSets (defaultClass src)
  (src + r * 2 ^ 8 + v * 2 ^ 16 + n * 2 ^ 24, w)

/-- Word 1 of the configuration in force for a source: the loaded one once FAULTMAP is applied, the default class
before (R540). -/
def Channel.cfgWord (c : Channel) (src : Nat) : Nat :=
  if c.fcc.loaded then c.rd (FCC_CFG_VALUE src) else (defaultCfg src).1

/-- REACT, SEVERE and N in force (R411). -/
def Channel.react (c : Channel) (src : Nat) : Nat := c.cfgWord src / 2 ^ 8 % 32
def Channel.severeSet (c : Channel) (src : Nat) : Nat := c.cfgWord src / 2 ^ 16 % 32
def Channel.severeN (c : Channel) (src : Nat) : Nat := c.cfgWord src / 2 ^ 24 % 16

/-- A source's bit in a pair of registers (R427). -/
def Channel.srcBit (c : Channel) (f : Nat → Fld) (src : Nat) : Bool := c.bit (f (src / 32)) (src % 32)

/-- Set or clear a source's bit in a pair of registers. -/
def Channel.setSrc (c : Channel) (f : Nat → Fld) (src : Nat) (v : Bool) : Channel :=
  c.setBit (f (src / 32)) (src % 32) v

/-- The source is severe in this life of the channel (R418). -/
def Channel.severe (c : Channel) (src : Nat) : Bool := c.srcBit FCC_SEV_SRC src

/-- The reaction set in force (R413). -/
def Channel.setInForce (c : Channel) (src : Nat) : Nat := if c.severe src then c.severeSet src else c.react src

/-- The INT level (R413). -/
def Channel.intLevel (c : Channel) : Bool :=
  (List.range 64).any fun n =>
    c.srcBit FCC_STAT_SRC n && !c.srcBit FCC_MASK_SRC n && (c.setInForce n).testBit 0

/-- A block is enabled and out of reset, so the collector takes its edges (R408). -/
def Channel.blockOn (c : Channel) (b : Nat) : Bool := c.bit STW_BLKEN_BLK b && !c.bit STW_BLKSTAT_BLK b

/-- What a severe source removes of its channel (R405). -/
structure Removes where
  channel : Bool := false
  winding : Bool := false
  pump : Bool := false
  coils : Bool := false
  deriving DecidableEq, Repr

/-- The channel, bridges and coils that a source removes when it becomes severe (R405). -/
def removes (src : Nat) : Removes :=
  if src ∈ [0, 1, 4, 5, 7, 8, 27] then { channel := true }
  else if src ∈ [20, 22, 23, 28, 29, 30, 35] then { winding := true }
  else if src ∈ [24, 36] then { pump := true }
  else if src = 39 then { winding := true, pump := true }
  else if src ∈ [14, 40, 41, 61] then { winding := true, pump := true, coils := true }
  else {}

/-- Network time in ns as the channel stamps it (R366, R437). -/
def Channel.ntNs (c : Channel) : Nat := c.ntc.nt / 2 ^ 24 % 2 ^ 64

/-- A log message with the channel's stamps (R437). -/
def Channel.logMsg (c : Channel) (src code data : Nat) : LogMsg :=
  { origin := c.me.num, mode := c.rd STW_MODE_MODE, epoch := c.rd NTC_EPOCH_EPOCH, nt := c.ntNs, src := src,
    code := code, data := BitVec.ofNat 208 data }

/-- The log queue has room (R436). -/
def Channel.hasRoom (c : Channel) : Bool := c.logq.length < 64

/-- Append a message to the queue. -/
def Channel.pushMsg (c : Channel) (m : LogMsg) : Channel :=
  { c.wr MBX_QSTAT_FILL (c.logq.length + 1) with logq := c.logq ++ [m] }

/-- The data of a collector message (R440): events since the previous one, FCC_LASTT, FCC_LAST. -/
def Channel.fccData (c : Channel) (n : Nat) : Nat :=
  n % 2 ^ 16 + (c.regs.word FCC_LASTT).toNat * 2 ^ 16 + (c.regs.word FCC_LAST).toNat * 2 ^ 48

/-- FCC_LAST and FCC_LASTT (R409, R427). The TB value stamped is a multiple of 20 that lags TB by 0 to 28 counts; which
one R33 does not fix, so it is a free value within that span.
DEDUCED, safe: log entry 57. -/
def Channel.stampLast (c : Channel) (src set : Nat) (sevt inj : Bool) : Channel :=
  let (k, c) := c.draw 2
  let t := c.tb.toNat
  let base := t / 20 * 20
  let v := if k = 1 ∧ t - (base - 20) ≤ 28 ∧ 20 ≤ base then base - 20 else base
  ((((c.wr FCC_LAST_SRC src).wr FCC_LAST_SET set).flag FCC_LAST_SEVT sevt).flag FCC_LAST_INJ inj).wr FCC_LASTT_TB v

/-- Gates that a gate-drive source locks when it becomes severe (R281), in the bit map of R285. -/
def Channel.lockOf (c : Channel) (src : Nat) : Nat :=
  match src with
  | 35 => 0x3F
  | 36 => 0xFC0
  | 37 => 0x1000
  | 38 => c.rd GDR_FLT_LATCH &&& 0x1E000
  | 39 => 0x20FFF
  | 40 => 0x1FFFF
  | 41 => 0x1FFFF
  | _ => 0

/-- The chopper has failed (R254, R281): the limit of regeneration of the channel's bridges is 0 until channel reset. -/
def Channel.chopFailed (c : Channel) : Channel :=
  let c := (c.wr GDR_CHOP_FAILED 1).wr (FCE_REGEN_ZERO 0) 1
  ((c.wr (FCE_REGEN_ZERO 1) 1).wr (FCE_REGEN_REGEN 0) 0).wr (FCE_REGEN_REGEN 1) 0

/-- Effects of a source's becoming severe beside its reaction set: FCC_SEV (R418), the locks of R281, cause bit 9 of an
instance that no other cause holds (R236), the leave of R407 for a source that removes the channel. -/
def Channel.becomeSevere (c : Channel) (src : Nat) : Channel :=
  let c := { c.setSrc FCC_SEV_SRC src true with fcc := { c.fcc with newSev := true } }
  let r := removes src
  let c := if r.channel then { c with fcc := { c.fcc with leave := true } } else c
  if 35 ≤ src ∧ src ≤ 41 then
    let c := c.wr GDR_LOCK_LOCK (c.rd GDR_LOCK_LOCK ||| c.lockOf src)
    (if src = 37 then c.chopFailed else c).gdRefresh
  else
    let ofs (b : Nat) : Bool := src == 19 && !c.bit (FCE_STAT_OFSOK b) b
    let c := if r.winding || ofs 0 then c.setCause .S 9 true else c
    if r.pump || ofs 1 then c.setCause .P 9 true else c

/-- The count of R409 and R417 for one real event, without its message: status, counters, run, severe status, capture.
Answers the reaction set taken and the CODE of its message (0: none due). -/
def Channel.countEvent (c : Channel) (src : Nat) : Channel × Nat × Nat :=
  let c := (c.setSrc FCC_STAT_SRC src true).setSrc FCC_ACT_SRC src true
  let c := c.sat (FCC_CNT_OCC src)
  let run := kget 0 c.fcc.runs src
  let was := c.severe src
  let now := was || c.severeN src ≤ run + 1
  let c := { c with fcc := { c.fcc with
    runs := kset 0 c.fcc.runs src (run + 1), since := kset 0 c.fcc.since src (kget 0 c.fcc.since src + 1) } }
  let c := if now && !was then c.becomeSevere src else c
  let set := if now then c.severeSet src else c.react src
  (c.stampLast src set (now && !was) false, set, if now && !was then 2 else if run = 0 then 1 else 0)

/-- A message dropped on a full queue (R31, R436): DROPS and DCNT count. LOGQ_DROP itself takes no message (R410). -/
def Channel.dropMsg (c : Channel) : Channel := { c.sat MBX_QSTAT_DROPS with dcnt := c.dcnt + 1 }

/-- A reaction still to be taken: source, reaction set, block. -/
abbrev Due := List (Nat × Nat × Nat)

/-- LOGQ_DROP (source 63) as an event that queues nothing.
DEDUCED, unsafe: log entry 34. -/
def Channel.logqDrop (c : Channel) : Channel × Due :=
  let c := if c.fcc.fccInj then c.wr FCC_INJRES_OTHER 1 else c
  let (c, set, _) := c.countEvent 63
  (c, [(63, set, 6)])

/-- Queue a collector message (R410): the events of a dropped message stay counted for the next one (R436). -/
def Channel.queueEvent (c : Channel) (src code : Nat) : Channel × Due :=
  if code = 0 ∨ src = 63 then (c, [])
  else if c.hasRoom then
    let n := kget 0 c.fcc.since src
    ({ c.pushMsg (c.logMsg src code (c.fccData n)) with
        fcc := { c.fcc with since := kset 0 c.fcc.since src 0 } }, [])
  else c.dropMsg.logqDrop

/-- Queue a message that is not the collector's. -/
def Channel.queueMsg (c : Channel) (src code data : Nat) : Channel × Due :=
  if c.hasRoom then (c.pushMsg (c.logMsg src code data), []) else c.dropMsg.logqDrop

/-- A tagged event (R423): its arrival goes to FCC_INJRES, it is logged with CODE 4, and nothing else but the block
reset of its source where BRSTX and REACT ask for it. -/
def Channel.taggedEvent (c : Channel) (src blk : Nat) (brstx : Bool) : Channel × Due :=
  let set := if brstx then c.react src &&& rBRST else 0
  let c := (c.wr FCC_INJRES_SEEN 1).stampLast src set false true
  let (c, due) :=
    if c.hasRoom then (c.pushMsg (c.logMsg src 4 (c.fccData 1)), ([] : Due)) else c.dropMsg.logqDrop
  (c, (src, set, blk) :: due)

/-- One event as the collector sees it (R408, R409, R423, R424). -/
def Channel.event (c : Channel) (src blk : Nat) : Channel × Due :=
  if !c.blockOn blk || c.resetting || c.pwr.off then (c, [])
  else match c.fcc.tag with
    | some (t, brstx) =>
      if t = src then c.taggedEvent src blk brstx
      else
        let c := if c.fcc.fccInj then c.wr FCC_INJRES_OTHER 1 else c
        let (c, set, code) := c.countEvent src
        let (c, due) := c.queueEvent src code
        (c, (src, set, blk) :: due)
    | none =>
      let (c, set, code) := c.countEvent src
      let (c, due) := c.queueEvent src code
      (c, (src, set, blk) :: due)

/-- Events of one cycle, in order. -/
def Channel.events (c : Channel) : List (Nat × Nat) → Channel × Due
  | [] => (c, [])
  | (src, blk) :: r =>
    let (c, d) := c.event src blk
    let (c, ds) := c.events r
    (c, d ++ ds)

/-- ERR_x is driven low (R421): a pulse, HOLD, fail-silence, or the time between channel reset and the seal. A die that
has read VSUP_x below 5.6 V still drives the pin until it is held in reset; below 3.0 V there is no die to read it back.
DEDUCED, unsafe: log entry 71. -/
def Channel.errLow (c : Channel) : Bool :=
  c.fcc.pulse || c.is FCC_EPIN_HOLD || c.failSilent || !c.is STW_SEAL_SEAL

/-- FCC_EPIN.LEVEL reads the pin back (R427). -/
def Channel.errRefresh (c : Channel) : Channel := c.flag FCC_EPIN_LEVEL (!c.errLow)

/-- Start or restart an EPIN pulse (R421). -/
def Channel.epin (c : Channel) : Channel :=
  let c := if c.fcc.pulse then c else c.sat FCC_EPIN_PULSES
  { c with fcc := { c.fcc with pulse := true } }

/-- A CRST of this source is performed (R415): not for a source that is severe in a channel that has not voted in this
life.
DEDUCED, unsafe: log entry 32. -/
def Channel.crstHonoured (c : Channel) (src : Nat) : Bool := !(c.severe src && !c.voted)

/-- Block resets that the due reactions name; GD_STCMD takes none (R268). -/
def Channel.brsts (c : Channel) : Due → Channel
  | [] => c
  | (src, set, blk) :: r => (if set.testBit 2 && src != 42 then c.blockReset blk else c).brsts r

/-- NMIs taken, once per event (R413). -/
def Channel.nmis (c : Channel) : Due → Channel
  | [] => c
  | (_, set, _) :: r =>
    (if set.testBit 1 then { c with fcc := { c.fcc with nmis := c.fcc.nmis + 1 } } else c).nmis r

/-- The combined reactions of one cycle (R413): a CRST supersedes every BRST; the CRST of a fail-silent channel is the
reset that R159 wires. A CRST not performed leaves the channel out of the herd with its bridges off (R415). -/
def Channel.reactAll (c : Channel) (due : Due) : Channel :=
  let c := c.nmis due
  let c := if due.any (fun d => d.2.1.testBit 4) then c.epin else c
  let crsts := due.filter fun d => d.2.1.testBit 3
  let c := if crsts.any (fun d => !c.crstHonoured d.1) then
      ({ c with fcc := { c.fcc with stayOut := true } }).setCauses 9 true else c
  match crsts.find? (fun d => c.crstHonoured d.1) with
  | some d => if c.failSilent then c.errRefresh else (c.reset 1 d.1).errRefresh
  | none => (c.brsts due).errRefresh

/-- Events of one cycle with their reactions.
DESIGN CHOICE, safe: log entry 76. -/
def Channel.raiseAll (c : Channel) (l : List (Nat × Nat)) : Channel :=
  let (c, due) := c.events l
  c.reactAll due

/-- One event of a source of its own block, with its reaction. -/
def Channel.raise (c : Channel) (src : Nat) : Channel := c.raiseAll [(src, blockOf src)]

/-- Raise a source when a condition holds. -/
def Channel.raiseIf (c : Channel) (p : Bool) (src : Nat) : Channel := if p then c.raise src else c

/-- A message of the channel's hardware or firmware enters the log queue (R436, R438). -/
def Channel.log (c : Channel) (src code data : Nat) : Channel :=
  let (c, due) := c.queueMsg src code data
  c.reactAll due

/-- A message that the spec wants in the log and gives no SRC in R440 (R107, R171): its SRC lies in the range that R440
leaves to firmware, SRC and CODE are free values.
DESIGN CHOICE, unsafe: log entry 83. -/
def Channel.logUnnamed (c : Channel) (data : Nat) : Channel :=
  let (src, c) := c.draw 0x8000
  let (code, c) := c.draw 0x10000
  c.log (0x8000 + src) code data

end Sys2Proof.Machine
end

