-- ==== Sys2Proof/Machine/FaultColl.lean ====
section
/-! DEFINITION. The commands of the fault collector and the steward's reset requests (15_fault_collection.md). -/

namespace Sys2Proof.Machine

/-- FAULT_EVENT (R409): a rising edge on the error line of a source. -/
def execFaultEvent (ch : Chan) (src : Fin 64) (s : State) : Out := .next (s.onLive ch fun c => c.raise src)

/-- R417: a run that reaches WINDOW closes. -/
def Channel.closeRun (c : Channel) (src : Nat) : Channel :=
  { c with fcc := { c.fcc with runs := kset 0 c.fcc.runs src 0 } }

/-- RUN_WINDOW_END (R417). -/
def execRunWindowEnd (ch : Chan) (src : Fin 64) (s : State) : Out := .next (s.onLive ch fun c => c.closeRun src)

/-- R419: at the end of QUIET an active source that is not severe recovers: FCC_ACT clears, REC counts, CODE 3 is
queued (not for LOGQ_DROP, R410). -/
def Channel.recover (c : Channel) (src : Nat) : Channel :=
  if c.srcBit FCC_ACT_SRC src && !c.severe src then
    let c := (c.setSrc FCC_ACT_SRC src false).sat (FCC_CNT_REC src)
    let (c, due) := c.queueEvent src 3
    c.reactAll due
  else c

/-- RECOVERY (R419). -/
def execRecovery (ch : Chan) (src : Fin 64) (s : State) : Out := .next (s.onLive ch fun c => c.recover src)

/-- EPIN_PULSE_END (R421): the pin is released unless another condition holds it. -/
def execEpinPulseEnd (ch : Chan) (s : State) : Out :=
  .next (s.onLive ch fun c => { c with fcc := { c.fcc with pulse := false } }.errRefresh)

/-- FCC_EPIN_HOLD (R421): firmware writes HOLD. -/
def execFccEpinHold (ch : Chan) (hold : Bool) (s : State) : Out :=
  .next (s.onLive ch fun c => (c.flag FCC_EPIN_HOLD hold).errRefresh)

/-- A write to LCK fields after the seal is ignored, counted and flagged (R69, R72): SEALADDR takes the first address,
and SEAL_VIOL is raised. -/
def Channel.sealViolation (c : Channel) (addr : Nat) : Channel :=
  let c := if c.is STW_SEAL_VIOL then c else c.wr STW_SEALADDR_ADDR addr
  ((c.wr STW_SEAL_VIOL 1).sat STW_SEAL_VIOL_CNT).raise 9

/-- The fields of FCC_INJ that an injection write sets. -/
def Channel.injFields (c : Channel) (v : Word) : Channel :=
  ((c.wr FCC_INJ_SRC v.toNat).wr FCC_INJ_DUR (v.toNat / 2 ^ 8)).wr FCC_INJ_BRSTX (v.toNat / 2 ^ 16)

/-- A write to FCC_INJ (R423, R424): ignored while an injection runs; START forces the source's error output, whose edge
arrives tagged `latency` PER_x cycles later. -/
def Channel.injStart (c : Channel) (v : Word) (latency : Nat) : Channel :=
  if c.is FCC_INJ_START then c
  else if c.is STW_SEAL_SEAL then
    if v.toNat % 2 ^ 6 = c.rd FCC_INJ_SRC ∧ v.toNat / 2 ^ 8 % 2 ^ 8 = c.rd FCC_INJ_DUR ∧
        v.toNat / 2 ^ 16 % 2 = c.rd FCC_INJ_BRSTX ∧ v.toNat / 2 ^ 31 = 0 then c
    else c.sealViolation FCC_INJ
  else
    let c := c.injFields v
    if v.toNat / 2 ^ 31 = 0 then c
    else
      let src := v.toNat % 2 ^ 6
      let c := (c.wr FCC_INJ_START 1).wrWord FCC_INJRES 0
      let c := { c with fcc := { c.fcc with
        tag := some (src, v.toNat / 2 ^ 16 % 2 = 1), fccInj := true, released := false } }
      let c := c.raise src
      if c.is FCC_INJRES_SEEN then c.wr FCC_INJRES_LAT (min latency 65535) else c

/-- FCC_INJ_START (R423). -/
def execFccInjStart (ch : Chan) (v : Word) (latency : Nat) (s : State) : Out :=
  .next (s.onLive ch fun c => c.injStart v latency)

/-- INJECTION_RELEASE (R423): DUR has run and the force is released. -/
def execInjectionRelease (ch : Chan) (s : State) : Out :=
  .next (s.onLive ch fun c => if c.fcc.fccInj then { c with fcc := { c.fcc with released := true } } else c)

/-- R424: 200 ns after the release the tagging ends and the output is sampled; a level still high is a real event. -/
def Channel.injSample (c : Channel) (high : Bool) : Channel :=
  if c.fcc.fccInj && c.fcc.released then
    let src := c.rd FCC_INJ_SRC
    let c := { c.wr FCC_INJ_START 0 with fcc := { c.fcc with tag := none, fccInj := false, released := false } }
    if high then (c.wr FCC_INJRES_REAL 1).raise src else c
  else c

/-- INJECTION_SAMPLE (R424). -/
def execInjectionSample (ch : Chan) (stillHigh : Bool) (s : State) : Out :=
  .next (s.onLive ch fun c => c.injSample stillHigh)

/-- The steward refuses a request (R29, R426): counted and reported. -/
def Channel.refuse (c : Channel) : Channel := (c.sat STW_REFUSE_COUNT).raise 10

/-- Block and channel resets are honoured for a channel that is not a voting member, or in SERVICE or PARK (R29). -/
def Channel.mayReset (c : Channel) : Bool := !c.voting || c.rd STW_MODE_MODE == 6 || c.rd STW_MODE_MODE == 7

/-- The blocks that a mask names. -/
def blocksOf (mask : Word) : List Nat := (List.range 17).filter fun b => mask.toNat.testBit b

/-- Reset each of the blocks. -/
def Channel.blockResets (c : Channel) : List Nat → Channel
  | [] => c
  | b :: r => (c.blockReset b).blockResets r

/-- A request for block resets (R426): one that names a block that is not resettable has no effect. -/
def Channel.requestBlkrst (c : Channel) (mask : Word) : Channel :=
  if c.mayReset && (blocksOf mask).all resettable then c.blockResets (blocksOf mask) else c.refuse

/-- STW_BLKRST_WRITE (R426). -/
def execStwBlkrstWrite (ch : Chan) (v : Word) (s : State) : Out := .next (s.onLive ch fun c => c.requestBlkrst v)

/-- A write of STW_CHRST (R426): 0xC3A5 requests a channel reset with cause 3; other values are ignored. -/
def Channel.requestChrst (c : Channel) (v : Word) : Channel :=
  if v.toNat % 2 ^ 16 ≠ 0xC3A5 then c
  else if c.mayReset then (c.reset 3 0).errRefresh else c.refuse

/-- STW_CHRST_WRITE (R426). -/
def execStwChrstWrite (ch : Chan) (v : Word) (s : State) : Out := .next (s.onLive ch fun c => c.requestChrst v)

/-- An engine's hart is halted (R509); its watchdog is paused (R516), and `kicks` then holds the counts it had run. -/
def Channel.engHalted (c : Channel) (eng : Nat) : Bool := c.bit STW_DBG_HALTED (eng + 1)

/-- Counts of TB that an engine's watchdog has run since the latest kick (R416, R516). -/
def Channel.sinceKick (c : Channel) (eng : Nat) : Nat :=
  if c.engHalted eng then kget 0 c.fcc.kicks eng else (c.tb.toNat + 2 ^ 48 - kget 0 c.fcc.kicks eng) % 2 ^ 48

/-- An engine's watchdog stands at `n` counts. -/
def Channel.setKick (c : Channel) (eng n : Nat) : Channel :=
  let v := if c.engHalted eng then n else (c.tb.toNat + 2 ^ 48 - n) % 2 ^ 48
  { c with fcc := { c.fcc with kicks := kset 0 c.fcc.kicks eng v } }

/-- R416: a kick restarts the watchdog of engine 1 (FCE0), 2 (FCE1) or 3 (NETE); 0 names none.
DEDUCED, unsafe: log entry 58. -/
def Channel.kick (c : Channel) (eng : Nat) : Channel := if eng = 0 then c else c.setKick eng 0

/-- A hart halts or runs again (R509, R516).
DEDUCED, unsafe: log entry 58. -/
def Channel.setHalted (c : Channel) (hart : Nat) (h : Bool) : Channel :=
  let n := c.sinceKick (hart - 1)
  let c := c.setBit STW_DBG_HALTED hart h
  if 2 ≤ hart then c.setKick (hart - 1) n else c

/-- The harts of a mask halt. -/
def Channel.haltHarts (c : Channel) (mask : BitVec 5) : Channel :=
  [0, 1, 2, 3, 4].foldl (fun c h => if mask.getLsbD h then c.setHalted h true else c) c

/-- STW_KICK (R416). -/
def execStwKick (ch : Chan) (eng : Fin 4) (s : State) : Out := .next (s.onLive ch fun c => c.kick eng)

/-- The block of an engine (R412). -/
def engineBlock (eng : Nat) : Nat := if eng = 1 then blkFCE0 else if eng = 2 then blkFCE1 else blkTTE

/-- 10 ms, 2,000,000 counts of TB, have passed since the engine's latest kick (R416).
DESIGN CHOICE, unsafe: log entry 7; DEDUCED, unsafe: log entry 58. -/
def Channel.kickOverdue (c : Channel) (eng : Nat) : Bool :=
  2000000 ≤ c.sinceKick eng

/-- CORE_WDOG (R416): the watchdog of a released engine expires, the source is raised for that engine's block, and the
watchdog restarts. -/
def execCoreWdog (ch : Chan) (eng : Fin 4) (s : State) : Out :=
  .next (s.onLive ch fun c =>
    if c.fcc.engines.getLsbD eng && eng != 0 && !c.engHalted eng && c.kickOverdue eng then (c.kick eng).raiseAll [(11, engineBlock eng)]
    else c)

/-- TEMP_CD (R405): CD-x junction at or above 140 °C. -/
def execTempCd (ch : Chan) (s : State) : Out := .next (s.onLive ch fun c => c.raise 6)

/-- CP_WDOG (R405): the CP-x watchdog on RCO_x found PCLK_x absent or out of range. -/
def execCpWdog (ch : Chan) (s : State) : Out := .next (s.onLive ch fun c => c.raise 61)

/-- D2D_ERR (R405): a die-to-die frame failed its check or is missing. -/
def execD2dErr (ch : Chan) (s : State) : Out := .next (s.onLive ch fun c => c.raise 14)

/-- The fail-silent line (R21, R159): cores stopped, transmitters off, the bridges under cause bit 5 with the last speed
word held (R236, R238), ERR_x low. -/
def Channel.goSilent (c : Channel) : Channel :=
  let c := { c with failSilent := true, pow := { c.pow with fsCause := true } }
  (c.setCauses 5 true).errRefresh

/-- CLK_FAIL (R21): the clock monitor drives the fail-silent line directly; the report reaches the collector only where
PER_x still has its clock. -/
def execClkFail (ch : Chan) (reportArrives : Bool) (s : State) : Out :=
  .next (s.onLive ch fun c =>
    let c := c.goSilent
    if reportArrives then c.raise 5 else c)

end Sys2Proof.Machine
end

