-- ==== Sys2Proof/Machine/Hash.lean ====
section
/-! DEFINITION. The checks and hashes that the rules name: CRC-16 with polynomial 0x1021 (R23), CRC-32C (R160), the
CRC-32 of IEEE 802.3 (R439) and SHA-256 (FIPS 180-4), which the spec names by their standards. -/

namespace Sys2Proof.Machine

/-- One byte through a reflected 32-bit CRC. -/
def crcByteR (poly : Nat) (crc : Nat) (b : Byte) : Nat :=
  (List.range 8).foldl (fun c _ => if c % 2 = 1 then Nat.xor (c / 2) poly else c / 2) (Nat.xor crc b.toNat)

/-- CRC-32 of IEEE 802.3 (R439 of 16_management_and_log.md): reflected, initial value and final complement all ones.
PRESUMED, unsafe: log entry 20. -/
def crc32 (bs : List Byte) : Nat := Nat.xor (bs.foldl (crcByteR 0xEDB88320) 0xFFFFFFFF) 0xFFFFFFFF

/-- CRC-32C (R160 of 05_core_pair.md), from an initial value. -/
def crc32cFrom (init : Nat) (bs : List Byte) : Nat := Nat.xor (bs.foldl (crcByteR 0x82F63B78) init) 0xFFFFFFFF

/-- CRC-32C with the initial value all ones.
PRESUMED, unsafe: log entry 20. -/
def crc32c (bs : List Byte) : Nat := crc32cFrom 0xFFFFFFFF bs

/-- CRC-16 with polynomial 0x1021 and initial value 0xFFFF (R23 of 01_architecture.md), most significant bit first.
PRESUMED, unsafe: log entry 20. -/
def crc16 (bs : List Byte) : Nat :=
  bs.foldl (fun crc b =>
    (List.range 8).foldl (fun c _ => if 32768 ≤ c then Nat.xor (c * 2 % 65536) 0x1021 else c * 2)
      (Nat.xor crc (b.toNat * 256))) 0xFFFF

/-- Bytes of a list of little-endian words (R8). -/
def wordBytes : List Word → List Byte
  | [] => []
  | w :: ws => leBytes 4 w.toNat ++ wordBytes ws

/-! SHA-256. The standard defines its constants by the first primes: the first 32 fraction bits of their square roots
(initial value) and cube roots (round constants). They are computed here from that definition. The working words stand in
one list, newest first, a round putting two words in front of what it keeps. -/

/-- No number from 2 up to `d + 1` divides `n`. -/
def noDivisor (n : Nat) : Nat → Bool
  | 0 => true
  | d + 1 => decide (n % (d + 2) ≠ 0) && noDivisor n d

/-- The primes below `n`, rising. -/
def primesBelow (n : Nat) : List Nat := (List.range n).filter fun p => decide (2 ≤ p) && noDivisor p (p - 2)

/-- The largest `r` below `2 ^ bits` beyond `acc` with `r ^ e ≤ v`, bit by bit. -/
def rootBits (e v : Nat) : Nat → Nat → Nat
  | 0, acc => acc
  | bits + 1, acc => rootBits e v bits (if (acc + 2 ^ bits) ^ e ≤ v then acc + 2 ^ bits else acc)

/-- The first 32 fraction bits of the `e`-th root of `p`. -/
def rootFraction (e p : Nat) : Word := BitVec.ofNat 32 (rootBits e (p * 2 ^ (32 * e)) 37 0)

/-- The sum of three rotations (`last` false), or of two rotations and a shift. -/
def shaMix (last : Bool) (x y z : Nat) (v : Word) : Word :=
  v.rotateRight x ^^^ v.rotateRight y ^^^ (if last then v >>> z else v.rotateRight z)

/-- The message schedule, newest word first: `n` words put before the block's. -/
def shaSchedule : Nat → List Word → List Word
  | 0, ws => ws
  | n + 1, ws =>
    shaSchedule n ((shaMix true 17 19 10 (ws.getD 1 0) + ws.getD 6 0 + shaMix true 7 18 3 (ws.getD 14 0) + ws.getD 15 0) :: ws)

/-- One round on the eight words; `kw` is the round constant plus the schedule's word. -/
def shaRound (st : List Word) (kw : Word) : List Word :=
  match st with
  | [p, q, r, s, t, u, v, w] =>
    let add := kw + w + shaMix false 6 11 25 t + (v ^^^ (t &&& (u ^^^ v)))
    [add + shaMix false 2 13 22 p + ((p &&& q) ||| (r &&& (p ||| q))), p, q, r, s + add, t, u, v]
  | other => other

/-- The compression of one block of 16 words into the chaining value. -/
def shaBlock (st ws : List Word) : List Word :=
  let consts := (primesBelow 312).map (rootFraction 3)
  let kws := List.zipWith (· + ·) consts (shaSchedule 48 ws.reverse).reverse
  List.zipWith (· + ·) st (kws.foldl shaRound st)

/-- Big-endian words of bytes. -/
def beWords : List Byte → List Word
  | a :: b :: c :: d :: r => (a ++ b ++ c ++ d : BitVec 32) :: beWords r
  | _ => []

/-- Big-endian bytes of a number. -/
def beBytes : Nat → Nat → List Byte
  | 0, _ => []
  | n + 1, v => beBytes n (v / 256) ++ [BitVec.ofNat 8 v]

/-- All blocks of a padded message, 16 words each. -/
def shaBlocks : Nat → List Word → List Word → List Word
  | 0, _, st => st
  | n + 1, ws, st => shaBlocks n (ws.drop 16) (shaBlock st (ws.take 16))

/-- SHA-256 padding. -/
def shaPad (bs : List Byte) : List Byte :=
  bs ++ [0x80] ++ List.replicate ((119 - bs.length % 64) % 64) 0 ++ beBytes 8 (8 * bs.length)

/-- SHA-256 of a byte string: 32 bytes.
PRESUMED, unsafe: log entry 20. -/
def sha256 (bs : List Byte) : List Byte :=
  let p := shaPad bs
  (shaBlocks (p.length / 64) (beWords p) ((primesBelow 20).map (rootFraction 2))).flatMap fun w => beBytes 4 w.toNat

/-- A byte string as the number it spells little-endian, for comparison with stored hashes. -/
def hashNat (bs : List Byte) : Nat := leNat bs

end Sys2Proof.Machine
end

