-- ==== Sys2Proof/Machine/CorePair.lean ====
section
/-! DEFINITION. The application core pair, its comparator and the memories of a channel (05_core_pair.md). -/

namespace Sys2Proof.Machine

/-- Capture of a fail-silent event in CMP_LAST and CMP_LASTPC (R159, R174). -/
def Channel.captureCmp (c : Channel) (kind group : Nat) (pc : Word) : Channel :=
  (((c.wr CMP_LAST_KIND kind).wr CMP_LAST_GROUP group).sat CMP_LAST_EVENTS).wrWord CMP_LASTPC pc

/-- The content of the divergence report (R159, R440). -/
def Channel.divData (c : Channel) : Nat := (c.regs.word CMP_LAST).toNat + (c.regs.word CMP_LASTPC).toNat * 2 ^ 32

/-- A failing step ends the sweep (R166): CMP_SWEEP records the step and what was reported. -/
def Channel.sweepEnd (c : Channel) (kind group : Nat) : Channel :=
  let c := ((c.wr CMP_SWEEP_RKIND kind).wr CMP_SWEEP_RGROUP group).wr CMP_SWEEP_FAILED 1
  let c := ((c.wr CMP_SWEEP_STEP c.cmp.step).wr CMP_STAT_SWEEPRUN 0).wr CMP_STAT_SWEEPOK 0
  { c with cmp := { c.cmp with swept := true } }

/-- The sweep fails with nothing reported (R166): CMP_SELF is raised as a real event and the channel stays out of the
herd.
DEDUCED, unsafe: log entry 33. -/
def Channel.sweepFail (c : Channel) (kind group : Nat) : Channel := (c.sweepEnd kind group).raise 1

/-- A fail-silent event of the comparator (R158, R159): capture, stop, report, source. A digest that is being taken is
abandoned (R164). During the sweep it is also a result the step does not expect (R166).
DEDUCED, unsafe: log entry 32. -/
def Channel.diverge (c : Channel) (kind group : Nat) (pc : Word) (src : Nat) : Channel :=
  let c := (c.captureCmp kind group pc).wr CMP_STAT_DIGBUSY 0
  let c := if c.is CMP_STAT_SWEEPRUN then c.sweepEnd kind group else c
  (c.goSilent.log 0x0101 0 c.divData).raise src

/-- CMP_DIV (R159): outbound signals of a group differ. In split configuration the comparator is inactive (R172). -/
def execCmpDiv (ch : Chan) (group : Fin 64) (pc : Word) (s : State) : Out :=
  .next (s.onLive ch fun c => if c.lockstep then c.diverge 1 group pc 0 else c)

/-- KIND and GROUP of a checker fault (R174). -/
def selfCode : SelfKind → Nat × Nat
  | .checker t => (2, t)
  | .parity r => (3, r)

/-- CMP_SELF (R159): a checker code violation or a delay-register parity error. -/
def execCmpSelf (ch : Chan) (kind : SelfKind) (pc : Word) (s : State) : Out :=
  .next (s.onLive ch fun c => if c.lockstep then c.diverge (selfCode kind).1 (selfCode kind).2 pc 1 else c)

/-- DIGEST_DUE (R160, R161): the quiesce request; skipped while the debug module halts the pair. -/
def execDigestDue (ch : Chan) (s : State) : Out :=
  .next (s.onLive ch fun c =>
    if c.lockstep && c.rd STW_DBG_HALTED % 2 == 0 then c.wr CMP_STAT_DIGBUSY 1 else c)

/-- R160, R162: both CRCs are formed and compared; a mismatch raises CMP_LATENT, and its re-synchronisation waits as
RESYNC unless the conditions of R162 hold at the next heartbeat. -/
def Channel.digest (c : Channel) (lead trail : List Word) (stall : Nat) : Channel :=
  if c.is CMP_STAT_DIGBUSY then
    let l := crc32c (wordBytes lead)
    let t := crc32c (wordBytes trail)
    let c := (((c.wr CMP_DIGL_CRC l).wr CMP_DIGT_CRC t).wr CMP_STAT_DIGBUSY 0).inc CMP_DIGSTAT_TAKEN
    let c := c.wr CMP_DIGSTAT_STALL stall
    if l = t then c
    else
      let c := c.sat CMP_LATCNT_COUNT
      let c := { c with cmp := { c.cmp with latent := true } }
      (if c.rd STW_MODE_MODE == 2 && c.rd HRD_ROT_KIND == 0 then c else c.wr CMP_STAT_RESYNC 1).raise 2
  else c

/-- DIGEST_TAKEN (R160). -/
def execDigestTaken (ch : Chan) (lead trail : List Word) (stall : Nat) (s : State) : Out :=
  .next (s.onLive ch fun c => c.digest lead trail stall)

/-- SELF, POL and GROUP of each sweep step (R165).
DEDUCED, unsafe: log entry 33. -/
def sweepStep (n : Nat) : Nat × Nat × Nat :=
  if n < 64 then (0, 0, n)
  else if n < 128 then (0, 1, n - 64)
  else if n = 128 then (1, 0, 0)
  else if n = 129 then (2, 0, 0)
  else if n = 130 then (3, 0, 0)
  else (3, 1, 0)

/-- The source that an injection is expected to report (R165): CMP_DIV for a group difference, else CMP_SELF. -/
def injExpect (self : Nat) : Nat := if self = 0 then 0 else 1

/-- CMP_LAST.KIND of an injection (R165, R174): a difference, a parity error of a delay register, a checker's code. -/
def injKind (self : Nat) : Nat := if self = 0 then 1 else if self = 3 then 2 else 3

/-- The last step of the sweep: in split configuration only steps 128 and 129 run (R172). -/
def Channel.lastStep (c : Channel) : Nat := if c.lockstep then 131 else 129

/-- The report of an injection that the table expects (R165, R423): it reaches the collector tagged. -/
def Channel.injTagged (c : Channel) (src : Nat) : Channel :=
  let c := { c with fcc := { c.fcc with tag := some (src, false) } }.raise src
  { c with fcc := { c.fcc with tag := none } }

/-- A report that the injection does not expect is a real event with the action of R159, which stays armed (R165, R166);
the lead core's program counter at it is a free value. In the sweep CMP_SELF follows as a real event.
DEDUCED, unsafe: log entry 33. -/
def Channel.injReal (c : Channel) (kind group : Nat) : Channel :=
  let (pc, c) := c.draw (2 ^ 32)
  let sweep := c.is CMP_STAT_SWEEPRUN
  let c := c.diverge kind group (BitVec.ofNat 32 pc) (if kind = 1 then 0 else 1)
  c.raiseIf (sweep && kind == 1) 1

/-- One injection with START (R165, R166). As the step of a running sweep, the last step that passes sets SWEEPOK and
hands over to bring-up step 6 (R490). In a running sweep an injection that is not the current step's is an event that the
step does not expect, so it is real. CMP_LAST shows the result only until the step clears it. Checker trees that
disagree are a code violation (R156).
DEDUCED, unsafe: log entry 33. -/
def Channel.cmpInject (c : Channel) (v : Word) (rep : InjReport) : Channel :=
  let self := v.toNat / 2 ^ 10 % 4
  let pol := v.toNat / 2 ^ 8 % 2
  let group := v.toNat % 64
  let c := ((c.wr CMP_INJ_SELF self).wr CMP_INJ_POL pol).wr CMP_INJ_GROUP group
  if v.toNat / 2 ^ 31 = 0 then c
  else
    match rep with
    | .expected =>
      let (xs, xp, xg) := sweepStep c.cmp.step
      if !c.is CMP_STAT_SWEEPRUN then c.injTagged (injExpect self)
      else if self == xs && (pol == xp || self == 1 || self == 2) && (group == xg || self != 0) then
        let c := (c.injTagged (injExpect self)).wr CMP_SWEEP_STEP c.cmp.step
        if c.cmp.step = c.lastStep then
          ((c.wr CMP_STAT_SWEEPRUN 0).wr CMP_STAT_SWEEPOK 1).wr PWR_BOOT_STEP 6
        else { c with cmp := { c.cmp with step := c.cmp.step + 1 } }
      else c.injReal (injKind self) (if self = 0 then group else if self = 1 then 0 else if self = 2 then 1 else pol)
    | .other k g =>
      if k.val = 0 then (if c.is CMP_STAT_SWEEPRUN then c.sweepFail 0 0 else c) else c.injReal k g
    | .treesDisagree =>
      let (tree, c) := c.draw 2
      c.injReal 2 tree

/-- A write of CMP_INJ is refused after the seal (R69). -/
def Channel.cmpInjStart (c : Channel) (v : Word) (rep : InjReport) : Channel :=
  if c.is STW_SEAL_SEAL then
    if v.toNat / 2 ^ 10 % 4 = c.rd CMP_INJ_SELF ∧ v.toNat / 2 ^ 8 % 2 = c.rd CMP_INJ_POL ∧
        v.toNat % 64 = c.rd CMP_INJ_GROUP ∧ v.toNat / 2 ^ 31 = 0 then c
    else c.sealViolation CMP_INJ
  else c.cmpInject v rep

/-- CMP_INJ_START (R165). -/
def execCmpInjStart (ch : Chan) (v : Word) (rep : InjReport) (s : State) : Out :=
  .next (s.onLive ch fun c => c.cmpInjStart v rep)

/-- SWEEP_STEP_TIMEOUT (R166): the expected source was not reported within 16 APP_x cycles. -/
def execSweepStepTimeout (ch : Chan) (s : State) : Out :=
  .next (s.onLive ch fun c => if c.is CMP_STAT_SWEEPRUN then c.sweepFail 0 0 else c)

/-- STW_RSTCAUSE.CAUSE and SRC of a channel reset (R428). -/
def causeCode : ResetCause → Nat × Nat
  | .powerOn => (0, 0)
  | .crst src => (1, src)
  | .failSilent => (2, 0)
  | .firmware => (3, 0)
  | .mp => (4, 0)
  | .plannedAbsence => (5, 0)
  | .severeLeave => (6, 0)

/-- CHANNEL_RESET (R167): the wipe begins; a power-on reset clears also what other resets keep. -/
def execChannelReset (ch : Chan) (cause : ResetCause) (s : State) : Out :=
  .next (s.onPower ch fun c =>
    match cause with
    | .powerOn => c.repower.errRefresh
    | _ => (c.reset (causeCode cause).1 (causeCode cause).2).errRefresh)

/-- The life-cycle state DEVELOPMENT (R467 of 17_security_and_update.md). -/
def lcDevelopment : Nat := 2

/-- The sweep begins (R165): bring-up step 5. -/
def Channel.startSweep (c : Channel) : Channel :=
  let c := (((c.wr PWR_BOOT_STEP 5).wr CMP_STAT_SWEEPRUN 1).wr CMP_STAT_SWEEPOK 0).wrWord CMP_SWEEP 0
  { c with cmp := { c.cmp with step := if c.lockstep then 0 else 128 } }

/-- The wipe is done and the channel released (R167, R490): SPLIT_x is sampled, an ignored pin is reported for the log
(R171; no SRC of R440: `Channel.logUnnamed`), the bring-up goes on with the
BIST, or with the sweep when HRD_NEXTSRC.STPASS is set (R139). A split channel's gate drive is held in block reset (R173). -/
def Channel.wiped (c : Channel) (split : Bool) (lc : Nat) : Channel :=
  let c := { c with resetting := false }
  let c := if split then (if lc = lcDevelopment then c.wr CMP_STAT_SPLIT 1 else (c.wr CMP_STAT_SPLITIGN 1).logUnnamed 0) else c
  let c := if c.lockstep then c else ((c.blockReset blkGDR).gdrAtDie).setCauses 8 true
  let c := if c.is HRD_NEXTSRC_STPASS then c.startSweep else c.wr PWR_BOOT_STEP 4
  c.gdRefresh.errRefresh

/-- WIPE_DONE (R167). -/
def execWipeDone (ch : Chan) (splitPin : Bool) (s : State) : Out :=
  .next (s.on ch fun c =>
    if c.resetting && !c.pwr.off then c.wiped splitPin (s.mss.rd KEY_STAT_LC) else c)

/-- A memory of a channel. -/
def Channel.mem (c : Channel) : MemId → Memory
  | .sram => c.sram
  | .itcm => c.itcm
  | .dtcm => c.dtcm
  | .fce0 => c.fce0
  | .fce1 => c.fce1
  | .nete => c.nete

/-- Replace a memory. -/
def Channel.setMem (c : Channel) (m : MemId) (x : Memory) : Channel :=
  match m with
  | .sram => { c with sram := x }
  | .itcm => { c with itcm := x }
  | .dtcm => { c with dtcm := x }
  | .fce0 => { c with fce0 := x }
  | .fce1 => { c with fce1 := x }
  | .nete => { c with nete := x }

/-- First address and size of each memory in its cores' map (R32, R36, R177). -/
def memRange : MemId → Nat × Nat
  | .sram => (0x20000000, 0x200000)
  | .itcm => (0, 0x40000)
  | .dtcm => (0x100000, 0x20000)
  | .fce0 => (0, 0x10000)
  | .fce1 => (0, 0x10000)
  | .nete => (0, 0x20000)

/-- `n` bytes from `a` lie inside the memory. -/
def inMem (m : MemId) (a n : Nat) : Bool :=
  (memRange m).1 ≤ a && a + n ≤ (memRange m).1 + (memRange m).2

/-- The address that CMP_ECCCEA and CMP_ECCUEA show (R174): the word's, FCE and NETE TCMs marked in bits 31:28. -/
def eccAddr (m : MemId) (a : Nat) : Nat :=
  let w := a / 4 * 4
  match m with
  | .fce0 => 0x80000000 + w
  | .fce1 => 0x90000000 + w
  | .nete => 0xA0000000 + w
  | _ => w

/-- A corrected error (R169).
DEDUCED, unsafe: log entry 34. -/
def Channel.eccCe (c : Channel) (m : MemId) (a : Nat) : Channel :=
  ((c.sat CMP_ECC_CE).wr CMP_ECCCEA_ADDR (eccAddr m a)).raise 3

/-- An uncorrectable error (R169).
DEDUCED, unsafe: log entry 34. -/
def Channel.eccUe (c : Channel) (m : MemId) (a : Nat) : Channel :=
  ((c.sat CMP_ECC_UE).wr CMP_ECCUEA_ADDR (eccAddr m a)).raise 4

/-- Bytes of an access (R10). -/
def AccSize.bytes : AccSize → Nat
  | .byte => 1
  | .half => 2
  | .word => 4

/-- Bytes that a memory operation covers. -/
def MemOp.bytes : MemOp → Nat
  | .load z => AccSize.bytes z
  | .store z _ => AccSize.bytes z

/-- The access itself: a load delivers its bytes, a store writes them. -/
def Channel.memDo (c : Channel) (m : MemId) (a : Nat) (op : MemOp) : Channel :=
  match op with
  | .load z => { c with bus := .ok (BitVec.ofNat 32 (leNat ((c.mem m).readBytes a (AccSize.bytes z)))) }
  | .store z v => { c.setMem m ((c.mem m).writeBytes a (leBytes (AccSize.bytes z) v.toNat)) with bus := .ok 0 }

/-- A core access under SECDED (R168, R169): a single-bit error is corrected, counted and raised; a double-bit or
address error ends the access in a bus error and leaves the word, which for a store of a whole word the spec does not say;
an access outside the memory is a bus error (R36).
DESIGN CHOICE, unsafe: log entry 84. -/
def Channel.memAccess (c : Channel) (m : MemId) (a : Nat) (op : MemOp) (ecc : Ecc) : Channel :=
  if !inMem m a (MemOp.bytes op) then { c with bus := .error }
  else match ecc with
    | .clean => c.memDo m a op
    | .single => (c.memDo m a op).eccCe m a
    | .double => { c with bus := .error }.eccUe m a

/-- PATROL_SCRUB (R170): the word read is corrected, or found uncorrectable, as in R169. -/
def execPatrolScrub (ch : Chan) (mem : MemId) (addr : Nat) (ecc : Ecc) (s : State) : Out :=
  .next (s.onLive ch fun c =>
    if !inMem mem addr 1 then c
    else match ecc with
      | .clean => c
      | .single => c.eccCe mem addr
      | .double => c.eccUe mem addr)

/-- HART1_RELEASE (R172): PC and RUN of CMP_HART1; ignored in lockstep. -/
def execHart1Release (ch : Chan) (v : Word) (s : State) : Out :=
  .next (s.onLive ch fun c =>
    if c.lockstep then c
    else
      let c := c.wr CMP_HART1_PC (v.toNat / 4)
      if v.getLsbD 0 then c.wr CMP_HART1_RUN 1 else c)

end Sys2Proof.Machine
end

