-- ==== Sys2Proof/Machine/Operands.lean ====
section
/-! DEFINITION. Operand forms: the layouts of the packets of the vote (R210, R212, R213 of 07_duty_vote.md), and the
motor, loop and sense records as the coprocessors read them (R180, R189, R192, R193, R200, R206 of
06_field_control.md). -/

namespace Sys2Proof.Machine

/-- `n` bits from bit `lo` of a number. -/
def nbitsAt (v lo n : Nat) : Nat := v / 2 ^ lo % 2 ^ n

/-- `n` bits from bit `lo` of a packet. -/
def pk {w : Nat} (p : BitVec w) (lo n : Nat) : Nat := nbitsAt p.toNat lo n

/-- The same, two's complement. -/
def pkS {w : Nat} (p : BitVec w) (lo n : Nat) : Int := toSigned n (pk p lo n)

/-! Sample packet (R210). -/

/-- Fields of a sample packet: ORIGIN, PSEQ, THETA, OMEGA, IQREF, SV, EV, AL, BST, DIU, DIV, VLC. -/
def spOrigin (p : BitVec 176) : Nat := pk p 4 2
def spPseq (p : BitVec 176) : Nat := pk p 8 8
def spTheta (p : BitVec 176) : Nat := pk p 16 32
def spOmega (p : BitVec 176) : Int := pkS p 48 32
def spIqref (p : BitVec 176) : Int := pkS p 80 32
def spSV (p : BitVec 176) : Bool := p.getLsbD 112
def spEV (p : BitVec 176) : Bool := p.getLsbD 113
def spAL (p : BitVec 176) : Bool := p.getLsbD 114
def spBST (p : BitVec 176) : Nat := pk p 115 2
def spDiu (p : BitVec 176) : Int := pkS p 128 16
def spDiv (p : BitVec 176) : Int := pkS p 144 16
def spVlc (p : BitVec 176) : Nat := pk p 160 14

/-- A sample packet from its fields. -/
def mkSample (origin pseq theta : Nat) (omega iqref : Int) (sv ev al : Bool) (bst : Nat) (diu div : Int) (vlc : Nat) :
    BitVec 176 :=
  BitVec.ofNat 176 (1 + origin % 4 * 2 ^ 4 + pseq % 256 * 2 ^ 8 + theta % 2 ^ 32 * 2 ^ 16 + ofSigned 32 omega * 2 ^ 48
    + ofSigned 32 iqref * 2 ^ 80 + (if sv then 2 ^ 112 else 0) + (if ev then 2 ^ 113 else 0)
    + (if al then 2 ^ 114 else 0) + bst % 4 * 2 ^ 115 + ofSigned 16 diu * 2 ^ 128 + ofSigned 16 div * 2 ^ 144
    + vlc % 2 ^ 14 * 2 ^ 160)

/-! Duty triplet and echo (R212, R213). -/

/-- Fields of a triplet or an echo. -/
def trKind (p : BitVec 256) : Nat := pk p 0 4
def trOrigin (p : BitVec 256) : Nat := pk p 4 2
def trSet (p : BitVec 256) : Nat := pk p 6 2
def trPseq (p : BitVec 256) : Nat := pk p 8 8
def trOth (p : BitVec 256) : Nat := pk p 16 32
def trOom (p : BitVec 256) : Int := pkS p 48 32
def trIntd (p : BitVec 256) : Int := pkS p 80 32
def trIntq (p : BitVec 256) : Int := pkS p 112 32
def trIntfw (p : BitVec 256) : Int := pkS p 144 32
def trIdfw (p : BitVec 256) : Int := pkS p 176 32
def trDu (p : BitVec 256) : Nat := pk p 208 16
def trDv (p : BitVec 256) : Nat := pk p 224 16
def trDw (p : BitVec 256) : Nat := pk p 240 16

/-- Bits 255:16 of a triplet: what the voter compares (R220). -/
def trBody (p : BitVec 256) : BitVec 240 := p.extractLsb' 16 240

/-- Bits 15:0 of a triplet or echo before a body. -/
def mkTriplet (kind origin set pseq : Nat) (body : BitVec 240) : BitVec 256 :=
  body ++ BitVec.ofNat 16 (kind % 16 + origin % 4 * 16 + set % 4 * 64 + pseq % 256 * 256)

/-- The body from the state fields and the duties. -/
def mkBody (oth : Nat) (oom intd intq intfw idfw : Int) (du dv dw : Nat) : BitVec 240 :=
  BitVec.ofNat 240 (oth % 2 ^ 32 + ofSigned 32 oom * 2 ^ 32 + ofSigned 32 intd * 2 ^ 64 + ofSigned 32 intq * 2 ^ 96
    + ofSigned 32 intfw * 2 ^ 128 + ofSigned 32 idfw * 2 ^ 160 + du % 2 ^ 16 * 2 ^ 192 + dv % 2 ^ 16 * 2 ^ 208
    + dw % 2 ^ 16 * 2 ^ 224)

/-- The no-drive triplet's duties (R240). -/
def noDrive (b : BitVec 240) : Bool := b.extractLsb' 192 48 == 0

/-! Record words in the FCE windows (R206). -/

/-- A word of FCE_PAR of engine `k`. -/
def Channel.par (c : Channel) (k n : Nat) : Nat := c.rd (FCE_PAR_VALUE k n)

/-- A field of such a word. -/
def Channel.parF (c : Channel) (k n lo w : Nat) : Nat := nbitsAt (c.par k n) lo w

/-- Bridge S unused or bridge P unused (R176): CH_ROLE SOWN, POWN. -/
def Channel.unused (c : Channel) : Bridge → Bool
  | .S => c.parF 0 29 12 2 == 3
  | .P => c.parF 1 29 28 2 == 3

/-- The constants of one current loop in coprocessor formats (R178, R180). -/
structure LoopPar where
  ifs : Nat
  rs : Int
  ld : Int
  lq : Int
  psi : Int
  imax : Int
  idmin : Int
  mfw : Int
  mmax : Int
  kpd : Int
  kid : Int
  kpq : Int
  kiq : Int
  kpfw : Int
  kifw : Int
  ffen : Bool
  dtc : Int
  half : Nat
  deriving DecidableEq, Repr

/-- LD and LQ × I_FS ÷ V_FS in Q1.31 of a second: nH × 0.1 A ÷ 100 V (R180). -/
def cvtL (nh ifs : Nat) : Int := sat32 (rdiv (nh * ifs * 2 ^ 31 : Int) 1000000000000)

/-- PSI ÷ V_FS in Q1.31: µWb ÷ 100 V. -/
def cvtPsi (uwb : Nat) : Int := sat32 (rdiv (uwb * 2 ^ 31 : Int) 100000000)

/-- RS × I_FS ÷ V_FS in Q16.16: µΩ × 0.1 A ÷ 100 V. -/
def cvtR (uohm ifs : Nat) : Int := sat32 (rdiv (uohm * ifs * 65536 : Int) 1000000000)

/-- A current in 0.01 A in Q1.31 of I_FS, given in 0.1 A. -/
def cvtI (ca ifs : Nat) : Int := sat32 (rdiv (ca * 2 ^ 31 : Int) (10 * ifs))

/-- A fraction in 0.001 in Q16.16. -/
def cvtK (n : Nat) : Int := rdiv (n * 65536 : Int) 1000

/-- HALF of an engine's bridge, and an integral gain under the 10 kHz carrier of fawn service (R184). -/
def Channel.half (c : Channel) (k : Nat) : Nat :=
  if k = 0 ∧ c.is (FCE_STAT_FAWN10 0) = true then 10000 else c.rd (FCE_PWM_HALF k)

/-- The integral gain in force (R184). -/
def Channel.kiEff (c : Channel) (k ki : Nat) : Int :=
  if k = 0 ∧ c.is (FCE_STAT_FAWN10 0) = true ∧ c.rd (FCE_PWM_HALF 0) ≠ 0 then
    ((ki * 10000 + c.rd (FCE_PWM_HALF 0) / 2) / c.rd (FCE_PWM_HALF 0) : Nat)
  else (ki : Int)

/-- Constants of the loops of bridge S, from FCE0's window. -/
def Channel.parS (c : Channel) : LoopPar :=
  let ifs := c.parF 0 25 0 16
  { ifs := ifs, rs := cvtR (c.par 0 1) ifs, ld := cvtL (c.par 0 2) ifs, lq := cvtL (c.par 0 3) ifs,
    psi := cvtPsi (c.par 0 4), imax := cvtI (c.parF 0 5 0 16) ifs, idmin := cvtI (c.parF 0 5 16 16) ifs,
    mfw := cvtK (c.parF 0 6 0 10), mmax := cvtK (c.parF 0 6 16 10),
    kpd := c.par 0 18, kid := c.kiEff 0 (c.par 0 19), kpq := c.par 0 20, kiq := c.kiEff 0 (c.par 0 21),
    kpfw := c.par 0 22, kifw := c.kiEff 0 (c.par 0 23), ffen := c.parF 0 17 16 1 == 1, dtc := c.parF 0 17 8 8,
    half := c.half 0 }

/-- Constants of the loop of bridge P, from FCE1's window. PUMP_MOTOR names no field-weakening limit, threshold or
modulation limit: idfw stays 0 and MMAX is its default 1.000. -/
def Channel.parP (c : Channel) : LoopPar :=
  let ifs := c.parF 1 25 16 16
  { ifs := ifs, rs := cvtR (c.par 1 2) ifs, ld := cvtL (c.par 1 3) ifs, lq := cvtL (c.par 1 4) ifs,
    psi := cvtPsi (c.par 1 5), imax := cvtI (c.parF 1 6 0 16) ifs, idmin := 0, mfw := cvtK 920, mmax := cvtK 1000,
    kpd := c.par 1 18, kid := c.par 1 19, kpq := c.par 1 20, kiq := c.par 1 21,
    kpfw := c.par 1 22, kifw := c.par 1 23, ffen := c.parF 1 17 16 1 == 1, dtc := c.parF 1 17 8 8,
    half := c.half 1 }

/-- OFS of a carrier: the integer nearest to SLOT × 2 × HALF ÷ 3, 0 with aligned carriers (R182). -/
def carrierOfs (aligned : Bool) (slot half : Nat) : Nat := if aligned then 0 else (2 * slot * 2 * half + 3) / 6

/-- Offset of a channel's bridge S carrier (R182). -/
def Channel.ofs (c : Channel) (set : Chan) : Nat := carrierOfs (c.is (FCE_PWM_ALIGNED 0)) set.idx (c.half 0)

/-- t0 of a set's current period on the own timebase: the latest TB count at its valley (R182, R215). -/
def Channel.t0Of (c : Channel) (set : Chan) : Nat :=
  if c.half 0 = 0 then c.tb.toNat
  else c.tb.toNat - (c.tb.toNat + 2 * c.half 0 - c.ofs set % (2 * c.half 0)) % (2 * c.half 0)

/-- The period number of a set (R210). -/
def Channel.pseqOf (c : Channel) (set : Chan) : Nat :=
  if c.half 0 = 0 then 0 else (c.t0Of set - c.ofs set) / (2 * c.half 0) % 256

end Sys2Proof.Machine
end

