-- ==== Sys2Proof/Machine/Legs.lean ====
section
/-! DEFINITION. The carriers of the bridges and the legs of the power die: commands, dead time, interlock and the arming of
the desaturation detectors (R181, R182 of 06_field_control.md; R266 to R269 and R277 of 09_gate_drive.md). -/

namespace Sys2Proof.Machine

/-- The engine of a bridge: FCE0 for S, FCE1 for P. -/
def engineOf : Bridge → Nat
  | .S => 0
  | .P => 1

/-- OFS of a bridge's carrier (R182). -/
def Channel.bridgeOfs (c : Channel) (b : Bridge) : Nat :=
  carrierOfs (c.is (FCE_PWM_ALIGNED (engineOf b))) c.me.idx (c.half (engineOf b))

/-- The up/down count of a carrier at a TB count (R181, R182): from 0 up to HALF and back down to 0. -/
def carrierCount (half ofs tb : Nat) : Nat :=
  let t := (tb + 2 * half - ofs) % (2 * half)
  if t ≤ half then t else 2 * half - t

/-- Commands of a leg's high-side and low-side switch by the state of the bridge (R181, R229, R230). In service the high
side is on while the count is at or above HALF − DUTY, the low side otherwise.
DEDUCED, unsafe: log entry 81. -/
def legCommand (state half count duty : Nat) : Bool × Bool :=
  match state with
  | 0 => (decide (half ≤ count + duty), !decide (half ≤ count + duty))
  | 2 => (false, true)
  | _ => (false, false)

/-- The count of a time that starts anew while `p` fails. -/
def runFor (p : Bool) (n limit : Nat) : Nat := if p then min limit (n + 1) else 0

/-- One PCLK cycle of a leg (R266, R267): a switch is on while it alone is commanded on and its partner had been commanded
off for the dead time without a break. Both commands at once leave both off and start both times anew. -/
def Leg.cycle (l : Leg) (dead : Nat) (cmd : Bool × Bool) : Leg :=
  let (hi, lo) := cmd
  { hi := hi, lo := lo, offHi := runFor (!hi) l.offHi 511, offLo := runFor (!lo) l.offLo 511,
    onHi := runFor (hi && !lo && decide (dead ≤ l.offLo)) l.onHi 4095,
    onLo := runFor (lo && !hi && decide (dead ≤ l.offHi)) l.onLo 4095 }

/-- One PCLK cycle of a bridge's legs. -/
def Legs.cycle (x : Legs) (dead : Nat) (cmd : Nat → Bool × Bool) (d : Nat × Nat × Nat) : Legs :=
  { u := x.u.cycle dead (cmd d.1), v := x.v.cycle dead (cmd d.2.1), w := x.w.cycle dead (cmd d.2.2) }

/-- Dead time of a bridge (R283). -/
def Channel.deadTime (c : Channel) : Bridge → Nat
  | .S => c.rd (GDR_GD_VALUE 1) % 2 ^ 9
  | .P => c.rd (GDR_GD_VALUE 1) / 2 ^ 16 % 2 ^ 9

/-- `n` PCLK cycles of a bridge's legs from a TB count: dead time, state, HALF, OFS and duties stand meanwhile. -/
def Legs.run (x : Legs) (dead state half ofs : Nat) (d : Nat × Nat × Nat) (tb : Nat) : Nat → Legs
  | 0 => x
  | n + 1 => (x.cycle dead (legCommand state half (carrierCount half ofs tb)) d).run dead state half ofs d (tb + 1) n

/-- A bridge's legs after 40 ns, eight PCLK cycles. -/
def Channel.runLegs (c : Channel) (b : Bridge) (d : Nat × Nat × Nat) (x : Legs) : Legs :=
  x.run (c.deadTime b) (c.bstate b) (c.half (engineOf b)) (c.bridgeOfs b) d c.tb.toNat 8

/-- Duties of the sector pulse in direction `n` × 60° (R201): the phases on that side at HALF, the others at 0. -/
def sectorDuty (half n : Nat) : Nat × Nat × Nat :=
  match n with
  | 0 => (half, 0, 0)
  | 1 => (half, half, 0)
  | 2 => (0, half, 0)
  | 3 => (0, half, half)
  | 4 => (0, 0, half)
  | _ => (half, 0, half)

/-- 40 ns of sector detection (R201): a pulse of TPULSE in each of the six directions, 100 µs apart, the zero vector between
them.
DEDUCED, unsafe: log entry 40. -/
def Channel.sectorTick (c : Channel) : Channel :=
  if c.rd FCE_PUMP_STATE ≠ 1 then c
  else
    let pulse := c.rd (FCE_PAR_VALUE 1 8) / 2 ^ 16 % 2 ^ 8 * 200
    let n := c.f1.sector / (pulse + 20000)
    let half := c.half 1
    let d := if n < 6 ∧ c.f1.sector % (pulse + 20000) < pulse then sectorDuty half n else (half / 2, half / 2, half / 2)
    { c with f1 := { c.f1 with sector := min (c.f1.sector + 8) 1000000 }, pow := { c.pow with dutyP := d } }

/-- 40 ns of the power die: eight PCLK cycles of every leg, and the chopper's time on. -/
def Channel.legsTick (c : Channel) : Channel :=
  { c with pow := { c.pow with
      legsS := c.runLegs .S c.pow.dutyS c.pow.legsS, legsP := c.runLegs .P c.pow.dutyP c.pow.legsP,
      chopRun := if c.is GDR_LINK_CHOPON then min 4095 (c.pow.chopRun + 8) else 0 } }

/-- A bridge's switches in the order of R285: UH, UL, VH, VL, WH, WL. -/
def Legs.switches (x : Legs) (f : Leg → Bool × Bool) : List Bool :=
  [(f x.u).1, (f x.u).2, (f x.v).1, (f x.v).2, (f x.w).1, (f x.w).2]

/-- The gate outputs of a bridge that are on. -/
def Legs.gates (x : Legs) : List Bool := x.switches fun l => (decide (0 < l.onHi), decide (0 < l.onLo))

/-- A word with the bits of a list, the first at `lsb`. -/
def boolsAt (l : List Bool) (lsb : Nat) : Nat := l.zipIdx.foldl (fun a p => if p.1 then a + 2 ^ (lsb + p.2) else a) 0

/-- The commands of the solenoid switches: off without a duty, on at a duty of 1. The spec gives the phase of the PWM between
them no place: `sol` names the coils that are in the on time of their PWM period.
DESIGN CHOICE, safe: log entry 88. -/
def Channel.solCommands (c : Channel) (sol : BitVec 4) : List Bool :=
  [c.f1.sol0, c.f1.sol1, c.f1.sol2, c.f1.sol3].zipIdx.map fun p =>
    !c.pow.solOff && decide (0 < p.1.duty) && (decide ((2 ^ 31 - 1 : Int) ≤ p.1.duty) || sol.getLsbD p.2)

/-- The gate commands in force, bit map of R285 (R277). -/
def Channel.gateCommands (c : Channel) (sol : BitVec 4) : Nat :=
  let cmd (l : Leg) : Bool × Bool := (l.hi, l.lo)
  boolsAt (c.pow.legsS.switches cmd ++ c.pow.legsP.switches cmd ++ c.is GDR_LINK_CHOPON :: c.solCommands sol) 0

/-- The blanking time has run since an on edge (R269): `n` PCLK cycles against BLK in 62.5 ns, counted on both edges. -/
def blanked (blk n : Nat) : Bool := decide (0 < n) && decide (25 * blk ≤ 2 * n)

/-- The detectors that are armed, bit map of R285 (R269). A solenoid's detector counts as armed while its switch is
commanded on, since the spec does not place the edges of its PWM.
DESIGN CHOICE, safe: log entry 88. -/
def Channel.armed (c : Channel) (sol : BitVec 4) : Nat :=
  let blk (n : Nat) : Nat := c.rd (GDR_GD_VALUE 2) / 2 ^ (8 * n) % 2 ^ 7
  let bridge (x : Legs) (n : Nat) : List Bool := x.switches fun l => (blanked (blk n) l.onHi, blanked (blk n) l.onLo)
  boolsAt (bridge c.pow.legsS 0 ++ bridge c.pow.legsP 1 ++ blanked (blk 2) c.pow.chopRun :: c.solCommands sol) 0

end Sys2Proof.Machine
end

