-- ==== Sys2Proof/Machine/Placement.lean ====
section
/-! DEFINITION. Placement: rotation order, the procedure of R129, the switches of R133 to R135, addresses (R127) and
budgets (R132 of 04_herd_placement.md). -/

namespace Sys2Proof.Machine

/-- Bits of a number from `lsb`, `width` wide. -/
def bitsOf (v lsb width : Nat) : Nat := v / 2 ^ lsb % 2 ^ width

/-- Word `n` of a record's body. -/
def FolRec.w (r : FolRec) (n : Nat) : Nat := (r.body.getD n 0).toNat

/-- Records of a type in Folio order. -/
def recsOf (l : List FolRec) (type : Nat) : List FolRec := l.filter fun r => r.type == type

/-- MODE_LIMITS of a mode (R81). -/
def limitsOf (l : List FolRec) (mode : Nat) : Option FolRec := (recsOf l 0x0900).find? fun r => bitsOf (r.w 0) 0 3 == mode

/-- A field of a mode's limits, 0 before the load. -/
def limitField (l : List FolRec) (mode w lsb width : Nat) : Nat :=
  ((limitsOf l mode).map fun r => bitsOf (r.w w) lsb width).getD 0

/-- Scoped records of a type that apply to a channel (R48). -/
def recsFor (l : List FolRec) (type : Nat) (me : Chan) : List FolRec :=
  (recsOf l type).filter fun r => (r.w 0).testBit me.idx

/-- Channels of a mask (bit 0 A), as numbers 1 to 3. -/
def chansOf (m : Nat) : List Nat := (List.range 3).filterMap fun i => if m.testBit i then some (i + 1) else none

/-- The mask of a channel number. -/
def maskOf (n : Nat) : Nat := if n = 0 then 0 else 2 ^ (n - 1)

/-- Members of a mask. -/
def countMask (m : Nat) : Nat := (chansOf m).length

/-- The rotation order of R128. -/
def rotation (view gen : Nat) : List Nat :=
  (List.range 3).filterMap fun i =>
    let k := (gen + i) % 3
    if view.testBit k then some (k + 1) else none

/-- Insertion into a list sorted by `le`, after its equals. -/
def insertBy {α : Type} (lt : α → α → Bool) (x : α) : List α → List α
  | [] => [x]
  | y :: ys => if lt x y then x :: y :: ys else y :: insertBy lt x ys

/-- Stable insertion sort. -/
def sortBy {α : Type} (lt : α → α → Bool) (l : List α) : List α := l.foldl (fun acc x => insertBy lt x acc) []

/-- A task or data home as the Folio declares it (R52, R125). -/
structure PObj where
  id : Nat
  crit : Nat
  repl : Nat
  migr : Bool
  pinkind : Nat
  pinarg : Nat
  period : Nat
  size : Nat
  budget : Nat
  deriving DecidableEq, Repr

/-- A TASK record (R52). -/
def taskOf (r : FolRec) : PObj :=
  { id := bitsOf (r.w 0) 0 8, crit := bitsOf (r.w 0) 8 2, repl := bitsOf (r.w 0) 10 2, migr := (r.w 0).testBit 12,
    pinkind := bitsOf (r.w 0) 13 3, pinarg := bitsOf (r.w 0) 16 8, period := r.w 1, size := bitsOf (r.w 2) 16 16,
    budget := bitsOf (r.w 3) 0 20 }

/-- A DATA_HOME record (R125). -/
def homeOf (r : FolRec) : PObj :=
  { id := bitsOf (r.w 0) 0 8, crit := 0, repl := bitsOf (r.w 0) 10 2, migr := true, pinkind := bitsOf (r.w 0) 13 3,
    pinarg := bitsOf (r.w 0) 16 8, period := 0, size := r.w 1, budget := 0 }

/-- Declared tasks, homes and resources (id, owner). -/
def tasksOf (l : List FolRec) : List PObj := (recsOf l 0x0800).map taskOf
def homesOf (l : List FolRec) : List PObj := (recsOf l 0x0801).map homeOf
def resourcesOf (l : List FolRec) : List (Nat × Nat) :=
  sortBy (fun a b => a.1 < b.1) ((recsOf l 0x0802).map fun r => (bitsOf (r.w 0) 0 8, bitsOf (r.w 0) 8 2))

/-- Three numbers, one per channel. -/
structure Tri where
  a : Nat := 0
  b : Nat := 0
  c : Nat := 0
  deriving DecidableEq, Repr

/-- The number of channel 1, 2 or 3. -/
def Tri.get (t : Tri) (n : Nat) : Nat := if n = 1 then t.a else if n = 2 then t.b else t.c

/-- Add to a channel's number. -/
def Tri.add (t : Tri) (n v : Nat) : Tri :=
  if n = 1 then { t with a := t.a + v } else if n = 2 then { t with b := t.b + v } else { t with c := t.c + v }

/-- Add to the number of every channel in a mask. -/
def Tri.addMask (t : Tri) (m v : Nat) : Tri := (chansOf m).foldl (fun t n => t.add n v) t

/-- Holders of the resources (R129): an owner in the view, else a floating holder that stays, else the first of the
order with the fewest floating resources. -/
def placeRes (view : Nat) (order : List Nat) (prev : KMap Nat) : List (Nat × Nat) → Tri → KMap Nat → KMap Nat
  | [], _, acc => acc
  | (id, owner) :: rest, nres, acc =>
    if owner ≠ 0 then
      placeRes view order prev rest nres (kset 0 acc id (if view.testBit (owner - 1) then owner else 0))
    else
      let p := kget 0 prev id
      let h :=
        if p ≠ 0 ∧ view.testBit (p - 1) = true then p
        else match sortBy (fun x y => nres.get x < nres.get y) order with
          | [] => 0
          | x :: _ => x
      placeRes view order prev rest (if h = 0 then nres else nres.add h 1) (kset 0 acc id h)

/-- The pin of an object is satisfied on a channel (R126). -/
def pinOk (o : PObj) (holders : KMap Nat) (n : Nat) : Bool :=
  if o.pinkind = 1 then o.pinarg == n else if o.pinkind = 2 then kget 0 holders o.pinarg == n else true

/-- The object is pinned to an absent channel (R129). -/
def dormant (o : PObj) (view : Nat) (holders : KMap Nat) : Bool :=
  (o.pinkind == 1 && !view.testBit (o.pinarg - 1)) || (o.pinkind == 2 && kget 0 holders o.pinarg == 0)

/-- STATUS of an object (R129): 1 PLACED, 2 REDUCED, 3 SHED, 4 DORMANT. -/
def placeStatus (hosts need : Nat) : Nat := if countMask hosts = need then 1 else if hosts ≠ 0 then 2 else 3

/-- First `need` of the eligible channels by load, then by position in the order (R129). -/
def pickHosts (elig : List Nat) (need : Nat) (load : Tri) : Nat :=
  ((sortBy (fun x y => load.get x < load.get y) elig).take need).foldl (fun m n => m ||| maskOf n) 0

/-- All channels of a mask are in a list. -/
def maskSubset (m : Nat) (l : List Nat) : Bool := (chansOf m).all fun n => l.contains n

/-- Utilisation in ppm (R127). -/
def ppm (o : PObj) (budgets : KMap Nat) : Nat :=
  let b := if kget 0 budgets o.id = 0 then o.budget else kget 0 budgets o.id
  if o.period = 0 then 0 else ceilDiv (b * 1000000) o.period

/-- Tasks, in the order of the sort (R129): hosts and status by id, with the loads and states. -/
def placeTasks (view : Nat) (order : List Nat) (holders : KMap Nat) (budgets : KMap Nat) (prev : Nat → Nat) :
    List PObj → Tri → Tri → List (Nat × Nat × Nat) → List (Nat × Nat × Nat) × Tri × Tri
  | [], load, tst, acc => (acc, load, tst)
  | t :: ts, load, tst, acc =>
    if dormant t view holders then placeTasks view order holders budgets prev ts load tst ((t.id, 0, 4) :: acc)
    else
      let need := min t.repl order.length
      let elig := order.filter fun n =>
        pinOk t holders n && load.get n + ppm t budgets ≤ 800000 && tst.get n + t.size ≤ 524288
      let p := prev t.id
      let hosts := if !t.migr && p != 0 && maskSubset p elig && countMask p == need then p
        else pickHosts elig need load
      placeTasks view order holders budgets prev ts (load.addMask hosts (ppm t budgets)) (tst.addMask hosts t.size)
        ((t.id, hosts, placeStatus hosts need) :: acc)

/-- Data homes, in the order of the sort (R129). -/
def placeHomes (view : Nat) (order : List Nat) (holders : KMap Nat) (prev : Nat → Nat) :
    List PObj → Tri → List (Nat × Nat × Nat) → List (Nat × Nat × Nat) × Tri
  | [], hom, acc => (acc, hom)
  | h :: hs, hom, acc =>
    if dormant h view holders then placeHomes view order holders prev hs hom ((h.id, 0, 4) :: acc)
    else
      let need := min h.repl order.length
      let elig := order.filter fun n => pinOk h holders n && hom.get n + h.size ≤ 262144
      let p := prev h.id
      let hosts := if maskSubset p elig && countMask p == need then p else pickHosts elig need hom
      placeHomes view order holders prev hs (hom.addMask hosts h.size) ((h.id, hosts, placeStatus hosts need) :: acc)

/-- What the procedure answers: holders, tasks and homes as (id, hosts, status), loads. -/
structure Plan where
  holders : KMap Nat
  tasks : List (Nat × Nat × Nat)
  homes : List (Nat × Nat × Nat)
  load : Tri
  tst : Tri
  hom : Tri
  deriving DecidableEq, Repr

/-- The placement procedure (R129). -/
def place (l : List FolRec) (view gen : Nat) (prevRes : KMap Nat) (prevTask prevHome : Nat → Nat) (budgets : KMap Nat) :
    Plan :=
  let order := rotation view gen
  let n := order.length
  let holders := placeRes view order prevRes (resourcesOf l) {} []
  let need (o : PObj) : Nat := min o.repl n
  let tasks := sortBy (fun x y => y.crit < x.crit || (x.crit == y.crit && (need y < need x ||
    (need x == need y && x.id < y.id)))) (tasksOf l)
  let homes := sortBy (fun x y => need y < need x || (need x == need y && x.id < y.id)) (homesOf l)
  let (ts, load, tst) := placeTasks view order holders budgets prevTask tasks {} {} []
  let (hs, hom) := placeHomes view order holders prevHome homes {} []
  { holders := holders, tasks := ts, homes := hs, load := load, tst := tst, hom := hom }

/-- Some task or home is REDUCED or SHED (R130, R405). -/
def Plan.shed (p : Plan) : Bool := (p.tasks ++ p.homes).any fun t => t.2.2 == 2 || t.2.2 == 3

/-- Nothing is placed. -/
def noPlace : Placed := {}

/-- A switch that falls due at a round start is performed (R133, R135). -/
def Placed.at (p : Placed) (round : Nat) : Placed :=
  if p.b1 = 0 then p
  else
    let p := if p.b1 ≤ round ∧ p.hosts ≠ p.atB1 then
        { p with hosts := p.atB1, from_ := p.hosts, moved := false, at_ := p.b1 } else p
    if round < p.b2 then p
    else if p.hosts = p.atB2 then { p with b1 := 0, b2 := 0 }
    else { p with hosts := p.atB2, from_ := p.hosts, moved := p.copy, at_ := p.b2, b1 := 0, b2 := 0 }

/-- An object's new decision (R133, R135), counted from the round start `r1` at which it takes effect; `view` holds the
channels that are still members there. Former hosts that left are dropped at B1, an object without a former host
starts on its new hosts at B1; hosts that are added, and moves between members, switch at B2. -/
def Placed.decide (p : Placed) (r1 view hosts status : Nat) (isTask migr : Bool) : Placed :=
  let p := p.at r1
  let p := { p with b1 := 0, b2 := 0, status := status, copy := false }
  let stay := p.hosts &&& view
  let first := if stay = 0 then hosts else stay
  if first = p.hosts ∧ hosts = p.hosts then p
  else
    let b1 := (r1 / 10 + 1) * 10
    { p with atB1 := first, atB2 := hosts, b1 := b1, b2 := if first = hosts then b1 else b1 + 10,
             copy := first != hosts && (hosts &&& (7 - first % 8)) != 0 && (migr || !isTask || (hosts &&& first) != 0) }

/-- NEXT and STATUS of an entry (R151): 5 while a switch is pending. -/
def Placed.shownNext (p : Placed) : Nat :=
  if p.b1 = 0 then p.hosts else if p.hosts ≠ p.atB1 then p.atB1 else p.atB2

def Placed.shownStatus (p : Placed) : Nat := if p.b1 = 0 then p.status else 5

/-- Holder of a resource at a round: a change takes effect at its boundary (R133, R135, R395). -/
def Herd.heldAt (h : Herd) (round id : Nat) : Nat :=
  let p := kget (0, 0) h.resSwitch id
  if round < p.2 then p.1 else kget 0 h.holders id

/-- Switches of resources decided for the round start `r1` (R133, R395): B2 where the former holder is still a member,
else B1.
DEDUCED, unsafe: log entry 55. -/
def resSwitches (ids : List Nat) (r1 view : Nat) (old new : KMap Nat) : KMap (Nat × Nat) :=
  let b1 := (r1 / 10 + 1) * 10
  ids.foldl (fun m id =>
    let o := kget 0 old id
    if o = kget 0 new id then m
    else kset (0, 0) m id (o, if o ≠ 0 ∧ view.testBit (o - 1) = true then b1 + 10 else b1)) []

/-- A new placement enters the agreed value (R133), with the decided loads. -/
def Herd.replace (h : Herd) (l : List FolRec) (r1 onView view : Nat) : Herd × Bool :=
  let prevT := fun id => ((kget noPlace h.tasks id).at r1).hosts
  let prevH := fun id => ((kget noPlace h.homes id).at r1).hosts
  let ids := (resourcesOf l).map fun r => r.1
  let held := ids.foldl (fun m id => kset 0 m id (h.heldAt r1 id)) []
  let plan := place l onView h.gen held prevT prevH h.budgets
  let migr := fun id => ((tasksOf l).find? fun t => t.id == id).elim true PObj.migr
  let tasks := plan.tasks.foldl (fun m t =>
    kset noPlace m t.1 ((kget noPlace m t.1).decide r1 view t.2.1 t.2.2 true (migr t.1))) h.tasks
  let homes := plan.homes.foldl (fun m t =>
    kset noPlace m t.1 ((kget noPlace m t.1).decide r1 view t.2.1 t.2.2 false true)) h.homes
  let loads := [1, 2, 3].map fun n => (plan.load.get n, plan.tst.get n, plan.hom.get n)
  ({ h with
      holders := plan.holders, resSwitch := resSwitches ids r1 view held plan.holders,
      tasks := tasks, homes := homes, loads := loads, placedFor := (onView, h.gen) },
    plan.shed)

/-- Address registers of task and home entries (R151). -/
def addrReg (isTask : Bool) (id : Nat) : Nat := if isTask then 0x40031000 + 4 * id else 0x40031400 + 4 * id

/-- An object's area in SRAM (R127): base and size. -/
def areaOf (isTask : Bool) : Nat × Nat := if isTask then (0x20000000, 0x80000) else (0x20080000, 0x40000)

/-- An object's address on this channel, 0 when it is not hosted (R151). -/
def Channel.addrOf (c : Channel) (isTask : Bool) (id : Nat) : Nat := (c.regs.word (addrReg isTask id)).toNat

/-- Objects that the channel holds in one area: address and size; a task whose state is still to be sent keeps its place. -/
def Channel.objects (c : Channel) (isTask : Bool) : List (Nat × Nat) :=
  ((if isTask then tasksOf c.fol.recs else homesOf c.fol.recs).flatMap fun o =>
    [(c.addrOf isTask o.id, o.size), (if isTask then kget 0 c.hrd.lastAddr o.id else 0, o.size)]).filter fun p => p.1 != 0

/-- An address meets the bounds of R127.
DESIGN CHOICE, unsafe: log entry 29. -/
def Channel.fits (c : Channel) (isTask : Bool) (a size : Nat) : Bool :=
  let (base, total) := areaOf isTask
  a % 4 == 0 && base ≤ a && a + size ≤ base + total &&
    (c.objects isTask).all fun p => a + size ≤ p.1 || p.1 + p.2 ≤ a

/-- The herd engine's choice of an address for an object (R127): a free value within the bounds. Where the choice drawn
does not meet them, the lowest address after an object, or the base, that does; 0 when none does.
DESIGN CHOICE, unsafe: log entry 29. -/
def Channel.allocate (c : Channel) (isTask : Bool) (id size : Nat) : Channel :=
  let (base, total) := areaOf isTask
  let a := base + 4 * (Config.allocChoice (4 * c.free + c.me.num) % (total / 4))
  let c := { c with free := c.free + 1 }
  let cand := a :: base :: (c.objects isTask).map fun p => p.1 + p.2
  let pick := (cand.find? fun x => c.fits isTask x size).getD 0
  c.wrWord (addrReg isTask id) (BitVec.ofNat 32 pick)

/-- The channel holds no object any more (R127). -/
def Channel.dropObjects (c : Channel) : Channel :=
  let c := (tasksOf c.fol.recs).foldl (fun c o => c.wrWord (addrReg true o.id) 0) c
  let c := (homesOf c.fol.recs).foldl (fun c o => c.wrWord (addrReg false o.id) 0) c
  { c with hrd := { c.hrd with jobs := [], arrived := [], lastAddr := [], gone := [] } }

/-- Entry registers of tasks, homes and resources (R151); EFFBUD keeps the Folio's value where no overrun raised it. -/
def Channel.showPlace (c : Channel) (h : Herd) : Channel :=
  let c := (tasksOf c.fol.recs).foldl (fun c o =>
    let p := kget noPlace h.tasks o.id
    let b := if kget 0 h.budgets o.id = 0 then o.budget else kget 0 h.budgets o.id
    (((c.wr (HRD_TASK_EFFBUD o.id) b).wr (HRD_TASK_STATUS o.id) p.shownStatus).wr (HRD_TASK_NEXT o.id) p.shownNext).wr
      (HRD_TASK_HOSTS o.id) p.hosts) c
  let c := (homesOf c.fol.recs).foldl (fun c o =>
    let p := kget noPlace h.homes o.id
    ((c.wr (HRD_HOME_STATUS o.id) p.shownStatus).wr (HRD_HOME_NEXT o.id) p.shownNext).wr (HRD_HOME_HOSTS o.id) p.hosts) c
  let c := (resourcesOf c.fol.recs).foldl (fun c r => c.wr (HRD_RES_HOLDER r.1) (h.heldAt c.hrd.round r.1)) c
  let c := [0, 1, 2].foldl (fun c i =>
    let l := h.loads.getD i (0, 0, 0)
    ((c.wr (HRD_LOAD_UTIL i) l.1).wr (HRD_MEM_TSTATE i) (ceilDiv l.2.1 1024)).wr (HRD_MEM_HOME i) (ceilDiv l.2.2 1024)) c
  c.wr HRD_MIG_MOVES (min 65535 h.moves)

end Sys2Proof.Machine
end

