-- ==== Sys2Proof/Machine/Loop.lean ====
section
/-! DEFINITION. One period of the current loop (R190, R191 of 06_field_control.md), bit for bit, with the estimator of
R242 and the observer of R199. -/

namespace Sys2Proof.Machine

/-- 1/√3 and √3/2 of R190. -/
def k1 : Int := 0x49E69D16
def k2 : Int := 0x6ED9EBA1

/-- What one period of R190 reads: currents, link voltage, angle, speed, reference, the d-axis reference in place of
idfw under loss mode (R256), and the loop's state. -/
structure LoopIn where
  iu : Int
  iv : Int
  vlink : Int
  theta : Nat
  omega : Int
  iqref : Int
  loss : Option Int
  intd : Int
  intq : Int
  intfw : Int
  idfw : Int
  deriving DecidableEq, Repr

/-- What it leaves. -/
structure LoopOut where
  id : Int
  iq : Int
  vd : Int
  vq : Int
  m : Int
  intd : Int
  intq : Int
  intfw : Int
  idfw : Int
  du : Nat
  dv : Nat
  dw : Nat
  isat : Bool
  vsat : Bool
  va : Int
  vb : Int
  deriving DecidableEq, Repr

/-- Sign of a number as −1, 0, 1. -/
def sgn (v : Int) : Int := if 0 < v then 1 else if v < 0 then -1 else 0

/-- One phase's duty (R190): truncating division, dead-time compensation, clamps; HALF div 2 before compensation when
vlink is 0. -/
def phaseDuty (half : Nat) (vlink p off i dtc : Int) : Nat :=
  let d : Int :=
    if vlink = 0 then (half / 2 : Nat)
    else clampI (Int.tdiv ((half : Int) * (vlink + 2 * (p + off)) + vlink) (2 * vlink)) 0 half
  (clampI (d + sgn i * dtc) 0 half).toNat

/-- The inverse Park transformation and the modulation (R190): αβ voltage to three duties. -/
def modulate (p : LoopPar) (iu iv vlink va vb : Int) : Nat × Nat × Nat :=
  let pu := va
  let pv := fx 31 (vb * k2 - va * 2 ^ 30)
  let pw := fx 31 (-(vb * k2) - va * 2 ^ 30)
  let off := fx 1 (-(max (max pu pv) pw + min (min pu pv) pw))
  let iw := sat32 (-(iu + iv))
  (phaseDuty p.half vlink pu off iu p.dtc, phaseDuty p.half vlink pv off iv p.dtc,
    phaseDuty p.half vlink pw off iw p.dtc)

/-- One period of the current loop (R190). -/
def period (p : LoopPar) (x : LoopIn) : LoopOut :=
  let ialpha := x.iu
  let ibeta := fx 31 ((x.iu + 2 * x.iv) * k1)
  let s := sinQ x.theta
  let c := cosQ x.theta
  let id := fx 31 (ialpha * c + ibeta * s)
  let iq := fx 31 (ibeta * c - ialpha * s)
  let idref := x.loss.getD x.idfw
  let iqlim := sat32 (isqrt (p.imax * p.imax - idref * idref))
  let iqref := clampI x.iqref (-iqlim) iqlim
  let (ud, intd) := piStep 16 (idref - id) p.kpd p.kid x.intd
  let (uq, intq) := piStep 16 (iqref - iq) p.kpq p.kiq x.intq
  let vd0 := if p.ffen then fx 47 (ud * 2 ^ 47 - x.omega * p.lq * iq) else ud
  let vq0 := if p.ffen then fx 47 (uq * 2 ^ 47 + x.omega * (p.ld * id + p.psi * 2 ^ 31)) else uq
  let vmax := fx 47 (p.mmax * x.vlink * k1)
  let mag := isqrt (vd0 * vd0 + vq0 * vq0)
  let m := if x.vlink = 0 then (if vd0 = 0 ∧ vq0 = 0 then 0 else 0x7FFFFFFF)
    else sat32 (rdiv (mag * 2 ^ 47) (x.vlink * k1).toNat)
  let vd := clampI vd0 (-vmax) vmax
  let vql := sat32 (isqrt (vmax * vmax - vd * vd))
  let vq := clampI vq0 (-vql) vql
  let (fw, intfw) := piStep 1 (p.mfw - m) p.kpfw p.kifw x.intfw
  let va := fx 31 (vd * c - vq * s)
  let vb := fx 31 (vd * s + vq * c)
  let (du, dv, dw) := modulate p x.iu x.iv x.vlink va vb
  { id := id, iq := iq, vd := vd, vq := vq, m := m, intd := intd, intq := intq,
    intfw := clampI intfw (-p.idmin) 0, idfw := clampI fw (-p.idmin) 0, du := du, dv := dv, dw := dw,
    isat := iqref != x.iqref, vsat := vd != vd0 || vq != vq0, va := va, vb := vb }

/-- The αβ voltage that duties apply (R224): each phase at (2 × DUTY ÷ HALF − 1) × VLINK ÷ 2, common mode removed, then
the transformation of R190. -/
def appliedVolts (half du dv dw : Nat) (vlink : Int) : Int × Int :=
  if half = 0 then (0, 0)
  else
    let ph (d : Nat) : Int := rdiv ((2 * (d : Int) - half) * vlink) (2 * half)
    let u := ph du
    let v := ph dv
    let w := ph dw
    let cm := rdiv (u + v + w) 3
    let u := sat32 (u - cm)
    let v := sat32 (v - cm)
    (u, fx 31 ((u + 2 * v) * k1))

/-- One axis of the back-EMF e = v − RS × i − LQ × di/dt in Q1.31 (R199), over a period of 2 × HALF × 5 ns: voltage and
current of the period before, and the current's change since.
DEDUCED, unsafe: log entry 36. -/
def backEmf (p : LoopPar) (v i i0 : Int) : Int :=
  if p.half = 0 then 0
  else sat32 (rdiv ((v * 2 ^ 31 - p.rs * i0 * 2 ^ 15) * p.half - p.lq * (i - i0) * 100000000) (2 ^ 31 * p.half))

/-- The observer of R199: the back-EMF and the confidence as that rule gives them; the tracking loop, whose arithmetic the
spec does not give to the bit, is the free functions of Config over what it reads, OBSBW among it.
DESIGN CHOICE, safe: log entry 35. -/
def observe (p : LoopPar) (obsbw oth : Nat) (oom va vb ia ib ia1 ib1 : Int) : Nat × Int × Nat :=
  let ea := backEmf p va ia ia1
  let eb := backEmf p vb ib ib1
  let ins : List Int := [oth, oom, ea, eb, obsbw, p.half]
  let th := Config.observerAngle ins % 2 ^ 32
  let om := sat32 (Config.observerSpeed ins)
  let exp := fx 16 (p.psi * om.natAbs)
  let e : Int := isqrt (ea * ea + eb * eb)
  let conf : Int := if exp = 0 then 0 else clampI (65536 - rdiv ((e - exp).natAbs * 65536) exp.toNat) 0 65536
  (th, om, conf.toNat)

/-- Speed of a current vector that turns by `d` in one period of 2 × HALF × 5 ns: rad/s in Q16.16 (R242).
DEDUCED, unsafe: log entry 36. -/
def turnSpeed (d : Int) (half : Nat) : Int :=
  if half = 0 then 0 else sat32 (rdiv (d * twoPi100 * 100000000) (half * 2 ^ 116))

/-- Angle turned in one period at a speed: OOM × T in units of a turn ÷ 2^32. -/
def speedTurn (w : Int) (half : Nat) : Int := rdiv (w * half * 2 ^ 116) (twoPi100.toNat * 100000000)

/-- Estimate of R242 from a current vector: φ, the speed, the angle. -/
def estimate (p : LoopPar) (iu iv : Int) (phi0 : Nat) : Nat × Int × Nat :=
  let ibeta := fx 31 ((iu + 2 * iv) * k1)
  let phi := angleQ iu ibeta
  let w := turnSpeed (angDiff phi phi0) p.half
  let lag : Int := angleQ (fx 16 ((w.natAbs : Int) * p.lq)) (sat32 (p.rs * 2 ^ 15))
  (phi, w, ofSigned 32 ((phi : Int) - 2 ^ 31 - sgn w * lag))

/-- DWELL of R242 in whole periods: 5 × LD ÷ RS clamped to 2–50 ms, rounded upwards once. -/
def dwellOf (nh uohm half : Nat) : Nat :=
  if half = 0 then 0
  else
    let most := ceilDiv 5000000 half
    if uohm = 0 then most else max (ceilDiv 200000 half) (min most (ceilDiv (500000 * nh) (uohm * half)))

end Sys2Proof.Machine
end

