-- ==== Sys2Proof/Machine/FieldControl.lean ====
section
/-! DEFINITION. Field control of the steering motor by FCE0 (06_field_control.md), with re-acquisition and drag
compensation (08_motor_fault_states.md) and the FCE0's side of the duty vote (07_duty_vote.md). -/

namespace Sys2Proof.Machine

/-- The loop of a set. -/
def Fce0.set (f : Fce0) : Chan → SetLoop
  | .A => f.setA
  | .B => f.setB
  | .C => f.setC

/-- Replace the loop of a set. -/
def Fce0.put (f : Fce0) (k : Chan) (x : SetLoop) : Fce0 :=
  match k with
  | .A => { f with setA := x }
  | .B => { f with setB := x }
  | .C => { f with setC := x }

/-- Change FCE0's part. -/
def Channel.f0up (c : Channel) (g : Fce0 → Fce0) : Channel := { c with f0 := g c.f0 }

/-- Change the loop of a set. -/
def Channel.setUp (c : Channel) (k : Chan) (g : SetLoop → SetLoop) : Channel :=
  { c with f0 := c.f0.put k (g (c.f0.set k)) }

/-- Bit of a channel in a mask. -/
def inMask (m : BitVec 3) (k : Chan) : Bool := m.getLsbD k.idx

/-- Members in a mask. -/
def maskCount (m : BitVec 3) : Nat := (if inMask m .A then 1 else 0) + (if inMask m .B then 1 else 0) + (if inMask m .C then 1 else 0)

/-- The mask in force for a period that began at TB count `t` (R223). -/
def Channel.maskAt (c : Channel) (t : Nat) : BitVec 3 :=
  match c.xlk.next with
  | some (m, r) => if r ≤ t then m else c.xlk.mask
  | none => c.xlk.mask

/-- The unit of the own motor encoder (R193, R309). -/
def Channel.encu (c : Channel) : Nat := c.parF 0 11 16 3

/-- CPR = 4 × LINES (R195). -/
def Channel.cpr (c : Channel) : Nat := 4 * c.parF 0 0 16 16

/-- The own encoder's angle from a count (R195). -/
def Channel.encAngle (c : Channel) (count : Int) (aoff : Nat) : Nat :=
  if c.cpr = 0 then aoff % 2 ^ 32
  else (((count - c.f0.cref) % (c.cpr : Int)).toNat * c.parF 0 0 0 8 * 2 ^ 32 / c.cpr + aoff) % 2 ^ 32

/-- The own encoder is valid (R195): no severe fault of its unit, which is its UFAULT (R305), aligned, not declared
faulty. -/
def Channel.encValid (c : Channel) : Bool :=
  c.encOn c.encu && !c.is (ENC_USTAT_UFAULT c.encu) && c.is (FCE_STAT_ALIGNED 0) && !c.f0.encBad

/-- Two angles differ by more than POSTOL, which is in degrees (R193, R197, R198, R242). -/
def Channel.beyondPostol (c : Channel) (a b : Nat) : Bool :=
  decide (c.parF 0 8 16 8 * 2 ^ 32 < 360 * (angDiff a b).natAbs)

/-- WOFS of a set in degrees (R193). -/
def Channel.wofs (c : Channel) (k : Chan) : Int := c.parF 0 9 (9 * k.idx) 9

/-- KA of R195. -/
def kA : Int := 57341611

/-- The angle for set `k` borrowed from channel `j`'s encoder (R195). -/
def Channel.borrow (c : Channel) (k j : Chan) : Nat :=
  let p := (c.f0.set j).last
  let dt : Int := ((c.ofs k : Int) - c.ofs j) % (2 * c.half 0 : Int)
  let speed := (spOmega p * dt * kA + 2 ^ 39) / 2 ^ 40
  let offs := rdiv ((c.wofs k - c.wofs j) * 2 ^ 32) 360
  ofSigned 32 (spTheta p + speed + offs)

/-- A peer's own encoder may be borrowed: a voting member's packet of the latest period with EV (R194, R211). -/
def Channel.peerValid (c : Channel) (m : BitVec 3) (j : Chan) : Bool :=
  inMask m j && (c.f0.set j).here && spEV (c.f0.set j).last

/-- The minimum speed of the observer, OBSMIN × RATED in electrical rad/s (R193, R241). -/
def Channel.obsMin (c : Channel) : Int := rdiv (ratedOmega (c.parF 0 7 0 16) (c.parF 0 0 0 8) * c.parF 0 8 0 8) 100

/-- OBSCONF in Q16.16. -/
def Channel.obsConf (c : Channel) : Nat := (rdiv (c.parF 0 8 8 8 * 65536 : Int) 100).toNat

/-- The source selected for a set before (FCE_POSSEL, R206). -/
def possel : Chan → Fld
  | .A => FCE_POSSEL_SRCA
  | .B => FCE_POSSEL_SRCB
  | .C => FCE_POSSEL_SRCC

/-- Position source of a set for the period (R194): 1 its own encoder, 2 to 4 a peer's, 5 the observer, 0 none. The
observer stays selected until its confidence has been low for 4 periods (R199).
DEDUCED, unsafe: log entry 37. -/
def Channel.selectSrc (c : Channel) (m : BitVec 3) (k : Chan) (p : BitVec 176) (conf low : Nat) : Nat :=
  if spEV p then 1
  else match [Chan.A, Chan.B, Chan.C].find? (fun j => j != k && c.peerValid m j) with
    | some j => j.num + 1
    | none => if c.obsConf ≤ conf || (c.rd (possel k) == 5 && low < 4) then 5 else 0

/-- Angle and speed of the selected source. -/
def Channel.srcAngle (c : Channel) (k : Chan) (p : BitVec 176) (src oth : Nat) (oom : Int) : Nat × Int :=
  match src with
  | 1 => (spTheta p, spOmega p)
  | 2 => (c.borrow k .A, spOmega (c.f0.set .A).last)
  | 3 => (c.borrow k .B, spOmega (c.f0.set .B).last)
  | 4 => (c.borrow k .C, spOmega (c.f0.set .C).last)
  | _ => (oth, oom)

/-- VLINK at or above LOSSV (R256): VLC at 100 V ÷ 16,384 against 0.1 V. -/
def Channel.lossMode (c : Channel) (vlc : Nat) : Bool :=
  c.rd (GDR_LL_VALUE 4) / 2 ^ 16 % 256 != 0 && c.rd (GDR_LL_VALUE 5) % 2 ^ 16 * 16384 ≤ vlc * 1000

/-- idref under loss mode (R256). -/
def Channel.lossRef (c : Channel) (vlc : Nat) (imax idfw : Int) : Option Int :=
  if c.lossMode vlc then
    some (max (min idfw (-(rdiv (imax * (c.rd (GDR_LL_VALUE 4) / 2 ^ 16 % 256 : Nat)) 100))) (-imax))
  else none

/-- The limit of regeneration on a reference (R255): a torque against the rotation is limited to P ÷ (1.5 × PSI × |ω|),
to 0 after CHOP_FAIL and below 1 % of RATED; 65,535 W means no limit.
DEDUCED, unsafe: log entry 36. -/
def regenClamp (iq omega rated : Int) (psi ifs regen : Nat) (zero : Bool) : Int :=
  if !zero && regen == 65535 then iq
  else if sgn iq * sgn omega ≠ -1 then iq
  else
    let lim : Int :=
      if zero || omega.natAbs * 100 < rated.natAbs || psi = 0 || ifs = 0 then 0
      else (regen * 2 ^ 47 * 20000000 / (3 * psi * omega.natAbs * ifs) : Nat)
    clampI iq (-lim) lim

/-- Power limit of regeneration of the channel's bridges (R251, R254). -/
def Channel.regenW (c : Channel) : Nat := c.rd (GDR_LL_VALUE 6) % 2 ^ 16

/-- The latest valid speed of the own set for R255: its encoder's, or the loop's. -/
def Channel.ownOmega (c : Channel) : Int := c.rdS (FCE_OMEGA_VALUE 0)

/-- IQLIM of R316: min(1.0, TLIM × 3 ÷ (1,000 × WIND)) × IMAX, 0 when no winding set counts. -/
def Channel.iqLim (c : Channel) : Int :=
  let w := c.rd STW_DEPTH_WIND
  let t := c.rd STW_LIMIT_TORQUE
  let imax := cvtI (c.parF 0 5 0 16) (c.parF 0 25 0 16)
  if w = 0 then 0 else if 1000 * w ≤ t * 3 then imax else rdiv (imax * (t * 3 : Nat)) (1000 * w)

/-- FCE_SETPT taken as IQREF at t0 (R210): clamped to IQLIM (R316), then to the limit of regeneration (R255). -/
def Channel.takeIqref (c : Channel) : Channel :=
  let raw := clampI (c.rdS (FCE_SETPT_VALUE 0)) (-c.iqLim) c.iqLim
  let rated := ratedOmega (c.parF 0 7 0 16) (c.parF 0 0 0 8)
  let v := regenClamp raw c.ownOmega rated (c.par 0 4) (c.parF 0 25 0 16) c.regenW (c.is GDR_CHOP_FAILED)
  let c := c.flag (FCE_REGEN_LIMITED 0) (v != raw)
  { c with f0 := { c.f0 with iqref := v } }

/-- The rectification guard (R234): a mean below −2 % of IFS_DC in 2 consecutive periods while a bridge is open shorts
every open bridge of the channel. -/
def Channel.rectGuard (c : Channel) (idc : Int) : Channel :=
  let so := c.bstate .S == 1
  let po := c.bstate .P == 1
  if (so || po) && decide (idc * 50 < -(2 ^ 31 : Int)) then
    if 1 ≤ c.pow.guardRun then
      let c := { c with pow := { c.pow with guardRun := 0 } }.sat GDR_LADCNT_GUARD
      let c := if so then (c.setGuard .S true).settle .S else c
      if po then (c.setGuard .P true).settle .P else c
    else { c with pow := { c.pow with guardRun := c.pow.guardRun + 1 } }
  else { c with pow := { c.pow with guardRun := 0 } }

/-- Σ dk × ik over an interval (R188), in the unit of the current base × 2^31: means of the two duty triplets in force
and of the currents at the interval's two ends. -/
def dutyTerm (half ifs : Nat) (d1 d2 : Nat × Nat × Nat) (u1 v1 u2 v2 : Int) : Int :=
  if half = 0 then 0
  else
    let w1 := -(u1 + v1)
    let w2 := -(u2 + v2)
    rdiv ((((d1.1 + d2.1 : Nat) : Int) * (u1 + u2) + ((d1.2.1 + d2.2.1 : Nat) : Int) * (v1 + v2)
      + ((d1.2.2 + d2.2.2 : Nat) : Int) * (w1 + w2)) * ifs) (4 * half)

/-- The DC-link cross-check (R188): FCE_XCHK after XN consecutive periods beyond XTOL; a period with a bridge off or
shorted at its beginning or its end is skipped. `half` is that of the interval that ends here. -/
def Channel.xchk (c : Channel) (half : Nat) (idc iu iv : Int) : Channel :=
  let skip (n : Nat) : Bool := n == 2 || n == 3
  let dead := skip (c.bstate .S) || skip (c.bstate .P)
  let next (c : Channel) : Channel := { c with f0 := { c.f0 with iuPrev := iu, ivPrev := iv, deadPrev := dead } }
  if dead || c.f0.deadPrev then next c
  else
    let ifs := c.parF 0 25 0 16
    let est := dutyTerm half ifs c.f0.dPrev c.f0.dNow c.f0.iuPrev c.f0.ivPrev iu iv + c.f1.pterm
    let resid := idc * c.parF 0 26 0 16 - est
    let c := c.wrSat FCE_XCHK_RESID (rdiv resid (2 ^ 31))
    let tol : Int := rdiv (c.parF 0 27 0 16 * ifs * 2 ^ 31 : Int) 1000
    if (resid.natAbs : Int) > tol then
      let c := c.sat FCE_XCHK_RUN
      if c.rd FCE_XCHK_RUN = c.parF 0 27 16 8 then next ((c.sat FCE_XCHK_EVENTS).raise 20) else next c
    else next (c.wr FCE_XCHK_RUN 0)

/-- Compute deadline CDL (R215). -/
def cdlOf (half : Nat) : Nat := 440 + min 1200 (half / 5 + 200)

/-- Vote deadline VDL (R215). -/
def vdlOf (half : Nat) : Nat := cdlOf half + 240

/-- XLK_DEADL shows the deadlines in force (R216, R228), those of the 10 kHz carrier while it runs. -/
def Channel.showDeadl (c : Channel) : Channel := (c.wr XLK_DEADL_CDL (cdlOf (c.half 0))).wr XLK_DEADL_VDL (vdlOf (c.half 0))

/-- The end of fawn service at the valley (R184): TB steps to the reference, and the carrier continues at PWMS.
DEDUCED, unsafe: log entries 28, 37. -/
def Channel.fawnEnd (c : Channel) : Channel :=
  if c.f0.fawnStep then
    let c := { c with tb := c.tb + BitVec.ofInt 48 c.f0.align, f0 := { c.f0 with fawnStep := false, align := 0 } }
    (c.wr (FCE_STAT_FAWN10 0) 0).showDeadl
  else c

/-- What the sample packet shows of t0 (R210): the encoder's validity, alignment, angle and speed, and bridge S's state. -/
def Channel.latchT0Flags (c : Channel) : Channel :=
  let ev := c.encValid
  c.f0up fun f =>
    { f with ev0 := ev, al0 := c.is (FCE_STAT_ALIGNED 0), bst0 := c.bstate .S,
             th0 := if ev then c.encAngle f.latch f.aoff else 0, om0 := if ev then c.rdS ENC_OMEGA_VALUE else 0 }

/-- VLINK_x at the valley: shown, and kept with the sample before it for the slope of R253. -/
def Channel.takeVlc (c : Channel) (vlc : Nat) : Channel :=
  { c.wr GDR_LINK_VLC vlc with pow := { c.pow with vlcs := (vlc, c.tb.toNat) :: c.pow.vlcs.take 1 } }

/-- What the power die does of itself in every bridge S period (R233, R234): the selectors follow VLINK_x under the words
they hold, and the rectification guard watches the link current. -/
def Channel.powerValley (c : Channel) (idc : Int) : Channel :=
  let c := c.rectGuard idc
  (((c.select .S).settle .S).select .P).settle .P

/-- The bridge S valley (R185): TB, the encoder count and the setpoint are latched, VLINK is converted, the guard and
the cross-check act; the samples wait for their conversions. -/
def Channel.valleyS (c : Channel) (s : SValley) : Channel :=
  let half := c.half 0
  let c := c.fawnEnd
  let c := (c.takeVlc s.vlc.toNat).wr (FCE_STAT_RUN 0) 1
  let c := c.wrS (FCE_IDC_VALUE 0) s.idc
  let c := c.latchUnits
  let c := c.f0up fun f => { f with t0 := c.tb.toNat, latch := c.rdS (ENC_COUNT_VALUE c.encu), pend := some s }
  let c := c.latchT0Flags
  let c := c.takeIqref.powerValley s.idc
  c.xchk half s.idc (phaseCurrent ((s.codeU : Int) - c.f0.offU)) (phaseCurrent ((s.codeV : Int) - c.f0.offV))

/-- BRIDGE_S_VALLEY (R185). With the digital die silent the power die runs on (R233, R234). -/
def execBridgeSValley (ch : Chan) (v : SValley) (s : State) : Out :=
  .next (s.onPower ch fun c => if c.live then c.valleyS v else (c.takeVlc v.vlc.toNat).powerValley v.idc)

/-- The conversions complete (R185, R210, R211): the own sample packet is sent and its set may be computed. -/
def Channel.convDone (c : Channel) : Channel :=
  match c.f0.pend with
  | none => c
  | some s =>
    let f := c.f0
    let p := mkSample c.me.num (c.pseqOf c.me) f.th0 f.om0 f.iqref (c.bit (FCE_STAT_OFSOK 0) 0) f.ev0 f.al0 f.bst0
      ((s.codeU : Int) - f.offU) ((s.codeV : Int) - f.offV) s.vlc.toNat
    let c := c.f0up fun f => { f with pend := none, pktOut := p }
    c.setUp c.me fun l => { l with pkt := some p, got := true, last := p, here := true }

/-- ADC_CONVERSION_DONE (R185). -/
def execAdcConversionDone (ch : Chan) (s : State) : Out := .next (s.onLive ch fun c => c.convDone)

/-- SAMPLE_PACKET_RECEIVED (R211): a class 0 packet that fails its CRC is counted (R23); one held after SDL is absent
(R215). -/
def Channel.sampleIn (c : Channel) (p : BitVec 176) (crcOk : Bool) (off : Nat) : Channel :=
  if !crcOk then c.sat XLK_LINK_CRCERR
  else match Chan.ofNum (spOrigin p) with
    | none => c
    | some j =>
      if j = c.me ∨ c.hears j = false ∨ 440 < off ∨ pk p 0 4 ≠ 1 then c
      else c.setUp j fun l => { l with pkt := some p, got := true, last := p, here := true }

/-- SAMPLE_PACKET_RECEIVED (R211). -/
def execSamplePacketReceived (ch : Chan) (pkt : BitVec 176) (crcOk : Bool) (off : Nat) (s : State) : Out :=
  .next (s.onLive ch fun c => c.sampleIn pkt crcOk off)

/-- The FCE0 computes set `k` under mask `m` (R207): every set of the members for a member or a shadow, the own set only
in split configuration; never a set whose bridge S is unused. -/
def Channel.computes (c : Channel) (m : BitVec 3) (k : Chan) : Bool :=
  !inMask c.f0.noSet k &&
    (if c.lockstep then inMask m k && ((c.voting && inMask m c.me) || c.rd HRD_STAT_ROLE == 2) else k == c.me)

/-- Peer alignment of the own encoder (R196): the own angle takes the borrowed one, in the first period in which a peer's is
valid, whether the own set is computed or not.
DEDUCED, unsafe: log entry 37. -/
def Channel.peerAlign (c : Channel) (m : BitVec 3) : Channel :=
  if c.is (FCE_STAT_ALIGNED 0) then c
  else match [Chan.A, Chan.B, Chan.C].find? (fun j => j != c.me && c.peerValid m j) with
    | none => c
    | some j =>
      let raw := c.encAngle c.f0.latch 0
      let aoff := ofSigned 32 ((c.borrow c.me j : Int) - raw)
      let c := c.f0up fun f => { f with aoff := aoff, idxDue := true }
      (c.wr (FCE_STAT_ALIGNED 0) 1).wr (FCE_STAT_ALIGNBY 0) 1

/-- SAMPLE_DEADLINE (R215, R225): a sample packet not held is absent for the period and counted in LATES; an echo of the
previous period not held is missing and counted in ECHOMISS. From here the echo of the period is due at every FCE0 that
computes the set, and no earlier one is taken. -/
def Channel.sdl (c : Channel) (k : Chan) : Channel :=
  let l := c.f0.set k
  let m := c.maskAt (c.t0Of k)
  let due := c.computes m k
  let c := if l.got || k == c.me || !inMask m k then c else c.sat XLK_LINK_LATES
  let c := if l.echoed then c else c.sat XLK_LINK_ECHOMISS
  let seq := c.pseqOf k
  let c := c.setUp k fun l =>
    { l with got := false, here := l.got, pkt := if l.got then l.pkt else none, echoed := !due, due := some seq, trip := none }
  if k = c.me then c.peerAlign m else c

/-- SAMPLE_DEADLINE (R215). -/
def execSampleDeadline (ch set : Chan) (s : State) : Out := .next (s.onLive ch fun c => c.sdl set)

/-- TRIPLET_OVERRUN (R218): the set's triplet is ended with an invalid CRC; the FCE0 keeps the state it held. -/
def execTripletOverrun (ch set : Chan) (s : State) : Out :=
  .next (s.onLive ch fun c =>
    if (c.f0.set set).pkt.isSome then (c.sat XLK_SELF_OVERRUN).setUp set fun l => { l with pkt := none } else c)

/-- The comparison of the own encoder with the peers' (R198): 4 consecutive periods beyond POSTOL from both, which agree
with each other, declare it faulty; against one valid peer the disagreement, over the same 4 periods, only raises FCE_POS.
The two runs are separate.
DEDUCED, unsafe: log entry 37. -/
def Channel.encCompare (c : Channel) (m : BitVec 3) (p : BitVec 176) : Channel :=
  let far := c.beyondPostol
  let own := spTheta p
  let runs (two one : Nat) : Channel := c.f0up fun f => { f with posRun := two, posRun1 := one }
  if !spEV p then runs 0 0
  else match (c.me.peers).filter (fun j => c.peerValid m j) with
    | [i, j] =>
      let a := c.borrow c.me i
      let b := c.borrow c.me j
      if far own a && far own b && !far a b then
        let c := runs (min 4 (c.f0.posRun + 1)) 0
        if c.f0.posRun = 4 && !c.f0.encBad then (c.f0up fun f => { f with encBad := true }).raise 21 else c
      else runs 0 0
    | [i] =>
      if far own (c.borrow c.me i) then
        let n := min 5 (c.f0.posRun1 + 1)
        let c := runs 0 n
        if n = 4 then c.raise 21 else c
      else runs 0 0
    | _ => runs 0 0

/-- KREL of R246 in Q16.16. -/
def Channel.krel (c : Channel) : Int :=
  if c.par 0 4 = 0 then 0
  else sat32 (rdiv (((c.par 0 2 : Int) - c.par 0 3) * c.parF 0 25 0 16 * 65536) (10000 * c.par 0 4))

/-- Drag compensation of a set in service (R246). -/
def Channel.dragComp (c : Channel) (m : BitVec 3) (k : Chan) : Int :=
  let others := [Chan.A, Chan.B, Chan.C].filter fun j => inMask m j
  let n := (others.filter fun j => (c.f0.set j).here && spBST (c.f0.set j).last == 0).length
  let term (j : Chan) : Int :=
    let l := c.f0.set j
    if j != k && l.here && spBST l.last != 0 && spSV l.last && (c.rd (possel j) != 0 || l.intd != 0) then
      let iu := phaseCurrent (spDiu l.last)
      let iv := phaseCurrent (spDiv l.last)
      let ib := fx 31 ((iu + 2 * iv) * k1)
      let s := sinQ l.oth
      let co := cosQ l.oth
      let id := fx 31 (iu * co + ib * s)
      let iq := fx 31 (ib * co - iu * s)
      iq * (2 ^ 47 + c.krel * id)
    else 0
  if n = 0 then 0 else sat32 (rdiv (-((others.map term).foldl (· + ·) 0)) (n * 2 ^ 47))

/-- One step of the re-acquisition estimate (R242) from a packet. -/
def Channel.reacquire (c : Channel) (l : SetLoop) (p : BitVec 176) : SetLoop :=
  if spBST p = 2 ∧ spSV p = true then
    if 8190 ≤ (spDiu p).natAbs ∨ 8190 ≤ (spDiv p).natAbs then { l with idfw := 0 }
    else
      let (phi, w, th) := estimate c.parS (phaseCurrent (spDiu p)) (phaseCurrent (spDiv p)) (ofSigned 32 l.intq)
      let pred := ofSigned 32 (l.oth + speedTurn l.oom (c.half 0))
      let near := !c.beyondPostol th pred && decide (2 ≤ l.intd)
      { l with oth := th, oom := w, intq := toSigned 32 phi, intd := l.intd + 1,
               idfw := if near then l.idfw + 1 else 0, intfw := 0 }
  else { l with intd := 0, intfw := 0 }

/-- The integrals that make the limited voltage of the period the zero vector (R243). -/
def zeroPreset (p : LoopPar) (iu iv : Int) (th : Nat) (om idref iqref : Int) : Int × Int :=
  let ib := fx 31 ((iu + 2 * iv) * k1)
  let s := sinQ th
  let c := cosQ th
  let id := fx 31 (iu * c + ib * s)
  let iq := fx 31 (ib * c - iu * s)
  let ed := idref - id
  let eq := iqref - iq
  let ffd := if p.ffen then fx 47 (-(om * p.lq * iq)) else 0
  let ffq := if p.ffen then fx 47 (om * (p.ld * id + p.psi * 2 ^ 31)) else 0
  (sat32 (-ffd - rshift 16 (p.kpd * ed) - rshift 16 (p.kid * ed)),
   sat32 (-ffq - rshift 16 (p.kpq * eq) - rshift 16 (p.kiq * eq)))

/-- The registers of the own set after a period (R206, R246, R256). -/
def Channel.showOwn (c : Channel) (o : LoopOut) (vlc : Nat) (th : Nat) (om iqc : Int) (conf : Nat) (loss : Bool) :
    Channel :=
  let c := ((c.wrS (FCE_ID_VALUE 0) o.id).wrS (FCE_IQ_VALUE 0) o.iq).wrS (FCE_VD_VALUE 0) o.vd
  let c := ((c.wrS (FCE_VQ_VALUE 0) o.vq).wr (FCE_VLINK_VALUE 0) (vlc * 2 ^ 17)).wr (FCE_THETA_VALUE 0) th
  let c := ((c.wrS (FCE_OMEGA_VALUE 0) om).wrS (FCE_MI_VALUE 0) o.m).wr (FCE_CONF_VALUE 0) conf
  let c := ((c.flag (FCE_STAT_FW 0) (decide (o.idfw < 0))).flag (FCE_STAT_VSAT 0) o.vsat).flag (FCE_STAT_ISAT 0) o.isat
  (c.wrS FCE_DRAG_IQC iqc).flag (FCE_REGEN_LOSS 0) loss

/-- The registers of the own set in a period in which R190 is not run (R206, R262): no compensation is added. -/
def Channel.showIdle (c : Channel) (vlc conf : Nat) : Channel :=
  ((c.wr (FCE_CONF_VALUE 0) conf).wrS FCE_DRAG_IQC 0).flag (FCE_REGEN_LOSS 0) (c.lossMode vlc)

/-- FCE_CSPIN of the own set (R262). -/
def Channel.showCspin (c : Channel) (l : SetLoop) (p : BitVec 176) (dwell : Nat) : Channel :=
  let ph := if !l.await then 0 else if spBST p ≠ 2 then 1 else if l.intd < dwell then 2 else 3
  (c.wr FCE_CSPIN_PHASE ph).wr FCE_CSPIN_CONS (if l.await then min 255 l.idfw.toNat else 0)

/-- Store a set's result at the FCE0 and send its triplet (R207, R212, R214): over the die-to-die link for the own set,
over the cross-link for a peer's; XLK_CMPT times it. A shadow sends none (R143). -/
def Channel.sendTriplet (c : Channel) (k : Chan) (pseq : Nat) (l : SetLoop) (du dv dw accepted : Nat) : Channel :=
  let body := mkBody l.oth l.oom l.intd l.intq l.intfw l.idfw du dv dw
  let t := mkTriplet 2 c.me.num k.num pseq body
  let c := c.setUp k fun _ => { l with pkt := none, fresh := false, trip := some t }
  if !c.voting && c.lockstep then c
  else
  let c := c.wr XLK_CMPT_LAST (min accepted 2047)
  let c := if c.rd XLK_CMPT_MAX < accepted then c.wr XLK_CMPT_MAX (min accepted 2047) else c
  if k = c.me then
    match k with
    | .A => { c with xlk := { c.xlk with trA := c.xlk.trA.or (some t) } }
    | .B => { c with xlk := { c.xlk with trB := c.xlk.trB.or (some t) } }
    | .C => { c with xlk := { c.xlk with trC := c.xlk.trC.or (some t) } }
  else
    match k with
    | .A => { c with xlk := { c.xlk with tripOutA := t } }
    | .B => { c with xlk := { c.xlk with tripOutB := t } }
    | .C => { c with xlk := { c.xlk with tripOutC := t } }

end Sys2Proof.Machine
end

