-- ==== Sys2Proof/Machine/SetCompute.lean ====
section
/-! DEFINITION. One period of one winding set at one FCE0 (R190, R194, R199, R207 to R209 and R217 of
06_field_control.md and 07_duty_vote.md), with re-acquisition (R240 to R246 of 08_motor_fault_states.md). -/

namespace Sys2Proof.Machine

/-- What a period gives: the loop's new state, the duties and, where R190 ran, its values. -/
structure SetOut where
  l : SetLoop
  du : Nat := 0
  dv : Nat := 0
  dw : Nat := 0
  out : Option LoopOut := none
  th : Nat := 0
  om : Int := 0
  iqc : Int := 0
  obsFail : Bool := false
  cspinFail : Bool := false
  src : Nat := 0

/-- The observer of a set over one period (R199): angle, speed and confidence; the confidence is 0 below OBSMIN. -/
def Channel.observeSet (c : Channel) (l : SetLoop) (iu iv : Int) : Nat × Int × Nat :=
  let p := c.parS
  let ib := fx 31 ((iu + 2 * iv) * k1)
  let (th, om, cf) := observe p (c.parF 0 7 16 16) l.oth l.oom l.va l.vb iu ib l.ia l.ib
  (th, om, if (om.natAbs : Int) < c.obsMin then 0 else cf)

/-- Measured d-axis current clamped to [−IDMIN, 0]: IDFW's preset of R243. -/
def idPreset (p : LoopPar) (iu iv : Int) (th : Nat) : Int :=
  let ib := fx 31 ((iu + 2 * iv) * k1)
  clampI (fx 31 (iu * cosQ th + ib * sinQ th)) (-p.idmin) 0

/-- The state of a set that shows an active short and is to be driven from the angle and speed given: IDFW from the
measured current, INTD and INTQ for the zero vector (R243, R244), with the references that R190 uses in the period: under
loss mode (R256) and on the current circle.
DEDUCED, unsafe: log entry 38. -/
def Channel.presetShort (c : Channel) (l : SetLoop) (vlc : Nat) (iu iv : Int) (th : Nat) (om iqref : Int) : SetLoop :=
  let p := c.parS
  let idfw := idPreset p iu iv th
  let idref := (c.lossRef vlc p.imax idfw).getD idfw
  let lim := sat32 (isqrt (p.imax * p.imax - idref * idref))
  let (d, q) := zeroPreset p iu iv th om idref (clampI iqref (-lim) lim)
  { l with intd := d, intq := q, intfw := 0, idfw := idfw }

/-- R190 for a set from an angle and a speed; `oth`, `oom` are what the triplet carries of the observer.
DEDUCED, unsafe: log entry 38. -/
def Channel.runPeriod (c : Channel) (k : Chan) (m : BitVec 3) (l : SetLoop) (p : BitVec 176) (src th : Nat) (om : Int)
    (oth : Nat) (oom : Int) : SetOut :=
  let q := c.parS
  let iu := phaseCurrent (spDiu p)
  let iv := phaseCurrent (spDiv p)
  let lock := c.f0.rotorLock && k == c.me
  let th := if lock then 0 else th
  let om := if lock then 0 else om
  let iqc := if spBST p = 0 then c.dragComp m k else 0
  let iqref := if lock then 0 else sat32 (spIqref p + iqc)
  let l := if spBST p = 2 then c.presetShort l (spVlc p) iu iv th om iqref else l
  let loss := if lock then some (rdiv (q.imax * c.parF 0 8 24 8) 100) else c.lossRef (spVlc p) q.imax l.idfw
  let x : LoopIn :=
    { iu := iu, iv := iv, vlink := spVlc p * 2 ^ 17, theta := th, omega := om, iqref := iqref, loss := loss,
      intd := l.intd, intq := l.intq, intfw := l.intfw, idfw := l.idfw }
  let o := period q x
  let ib := fx 31 ((iu + 2 * iv) * k1)
  { l := { l with oth := oth, oom := oom, intd := o.intd, intq := o.intq, intfw := o.intfw, idfw := o.idfw,
                  ia := iu, ib := ib },
    du := o.du, dv := o.dv, dw := o.dw, out := some o, th := th, om := om, iqc := iqc, src := src }

/-- The set begins to await re-acquisition: it sends the no-drive triplet (R240). -/
def beginAwait (l : SetLoop) (oth : Nat) (oom : Int) (obs : Bool) : SetOut :=
  { l := { l with oth := oth, oom := oom, intd := 0, intq := 0, intfw := 0, idfw := 0, await := true, had8 := false,
                  resumed := false },
    obsFail := obs }

/-- The estimate of R242 from this period's current vector and that of the period before, for a set that has resumed by
R243 and is still shorted (R260). -/
def Channel.reEstimate (c : Channel) (l : SetLoop) (iu iv : Int) : Nat × Int :=
  let (_, w, th) := estimate c.parS iu iv (angleQ l.ia l.ib)
  (th, w)

/-- A period with a valid position source, or the one that finds none: then the set begins to await re-acquisition with
the no-drive triplet (R240). A set that is shorted with the observer alone comes back through catch-spin (R222, R258); one
that has resumed and waits for its short to end is preset from the estimate (R260). -/
def Channel.drivePeriod (c : Channel) (k : Chan) (m : BitVec 3) (l : SetLoop) (p : BitVec 176) : SetOut :=
  let iu := phaseCurrent (spDiu p)
  let iv := phaseCurrent (spDiv p)
  let (oth, oom, conf) := c.observeSet l iu iv
  let low := if conf < c.obsConf then min 4 (l.low + 1) else 0
  let src := c.selectSrc m k p conf low
  let (th, om) := c.srcAngle k p src oth oom
  let (oth, oom) := if l.fresh then (th, om) else (oth, oom)
  let l := { l with conf := conf, low := low, resumed := l.resumed && spBST p == 2 }
  if c.f0.rotorLock && k == c.me then c.runPeriod k m l p src th om oth oom
  else if spBST p = 2 && l.resumed && (src == 0 || src == 5) then
    let (th, om) := c.reEstimate l iu iv
    c.runPeriod k m l p 5 th om th om
  else if src = 0 then beginAwait l oth oom true
  else if spBST p = 2 && src == 5 then beginAwait l oth oom false
  else c.runPeriod k m l p src th om oth oom

/-- A period of a set that awaits re-acquisition (R241 to R245): it resumes as soon as an encoder source is valid, or
when the dwell, the consistent count and the speed of R243 are reached.
DEDUCED, unsafe: log entry 38. -/
def Channel.awaitPeriod (c : Channel) (k : Chan) (m : BitVec 3) (l : SetLoop) (p : BitVec 176) : SetOut :=
  let enc := c.selectSrc m k p 0 4
  let clear : SetLoop := { l with await := false, had8 := false, conf := 65536, low := 0 }
  if enc ≠ 0 ∧ enc ≠ 5 then
    let (th, om) := c.srcAngle k p enc l.oth l.oom
    c.runPeriod k m { clear with intd := 0, intq := 0, intfw := 0, idfw := 0 } p enc th om th om
  else
    let n := c.reacquire l p
    let had := l.had8 || decide (8 ≤ n.idfw)
    if spBST p = 2 ∧ spSV p = true ∧ (dwellOf (c.par 0 2) (c.par 0 1) (c.half 0) : Int) ≤ n.intd ∧ 8 ≤ n.idfw ∧
        c.obsMin ≤ (n.oom.natAbs : Int) then
      c.runPeriod k m { clear with oth := n.oth, oom := n.oom, resumed := true } p 5 n.oth n.oom n.oth n.oom
    else
      let fail := had && decide (n.idfw = 0)
      { l := { n with had8 := had && !fail }, cspinFail := fail }

/-- The probe bit that the owning FCE0 puts into its speed word (R241): the own set awaits re-acquisition and the speed
estimate, the echoed OOM of the first set in service with a valid source or else the set's own, is at least ω_cs. -/
def Channel.probeWanted (c : Channel) : Bool :=
  let own := c.f0.set c.me
  own.await &&
    (let est := match [Chan.A, Chan.B, Chan.C].find? (fun j =>
        inMask (c.maskAt c.tb.toNat) j && (c.f0.set j).here && spBST (c.f0.set j).last == 0 && c.rd (possel j) != 0) with
      | some j => (c.f0.set j).oom
      | none => own.oom
     decide (c.obsMin ≤ (est.natAbs : Int)))

/-- FCE_POSSEL shows the source of a set (R206). -/
def Channel.storeSrc (c : Channel) (k : Chan) (src : Nat) : Channel := c.wr (possel k) src

/-- SET_COMPUTE_DONE (R217): the coprocessor computes the set from its packet and its agreed state, and the triplet
leaves by CDL or is an overrun (R218). A replica whose state is not agreed sends none (R209). -/
def Channel.computeSet (c : Channel) (k : Chan) (accepted : Nat) : Channel :=
  let l := c.f0.set k
  let m := c.maskAt (c.t0Of k)
  let drop (c : Channel) : Channel := c.setUp k fun l => { l with pkt := none }
  match l.pkt with
  | none => c
  | some p =>
    if !c.computes m k || !l.agreed || (!spSV p && !l.await) then drop c
    else if cdlOf (c.half 0) < accepted then drop (c.sat XLK_SELF_OVERRUN)
    else
      let c := if k = c.me then c.encCompare m p else c
      let o := if l.await then c.awaitPeriod k m l p else c.drivePeriod k m l p
      let c := (c.storeSrc k o.src).sendTriplet k (spPseq p) o.l o.du o.dv o.dw accepted
      if k ≠ c.me then c
      else
        let c := match o.out with
          | some r => c.showOwn r (spVlc p) o.th o.om o.iqc o.l.conf (c.lossMode (spVlc p))
          | none => c.showIdle (spVlc p) o.l.conf
        let c := c.f0up fun f => { f with probe := c.probeWanted }
        let c := c.showCspin o.l p (dwellOf (c.par 0 2) (c.par 0 1) (c.half 0))
        let c := if o.cspinFail then (c.sat FCE_CSPIN_FAILS).raise 23 else c
        c.raiseIf o.obsFail 22

/-- SET_COMPUTE_DONE (R217). -/
def execSetComputeDone (ch set : Chan) (accepted : Nat) (s : State) : Out :=
  .next (s.onLive ch fun c => c.computeSet set accepted)

/-- ROTOR_LOCK_DONE (R196): after 60 ms the settled count is angle 0, unless another event aligned the encoder first. -/
def Channel.rotorLocked (c : Channel) : Channel :=
  if !c.f0.rotorLock then c
  else if c.is (FCE_STAT_ALIGNED 0) then c.f0up fun f => { f with rotorLock := false }
  else
    let c := c.f0up fun f => { f with rotorLock := false, cref := f.latch, aoff := 0, idxDue := true }
    (c.wr (FCE_STAT_ALIGNED 0) 1).wr (FCE_STAT_ALIGNBY 0) 3

/-- ROTOR_LOCK_DONE (R196).
DEDUCED, unsafe: log entry 37. -/
def execRotorLockDone (ch : Chan) (s : State) : Out := .next (s.onLive ch fun c => c.rotorLocked)

end Sys2Proof.Machine
end

