-- ==== Sys2Proof/Machine/Vote.lean ====
section
/-! DEFINITION. The duty vote of bridge S at the owning power die, the echo at every FCE0 and the member mask (R209,
R213, R214 and R220 to R227 of 07_duty_vote.md). -/

namespace Sys2Proof.Machine

/-- The triplet of an origin that is present for the period (R220). -/
def Channel.triplet (c : Channel) : Chan → Option (BitVec 256)
  | .A => c.xlk.trA
  | .B => c.xlk.trB
  | .C => c.xlk.trC

/-- Record a triplet as present. -/
def Channel.putTriplet (c : Channel) (o : Chan) (t : Option (BitVec 256)) : Channel :=
  match o with
  | .A => { c with xlk := { c.xlk with trA := t } }
  | .B => { c with xlk := { c.xlk with trB := t } }
  | .C => { c with xlk := { c.xlk with trC := t } }

/-- A duty triplet at CD-x (R214, R220): a failed CRC, a misroute and a duplicate are counted; a triplet late, of another
kind or period or from outside the mask is absent. -/
def Channel.tripletIn (c : Channel) (p : BitVec 256) (crcOk : Bool) (off : Nat) : Channel :=
  if !crcOk then c.sat XLK_LINK_CRCERR
  else if trKind p ≠ 2 then c
  else if trSet p ≠ c.me.num then c.sat XLK_LINK_MISROUTE
  else match Chan.ofNum (trOrigin p) with
    | none => c
    | some o =>
      if (o ≠ c.me ∧ c.hears o = false) ∨ vdlOf (c.half 0) < off ∨ trPseq p ≠ c.pseqOf c.me ∨ ¬ inMask (c.maskAt (c.t0Of c.me)) o then c
      else if (c.triplet o).isSome then c.sat XLK_LINK_MISROUTE
      else c.putTriplet o (some p)

/-- DUTY_TRIPLET_RECEIVED (R220). -/
def execDutyTripletReceived (ch : Chan) (pkt : BitVec 256) (crcOk : Bool) (off : Nat) (s : State) : Out :=
  .next (s.onLive ch fun c => c.tripletIn pkt crcOk off)

/-- A mismatch of a shadow (R143): counted, and the shadow phase ends; the channel asks to join again. -/
def Channel.shadowMismatch (c : Channel) : Channel :=
  if c.rd HRD_STAT_ROLE = 2 then
    let c := (c.sat HRD_SHADOW_MISMATCH).wr HRD_STAT_ROLE 4
    { c with hrd := { c.hrd with
      cur := { c.hrd.cur.kept with mismatch := c.rd HRD_SHADOW_MISMATCH }, next := none, asking := true } }.dropObjects
  else c

/-- A shadow's duties differ from the echo's (R143, R224). -/
def shadowDiffers (l : SetLoop) (p : BitVec 256) : Bool :=
  match l.trip with
  | some t => trKind p != 5 && (trDu t != trDu p || trDv t != trDv p || trDw t != trDw p)
  | none => false

/-- The state of a set after an echo (R224, R240): overwritten by KIND 0x3 and 0x4; KIND 0x5 carries none, and
no voltage is applied. -/
def Channel.echoLoop (c : Channel) (l : SetLoop) (p : BitVec 256) : SetLoop :=
  if trKind p = 5 then { l with agreed := true, echoed := true, trip := none, va := 0, vb := 0 }
  else
    let (va, vb) := appliedVolts (c.half 0) (trDu p) (trDv p) (trDw p) (spVlc l.last * 2 ^ 17)
    let aw := noDrive (trBody p)
    { l with oth := trOth p, oom := trOom p, intd := trIntd p, intq := trIntq p, intfw := trIntfw p, idfw := trIdfw p,
             agreed := true, echoed := true, trip := none, va := va, vb := vb, await := aw, had8 := l.had8 && aw }

/-- An echo at an FCE0 (R224, R227): comparison of a shadow, overwrite, the own duties for the cross-check, VOTE_ODD. -/
def Channel.takeEcho (c : Channel) (k : Chan) (p : BitVec 256) : Channel :=
  let l := c.f0.set k
  let c := if c.rd HRD_STAT_ROLE = 2 && shadowDiffers l p then c.shadowMismatch else c
  let c := c.setUp k fun l => c.echoLoop l p
  let c := if k = c.me then c.f0up fun f => { f with dPrev := f.dNow, dNow := (trDu p, trDv p, trDw p) } else c
  if trOrigin p = c.me.num then (c.sat XLK_SELF_ODDSELF).raise 27 else c

/-- VOTE_ECHO_RECEIVED (R224): only a checked echo of its set and of the period that is due counts; one that comes after SDL
of the next period stays missing (R23, R225). -/
def execVoteEchoReceived (ch set : Chan) (pkt : BitVec 256) (crcOk : Bool) (s : State) : Out :=
  .next (s.onLive ch fun c =>
    if !crcOk then c.sat XLK_LINK_CRCERR
    else if set ≠ ch ∧ c.hears set = false then c
    else if trSet pkt = set.num ∧ (c.f0.set set).due = some (trPseq pkt) ∧ (trKind pkt = 3 ∨ trKind pkt = 4 ∨ trKind pkt = 5) then c.takeEcho set pkt
    else c)

/-- What a vote gives: the value used, or a hold, with the outvoted channel, OUT and the source to raise. -/
structure Ballot where
  use : Option (BitVec 240)
  odd : Option Chan := none
  out : Nat
  src : Option Nat := none
  deriving DecidableEq, Repr

/-- The rule of R221 over the present triplets, by origin. `solo`: the mask holds only channel k. -/
def ballot (solo : Bool) (a b c : Option (BitVec 240)) : Ballot :=
  match a, b, c with
  | some x, some y, some z =>
    if x = y ∧ y = z then { use := some x, out := 0 }
    else if x = y then { use := some x, odd := some .C, out := 0 }
    else if x = z then { use := some x, odd := some .B, out := 0 }
    else if y = z then { use := some y, odd := some .A, out := 0 }
    else { use := none, out := 3, src := some 28 }
  | some x, some y, none | some x, none, some y | none, some x, some y =>
    if x = y then { use := some x, out := 1 } else { use := none, out := 3, src := some 28 }
  | some x, none, none | none, some x, none | none, none, some x =>
    if solo then { use := some x, out := 2 } else { use := none, out := 3, src := some 29 }
  | none, none, none => { use := none, out := 3 }

/-- The counter of a channel in XLK_ODD. -/
def oddFld : Chan → Fld
  | .A => XLK_ODD_ODDA
  | .B => XLK_ODD_ODDB
  | .C => XLK_ODD_ODDC

/-- The counter of a member in XLK_MISS. -/
def missFld : Chan → Fld
  | .A => XLK_MISS_MISSA
  | .B => XLK_MISS_MISSB
  | .C => XLK_MISS_MISSC

/-- Members whose triplet is absent at VDL. -/
def Channel.countMiss (c : Channel) (m : BitVec 3) : List Chan → Channel
  | [] => c
  | k :: r => (if inMask m k && (c.triplet k).isNone then c.sat (missFld k) else c).countMiss m r

/-- Registers of a vote (R228). RULE is 0 until bridge S is released; then it is the number of members in the mask.
DESIGN CHOICE, unsafe: log entry 85. -/
def Channel.showVote (c : Channel) (m pres : BitVec 3) (b : Ballot) (pseq : Nat) : Channel :=
  let c := ((c.wr XLK_STAT_MASK m.toNat).wr XLK_STAT_PRES pres.toNat).wr XLK_STAT_OUT b.out
  let c := (c.wr XLK_STAT_ODD (match b.odd with | some k => k.num | none => 0)).wr XLK_STAT_RULE
    (if (c.causes .S).testBit 2 then 0 else maskCount m)
  let c := (c.inc XLK_VCNT_VOTES).wr XLK_VDUTY1_PSEQ pseq
  match b.odd with
  | some k => c.sat (oddFld k)
  | none => c

/-- A result in use or held: its duties show in XLK_VDUTY. -/
def Channel.showDuties (c : Channel) (v : BitVec 240) : Channel :=
  let n := v.toNat
  ((c.wr XLK_VDUTY0_DU (nbitsAt n 192 16)).wr XLK_VDUTY0_DV (nbitsAt n 208 16)).wr XLK_VDUTY1_DW (nbitsAt n 224 16)

/-- A result is used (R222, R236, R240, R243): causes 2 and 6 clear; a no-drive triplet sets cause 7, a resume triplet
clears it.
DEDUCED, unsafe: log entry 39. -/
def Channel.useResult (c : Channel) (v : BitVec 240) : Channel :=
  let c := ((c.wr XLK_STAT_HOLDRUN 0).wr XLK_STAT_OUTSVC 0).showDuties v
  let c := { c with xlk := { c.xlk with held := some v, used := true } }
  let was := (c.causes .S).testBit 7
  let c := (c.setCause .S 2 false).setCause .S 6 false
  if noDrive v then c.setCause .S 7 true
  else
    let c := c.setCause .S 7 false
    if was then c.sat FCE_CSPIN_DONE else c

/-- A period is held (R222): the fourth in a row takes bridge S out of service by the speed rule. Answers whether
VOTE_HOLD is due. -/
def Channel.holdResult (c : Channel) : Channel × Bool :=
  let run := c.rd XLK_STAT_HOLDRUN
  let c := (c.sat XLK_VCNT_HOLDS).wr XLK_STAT_HOLDRUN (min 4 (run + 1))
  let c := { c with xlk := { c.xlk with used := false } }
  if run + 1 = 4 then ((c.wr XLK_STAT_OUTSVC 1).setCause .S 6 true, true) else (c, false)

/-- The echo of a vote (R213). -/
def Channel.mkEcho (c : Channel) (b : Ballot) (pseq : Nat) : BitVec 256 :=
  let odd := match b.odd with | some k => k.num | none => 0
  match b.use with
  | some v => mkTriplet 3 odd c.me.num pseq v
  | none =>
    match c.xlk.held with
    | some v => mkTriplet 4 odd c.me.num pseq v
    | none => mkTriplet 5 odd c.me.num pseq 0

/-- A resume triplet was outvoted (R245): the set awaits re-acquisition, the result is the no-drive triplet and the odd one
drives. -/
def Channel.resumeLost (c : Channel) (b : Ballot) : Bool :=
  match b.use, b.odd with
  | some v, some k => (c.causes .S).testBit 7 && noDrive v && (match c.triplet k with | some t => !noDrive (trBody t) | none => false)
  | _, _ => false

/-- The vote of CP-k at VDL (R221, R222), with the echo that CD-k takes and relays (R214). -/
def Channel.voteNow (c : Channel) : Channel :=
  let m := c.maskAt (c.t0Of c.me)
  let clear (c : Channel) : Channel := { c with xlk := { c.xlk with trA := none, trB := none, trC := none } }
  if !inMask m c.me || c.unused .S then clear (c.wr XLK_STAT_RULE 0)
  else
    let pseq := c.pseqOf c.me
    let pick (k : Chan) : Option (BitVec 240) := if inMask m k then (c.triplet k).map trBody else none
    let b := ballot (maskCount m == 1) (pick .A) (pick .B) (pick .C)
    let pres : BitVec 3 := BitVec.ofNat 3 ((if (pick .A).isSome then 1 else 0) + (if (pick .B).isSome then 2 else 0)
      + (if (pick .C).isSome then 4 else 0))
    let lost := c.resumeLost b
    let c := (c.countMiss m [.A, .B, .C]).showVote m pres b pseq
    let (c, hold) := match b.use with
      | some v => (c.useResult v, false)
      | none => c.holdResult
    let c := match b.src with
      | some 28 => c.sat XLK_ODD_SPLITS
      | some _ => c.sat XLK_MISS_LONE
      | none => c
    let e := c.mkEcho b pseq
    let c := clear { c with xlk := { c.xlk with echoOut := e } }
    let c := if lost then c.sat FCE_CSPIN_FAILS else c
    let c := c.takeEcho c.me e
    let evs := (match b.src with | some n => [(n, 6)] | none => []) ++ (if hold then [(30, 6)] else [])
      ++ (if lost then [(23, 4)] else [])
    c.raiseAll evs

/-- VOTE (R221).
DEDUCED, unsafe: log entry 39. -/
def execVote (ch : Chan) (s : State) : Out := .next (s.onLive ch fun c => c.voteNow)

/-- A set enters service: state at 0, started at its position source in its first period (R209). -/
def freshLoop : SetLoop := { agreed := true, fresh := true }

/-- The mask delivery's effect on one set (R209): a set that enters is started, at its own FCE0 and at those that were
members before; a channel that becomes a member or a shadow waits for one echo of every set already in service. -/
def Channel.maskSet (c : Channel) (old new : BitVec 3) (k : Chan) : Channel :=
  if inMask new k && !inMask old k then
    c.setUp k fun _ => if k == c.me || inMask old c.me then freshLoop else {}
  else if inMask new c.me && !inMask old c.me && inMask new k then c.setUp k fun l => { l with agreed := false }
  else c

/-- MEMBER_MASK_DELIVERY (R223): the mask with the TB count of the round at which it takes effect. -/
def Channel.maskIn (c : Channel) (m : BitVec 3) (tb : Nat) : Channel :=
  let old := match c.xlk.next with
    | some (n, _) => n
    | none => c.xlk.mask
  let c := { c with xlk := { c.xlk with mask := c.maskAt c.tb.toNat, next := some (m, tb) } }
  ((c.maskSet old m .A).maskSet old m .B).maskSet old m .C

/-- MEMBER_MASK_DELIVERY (R223).
DEDUCED, unsafe: log entry 39. -/
def execMemberMaskDelivery (ch : Chan) (mask : BitVec 3) (tb : BitVec 48) (s : State) : Out :=
  .next (s.onLive ch fun c => c.maskIn mask tb.toNat)

/-- The duties that the next peak puts in force (R181): the voted result's for bridge S, FCE1's for bridge P. -/
def Channel.takeDuty (c : Channel) (b : Bridge) : Channel :=
  match b with
  | .S => match c.xlk.held with
    | some v => { c with pow := { c.pow with dutyS := (nbitsAt v.toNat 192 16, nbitsAt v.toNat 208 16, nbitsAt v.toNat 224 16) } }
    | none => c
  | .P => { c with pow := { c.pow with dutyP := (c.f1.du, c.f1.dv, c.f1.dw) } }

/-- The carrier peak (R181, R230): new duties take effect, and a bridge without a cause enters service with the result that
is applied here. -/
def Channel.peak (c : Channel) (b : Bridge) : Channel :=
  let due := match b with
    | .S => c.xlk.used
    | .P => c.f1.issued
  let c := if due then c.takeDuty b else c
  if c.causes b = 0 && due then (c.setGuard b false).wr (stateFld b) 0 else c

/-- CARRIER_PEAK (R181). -/
def execCarrierPeak (ch : Chan) (b : Bridge) (s : State) : Out := .next (s.onPower ch fun c => c.peak b)

end Sys2Proof.Machine
end

