-- ==== Sys2Proof/Machine/Pump.lean ====
section
/-! DEFINITION. The pump motor and the solenoid coils of FCE1, the offset calibration and the carrier marker (R181 to
R188 and R200 to R206 of 06_field_control.md, R247 to R250, R255 and R256 of 08_motor_fault_states.md). -/

namespace Sys2Proof.Machine

/-- Change FCE1's part. -/
def Channel.f1up (c : Channel) (g : Fce1 → Fce1) : Channel := { c with f1 := g c.f1 }

/-- State of the pump (R206). -/
def Channel.pump (c : Channel) : Nat := c.rd FCE_PUMP_STATE

/-- RATED of the pump in electrical rad/s. -/
def Channel.pumpRated (c : Channel) : Int := ratedOmega (c.parF 1 1 16 16) (c.parF 1 1 0 8)

/-- HANDOVER as a speed (R200). -/
def Channel.pumpHandover (c : Channel) : Int := rdiv (c.pumpRated * c.parF 1 7 16 16) 1000

/-- REVTH as a speed (R247). -/
def Channel.pumpRevth (c : Channel) : Int := rdiv (c.pumpRated * c.parF 1 8 0 16) 1000

/-- The start current of attempt a: IST × 1.25^(a−1), capped at IMAX (R201). -/
def Channel.pumpIa (c : Channel) : Int :=
  let a := c.rd FCE_PUMP_ATTEMPT
  let ist := cvtI (c.parF 1 6 16 16) (c.parF 1 25 16 16)
  min (rdiv (ist * 5 ^ (a - 1)) (4 ^ (a - 1))) c.parP.imax

/-- PCONF in Q16.16. -/
def Channel.pconf (c : Channel) : Nat := (rdiv (c.parF 1 11 16 8 * 65536 : Int) 100).toNat

/-- Carrier periods of bridge P in a time of `ms` milliseconds, rounded upwards. -/
def Channel.pumpPeriods (c : Channel) (ms : Nat) : Nat :=
  if c.half 1 = 0 then 0 else ceilDiv (ms * 100000) (c.half 1)

/-- Bridge P is driven: its cause 7 clears, and the first result ends cause 2 (R236). -/
def Channel.pumpDrive (c : Channel) : Channel :=
  ((c.setCause .P 7 false).setCause .P 2 false).f1up fun f => { f with issued := true }

/-- Bridge P is switched off between attempts and at standstill: open, under cause 7 (R201, R248). -/
def Channel.pumpOpen (c : Channel) : Channel :=
  ({ c with pow := { c.pow with stopShort := false } }.f1up fun f => { f with issued := false }).setCause .P 7 true

/-- The speed loop takes over with its integral preset (R201, R249). -/
def Channel.pumpRun (c : Channel) (preset : Int) : Channel :=
  (c.pumpDrive.f1up fun f => { f with spd := preset, iqref := preset, intd := 0, intq := 0, intfw := 0, idfw := 0 }).wr
    FCE_PUMP_STATE 5

/-- A start may be made: calibrated, not faulty, bridge P used. -/
def Channel.pumpMay (c : Channel) : Bool :=
  !c.is FCE_PUMP_FAULTY && !c.unused .P && c.bit (FCE_STAT_OFSOK 1) 1

/-- Attempt a begins (R201): a coasting rotor goes straight to the speed loop, its integral preset to 0, which the spec
leaves open, else sector detection (`Channel.sectorTick` gives the pulses).
DESIGN CHOICE, unsafe: log entry 85. -/
def Channel.pumpAttempt (c : Channel) (a : Nat) : Channel :=
  if !c.pumpMay then c
  else
    let c := (c.wr FCE_PUMP_ATTEMPT a).f1up fun f =>
      { f with fwd := decide (0 < c.rdS (FCE_SETPT_VALUE 1)), again := false, reverse := false, resume := false,
               confRun := 0, rampN := 0, turn := 0, sector := 0 }
    if c.pconf ≤ c.f1.conf then c.pumpRun 0
    else
      let h := c.half 1 / 2
      (c.pumpDrive.f1up fun f => { f with intd := 0, intq := 0, intfw := 0, idfw := 0, du := h, dv := h, dw := h }).wr
        FCE_PUMP_STATE 1

/-- An attempt fails (R202): the bridge goes off; the third failure declares the pump faulty. -/
def Channel.pumpFail (c : Channel) (cause : Nat) : Channel :=
  let c := (c.wr FCE_PUMP_CAUSE cause).pumpOpen
  if 3 ≤ c.rd FCE_PUMP_ATTEMPT then ((c.wr FCE_PUMP_FAULTY 1).wr FCE_PUMP_STATE 0).raise 24
  else c.wr FCE_PUMP_STATE 6

/-- The pump stops by its own short (R248). -/
def Channel.pumpStop (c : Channel) : Channel :=
  let c := { c with pow := { c.pow with stopShort := true } }.f1up fun f =>
    { f with dwell := 0, cons := 0, stopLate := false, reverse := false, resume := false, issued := false }
  (c.wr FCE_PUMP_STATE 7).setCause .P 7 true

/-- A running or starting pump is stopped when cause bit 8 arises (R248). -/
def Channel.pumpLeave (c : Channel) : Channel :=
  if 1 ≤ c.pump ∧ c.pump ≤ 6 then c.pumpStop else c

/-- A pump that was running takes its start sequence again (R258, R282). -/
def Channel.pumpAgain (c : Channel) : Channel := if c.pump = 5 then c.pumpAttempt 1 else c

/-- An OV1 or OV2 during a start ends the attempt without counting it (R250). -/
def Channel.pumpOv (c : Channel) : Channel :=
  if 1 ≤ c.pump ∧ c.pump ≤ 4 then ((c.f1up fun f => { f with again := true }).pumpOpen).wr FCE_PUMP_STATE 6 else c

/-- The setpoint of FCE1 (R201, R202, R206, R248, R249), limited to ±RATED.
DEDUCED, unsafe: log entry 40. -/
def Channel.pumpSetpt (c : Channel) (v : Word) : Channel :=
  let rated : Int := c.parF 1 1 16 16
  let sp := clampI v.toInt (-rated) rated
  let c := c.wrS (FCE_SETPT_VALUE 1) sp
  let st := c.pump
  if sp = 0 then
    if st = 7 then c.f1up fun f => { f with reverse := false, resume := false }
    else if st = 0 then c else c.pumpStop
  else if st = 0 then c.pumpAttempt 1
  else if decide (0 < sp) = c.f1.fwd then
    if st = 7 then c.f1up fun f => { f with reverse := false, resume := true } else c
  else if st = 7 then c.f1up fun f => { f with reverse := true, resume := false }
  else c.pumpStop.f1up fun f => { f with reverse := true }

/-- FCE_SETPT_WRITE (R206). -/
def execFceSetptWrite (ch : Chan) (eng : Fin 2) (v : Word) (s : State) : Out :=
  .next (s.onLive ch fun c => if eng = 0 then c.wr (FCE_SETPT_VALUE 0) v.toNat else c.pumpSetpt v)

/-- PUMP_SECTOR_DETECT_DONE (R201): the direction with the highest peak current gives θ0. -/
def execPumpSectorDetectDone (ch : Chan) (dir : Fin 6) (s : State) : Out :=
  .next (s.onLive ch fun c =>
    if c.pump = 1 then (c.f1up fun f => { f with theta0 := dir.val * 2 ^ 32 / 6 }).wr FCE_PUMP_STATE 2 else c)

/-- PUMP_HOLD_END (R201): after 50 ms the vector begins to turn. -/
def execPumpHoldEnd (ch : Chan) (s : State) : Out :=
  .next (s.onLive ch fun c => if c.pump = 2 then (c.f1up fun f => { f with rampN := 0 }).wr FCE_PUMP_STATE 3 else c)

/-- PUMP_RAMP_END (R201). -/
def execPumpRampEnd (ch : Chan) (s : State) : Out :=
  .next (s.onLive ch fun c => if c.pump = 3 then (c.f1up fun f => { f with confRun := 0 }).wr FCE_PUMP_STATE 4 else c)

/-- PUMP_HANDOVER_TIMEOUT (R201): 200 ms without handover; an observer that is confident of the other direction is cause
3, which the spec does not place.
DESIGN CHOICE, unsafe: log entry 85. -/
def execPumpHandoverTimeout (ch : Chan) (s : State) : Out :=
  .next (s.onLive ch fun c =>
    if c.pump = 4 then
      let wrong := decide (16 ≤ c.f1.confRun) && (decide (0 < c.f1.oom) != c.f1.fwd)
      c.pumpFail (if wrong then 3 else 1)
    else c)

/-- PUMP_RETRY (R202, R250): 200 ms after the bridge went off, or after the overvoltage cleared, the next or the same
attempt begins. -/
def execPumpRetry (ch : Chan) (s : State) : Out :=
  .next (s.onLive ch fun c =>
    if c.pump = 6 ∧ ¬ (c.causes .P).testBit 1 ∧ ¬ (c.causes .P).testBit 3 then
      c.pumpAttempt (if c.f1.again then c.rd FCE_PUMP_ATTEMPT else c.rd FCE_PUMP_ATTEMPT + 1)
    else c)

/-- PUMP_STOP_TIMEOUT (R248): 2 s after the short the source is raised once; below 0.9 × ω_os the bridge opens.
DEDUCED, unsafe: log entry 40. -/
def execPumpStopTimeout (ch : Chan) (s : State) : Out :=
  .next (s.onLive ch fun c =>
    if c.pump = 7 ∧ c.f1.stopLate = false then
      let c := (c.f1up fun f => { f with stopLate := true }).raise 25
      if c.live && c.belowOs .P then c.pumpOpen.wr FCE_PUMP_STATE 0 else c
    else c)

/-- One period of the pump loop with an angle, a speed and a reference (R190). -/
def Channel.pumpPeriod (c : Channel) (iu iv : Int) (th : Nat) (om iqref : Int) : Channel :=
  let p := c.parP
  let vlc := c.rd GDR_LINK_VLC
  let f := c.f1
  let x : LoopIn :=
    { iu := iu, iv := iv, vlink := vlc * 2 ^ 17, theta := th, omega := om, iqref := iqref,
      loss := c.lossRef vlc p.imax f.idfw, intd := f.intd, intq := f.intq, intfw := f.intfw, idfw := f.idfw }
  let o := period p x
  let c := c.f1up fun f =>
    { f with intd := o.intd, intq := o.intq, intfw := o.intfw, idfw := o.idfw, du := o.du, dv := o.dv, dw := o.dw,
             issued := true, va := o.va, vb := o.vb }
  let c := ((c.wrS (FCE_ID_VALUE 1) o.id).wrS (FCE_IQ_VALUE 1) o.iq).wrS (FCE_VD_VALUE 1) o.vd
  let c := ((c.wrS (FCE_VQ_VALUE 1) o.vq).wr (FCE_VLINK_VALUE 1) (vlc * 2 ^ 17)).wr (FCE_THETA_VALUE 1) th
  let c := ((c.wrS (FCE_OMEGA_VALUE 1) om).wrS (FCE_MI_VALUE 1) o.m).flag (FCE_STAT_FW 1) (decide (o.idfw < 0))
  ((c.flag (FCE_STAT_VSAT 1) o.vsat).flag (FCE_STAT_ISAT 1) o.isat).flag (FCE_REGEN_LOSS 1) (c.lossMode vlc)

/-- A stopping pump's estimate of one period (R248, R242), and what follows from it (R249). -/
def Channel.pumpTrack (c : Channel) (iu iv : Int) : Channel :=
  if c.bstate .P ≠ 2 then c.f1up fun f => { f with dwell := 0 }
  else if 8190 * 2 ^ 18 ≤ iu.natAbs ∨ 8190 * 2 ^ 18 ≤ iv.natAbs then c.f1up fun f => { f with cons := 0 }
  else
    let p := c.parP
    let f := c.f1
    let (phi, w, th) := estimate p iu iv f.phi
    let near := !c.beyondPostol th (ofSigned 32 (f.oth + speedTurn f.oom p.half)) && decide (2 ≤ f.dwell)
    let c := c.f1up fun f =>
      { f with phi := phi, oth := th, oom := w, dwell := f.dwell + 1, cons := if near then f.cons + 1 else 0 }
    if c.f1.resume && decide (8 ≤ c.f1.cons) then
      let ib := fx 31 ((iu + 2 * iv) * k1)
      let iq := fx 31 (ib * cosQ th - iu * sinQ th)
      ({ c with pow := { c.pow with stopShort := false } }.f1up fun f => { f with resume := false }).pumpRun iq
    else if 1 ≤ f.dwell ∧ (w.natAbs : Int) < c.pumpRevth then
      let rev := c.f1.reverse
      let c := c.pumpOpen.wr FCE_PUMP_STATE 0
      if rev then c.pumpAttempt 1 else c
    else c

/-- The bridge P valley (R185): the sample with its delay, the observer, the attempt's current limit (R202) and the
period of the state in force. -/
def Channel.valleyP (c : Channel) (codeU codeV delay : Nat) : Channel :=
  let c := (c.wr FCE_PUMP_SDLY (min 255 delay)).wr (FCE_STAT_RUN 1) 1
  let p := c.parP
  let f := c.f1
  let iu := phaseCurrent ((codeU : Int) - f.offU)
  let iv := phaseCurrent ((codeV : Int) - f.offV)
  let ib := fx 31 ((iu + 2 * iv) * k1)
  let term := dutyTerm p.half p.ifs f.dPrev (f.du, f.dv, f.dw) f.iuPrev f.ivPrev iu iv
  let c := (c.select .P).settle .P
  let (th, om, cf) := observe p (c.parF 1 11 0 16) f.oth f.oom f.va f.vb iu ib f.ia f.ib
  let track := c.pump = 7
  let c := c.f1up fun f =>
    { f with oth := if track then f.oth else th, oom := if track then f.oom else om, conf := cf, ia := iu, ib := ib,
             pterm := term, dPrev := (f.du, f.dv, f.dw), iuPrev := iu, ivPrev := iv }
  let c := (c.wr (FCE_CONF_VALUE 1) cf).flag (FCE_REGEN_LOSS 1) (c.lossMode (c.rd GDR_LINK_VLC))
  let big := decide (p.imax < isqrt (iu * iu + ib * ib))
  let ia := c.pumpIa
  let dirn : Int := if f.fwd then 1 else -1
  let quarter (t : Nat) : Nat := ofSigned 32 ((t : Int) - dirn * 2 ^ 30)
  -- the angle at the actual sampling time (R185)
  let late (w : Int) : Int := if p.half = 0 then 0 else rdiv (speedTurn w p.half * delay) (2 * p.half)
  let at_ (t : Nat) (w : Int) : Nat := ofSigned 32 ((t : Int) + late w)
  let run5 (c : Channel) : Channel :=
    let n := max 1 (c.pumpPeriods 20)
    let adj := rdiv (c.f1.turnOff * c.f1.turn) n
    let c := c.f1up fun f => { f with turn := f.turn - 1 }
    c.pumpPeriod iu iv (ofSigned 32 ((th : Int) + adj + late om)) om c.f1.iqref
  match c.pump with
  | 1 => if big then c.pumpFail 2 else c
  | 2 => if big then c.pumpFail 2 else c.pumpPeriod iu iv (quarter f.theta0) 0 (dirn * ia)
  | 3 =>
    if big then c.pumpFail 2
    else
      let n := c.pumpPeriods (c.parF 1 7 0 16)
      let w := rdiv (dirn * c.pumpHandover * min (f.rampN + 1) n) (max 1 n)
      let t := ofSigned 32 ((f.theta0 : Int) + speedTurn w p.half)
      (c.f1up fun f => { f with theta0 := t, rampN := f.rampN + 1 }).pumpPeriod iu iv (at_ (quarter t) w) w (dirn * ia)
  | 4 =>
    if big then c.pumpFail 2
    else
      let w := dirn * c.pumpHandover
      let t := ofSigned 32 ((f.theta0 : Int) + speedTurn w p.half)
      let run := if c.pconf ≤ cf then f.confRun + 1 else 0
      let c := c.f1up fun f => { f with theta0 := t, confRun := run }
      if 16 ≤ run && decide (0 < om) == f.fwd then
        let c := c.f1up fun f => { f with turn := c.pumpPeriods 20, turnOff := angDiff (quarter t) th }
        run5 ((c.f1up fun f => { f with spd := dirn * ia, iqref := dirn * ia }).wr FCE_PUMP_STATE 5)
      else c.pumpPeriod iu iv (at_ (quarter t) w) w (dirn * ia)
  | 5 => run5 c
  | 7 => c.pumpTrack iu iv
  | _ => c

/-- BRIDGE_P_VALLEY (R185). With the digital die silent the power die's selector runs on (R233). -/
def execBridgePValley (ch : Chan) (codeU codeV delay : Nat) (s : State) : Out :=
  .next (s.onPower ch fun c => if c.live then c.valleyP codeU codeV delay else (c.select .P).settle .P)

/-! Solenoids. -/

/-- The loop of a driver. -/
def Fce1.sol (f : Fce1) (n : Nat) : SolLoop :=
  match n with
  | 0 => f.sol0
  | 1 => f.sol1
  | 2 => f.sol2
  | _ => f.sol3

/-- Replace the loop of a driver. -/
def Fce1.putSol (f : Fce1) (n : Nat) (x : SolLoop) : Fce1 :=
  match n with
  | 0 => { f with sol0 := x }
  | 1 => { f with sol1 := x }
  | 2 => { f with sol2 := x }
  | _ => { f with sol3 := x }

/-- A field of the SOLENOID record of driver n (R203, R206). -/
def Channel.solF (c : Channel) (n w lo k : Nat) : Nat := c.parF 1 (32 + 8 * n + w) lo k

/-- FCE_SOLN_SET_WRITE (R206): the setpoint is limited to IMAXC. -/
def execFceSolnSetWrite (ch : Chan) (n : Fin 4) (v : Word) (s : State) : Out :=
  .next (s.onLive ch fun c => c.wr (FCE_SOLSET_MA n.val) (min (v.toNat % 2 ^ 16) (c.solF n.val 3 0 16)))

/-- SOLENOID_CURRENT_SAMPLE (R204): one sample of the tick's mean. -/
def execSolenoidCurrentSample (ch : Chan) (n : Fin 4) (ma : Nat) (s : State) : Out :=
  .next (s.onLive ch fun c => c.f1up fun f =>
    f.putSol n.val { f.sol n.val with sum := (f.sol n.val).sum + ma, count := (f.sol n.val).count + 1 })

/-- The driver of a coil may be on: not in block reset, not above OV2, GDEN_x high, no latch, lock or loss, and
no undervoltage of VGD (R271). -/
def Channel.solMay (c : Channel) (n : Nat) : Bool :=
  !c.is GDR_STAT_INRST && c.pow.gden && !(c.causes .S).testBit 1 &&
    !c.pow.held.testBit (13 + n) && !(c.rd GDR_FLT_LATCH).testBit 18 && !(c.f1.sol n).lost

/-- The coil resistance in mΩ from a duty (Q1.31), the link code and a mean current (R205). -/
def coilR (duty : Int) (vlc ma : Nat) : Nat := if ma = 0 then 0 else (rdiv (duty * vlc * 100000000) (2 ^ 45 * ma)).toNat

/-- One tick of one coil (R204, R205). -/
def Channel.solTick (c : Channel) (n : Nat) : Channel × Bool :=
  let l := c.f1.sol n
  let imax := c.solF n 3 0 16
  let mean := if l.count = 0 then 0 else (rdiv l.sum l.count).toNat
  let sp := c.rd (FCE_SOLSET_MA n)
  let c := c.wr (FCE_SOLMEAS_MA n) mean
  let on := imax ≠ 0 ∧ sp ≠ 0 ∧ c.solMay n = true
  if ¬ on then (c.f1up fun f => f.putSol n { lost := l.lost }, false)
  else
    let r := coilR l.duty (c.rd GDR_LINK_VLC) mean
    let meas := decide (imax ≤ 10 * mean)
    let c := if meas then c.wr (FCE_SOLMEAS_RES n) (min r 65535) else c
    let rc := c.solF n 2 0 16
    let tol := c.solF n 2 16 8
    let bad := meas && (decide (100 * r < rc * (100 - tol)) || decide (rc * (100 + tol) < 100 * r))
    let low := decide (100 * mean < imax) && decide ((2 : Int) ^ 30 < l.duty)
    let badR := if bad then l.badR + 1 else 0
    let lowI := if low then l.lowI + 1 else 0
    if badR = 10 ∨ lowI = 10 then (c.f1up fun f => f.putSol n { lost := true }, true)
    else
      let amp : Int := rdiv (imax * c.solF n 1 16 10 : Int) 1000
      let ref := clampI ((sp : Int) + (if l.plus then amp else -amp)) 0 imax
      let e := rdiv ((ref - mean) * 65536) 1000
      let (u, i) := piStep 1 e (c.par 1 (32 + 8 * n + 4)) (c.par 1 (32 + 8 * n + 5)) l.int
      let flip := decide (c.solF n 1 8 5 ≤ l.tick + 1)
      (c.f1up fun f => f.putSol n
        { int := i, duty := max 0 u, tick := if flip then 0 else l.tick + 1, plus := l.plus != flip,
          badR := badR, lowI := lowI }, false)

/-- The four coils of a tick; answers the sources due. -/
def Channel.solTicks (c : Channel) : List Nat → Channel × List (Nat × Nat)
  | [] => (c, [])
  | n :: r =>
    let (c, f) := c.solTick n
    let (c, l) := c.solTicks r
    (c, if f then (26, 5) :: l else l)

/-- Speed of the pump in rpm, Q16.16. -/
def Channel.pumpRpm (c : Channel) : Int :=
  rdiv (c.f1.oom * 60 * 2 ^ 100) (twoPi100.toNat * max 1 (c.parF 1 1 0 8))

/-- The speed loop of the running pump (R200), its output clamped by the limit of regeneration (R255). -/
def Channel.speedLoop (c : Channel) : Channel :=
  if c.pump ≠ 5 then c
  else
    let e := sat32 (c.rdS (FCE_SETPT_VALUE 1) * 65536 - c.pumpRpm)
    let (u, i) := piStep 1 e (c.par 1 9) (c.par 1 10) c.f1.spd
    let v := regenClamp u c.f1.oom c.pumpRated (c.par 1 5) (c.parF 1 25 16 16) c.regenW (c.is GDR_CHOP_FAILED)
    (c.flag (FCE_REGEN_LIMITED 1) (v != u)).f1up fun f => { f with spd := i, iqref := v }

/-- SOLENOID_TICK (R204): the 1 ms tick of FCE1. Drivers that a block reset or OV2 had turned off restart here (R258,
R282). -/
def execSolenoidTick (ch : Chan) (s : State) : Out :=
  .next (s.onLive ch fun c =>
    let c := c.speedLoop
    let c := if !c.is GDR_STAT_INRST && !(c.causes .S).testBit 1 && c.pow.gden && !(c.rd GDR_FLT_LATCH).testBit 18 then
        { c with pow := { c.pow with solOff := false } }
      else c
    let (c, l) := c.solTicks [0, 1, 2, 3]
    c.raiseAll l)

/-! Offset calibration and the carrier marker. -/

/-- OFFSET_CALIBRATION_DONE (R187): the means of 256 samples, each rounded half up to a whole LSB; an offset beyond OFSTOL
raises FCE_OFS and keeps the bridge off.
DESIGN CHOICE, unsafe: log entry 85. -/
def Channel.calibrate (c : Channel) (b : Bridge) (sumU sumV : Nat) : Channel :=
  let u := (rdiv sumU 256).toNat
  let v := (rdiv sumV 256).toNat
  let tol := c.parF 0 26 16 16
  let ok := decide (((u : Int) - 8192).natAbs ≤ tol) && decide (((v : Int) - 8192).natAbs ≤ tol)
  let n := match b with | .S => 0 | .P => 1
  let c := (c.setBit (FCE_STAT_OFSOK 0) n ok).setBit (FCE_STAT_OFSOK 1) n ok
  let c := match b with
    | .S => c.f0up fun f => { f with offU := u, offV := v }
    | .P => c.f1up fun f => { f with offU := u, offV := v }
  if ok then c else c.raiseAll [(19, 4 + n)]

/-- OFFSET_CALIBRATION_DONE (R187). -/
def execOffsetCalibrationDone (ch : Chan) (b : Bridge) (sumU sumV : Nat) (s : State) : Out :=
  .next (s.onLive ch fun c => c.calibrate b sumU sumV)

/-- Signed difference of two TB counts. -/
def tbDiff (a b : BitVec 48) : Int := (a - b).toInt

/-- CARRIER_MARKER (R183): only a marker of the carrier reference corrects the own TB, by one PCLK count in 20 µs, five
in a round; a fawn channel's TB runs free until the valley at which its 10 kHz carrier ends (R184). Three errors above 40 ns
in a row raise CARRIER_SYNC. ERR shows own TB minus the reference's; the spec gives no sign.
DESIGN CHOICE, unsafe: log entry 85. -/
def Channel.marker (c : Channel) (from_ : Chan) (tb : BitVec 48) (latency : Nat) : Channel :=
  if from_ = c.me ∨ c.rd HRD_STAT_REF ≠ from_.num then c
  else
    let d := tbDiff (tb + BitVec.ofNat 48 latency) c.tb
    let c := (c.f0up fun f => { f with align := d }).wrSat (FCE_CARR_ERR 0) (-5 * d)
    let c := c.wr (FCE_CARR_ERR 1) (c.rd (FCE_CARR_ERR 0))
    if c.is STW_MODE_FAWN || c.is (FCE_STAT_FAWN10 0) || c.f0.fawnStep then c
    else
      let late := if 40 < 5 * d.natAbs then c.f0.lateMarks + 1 else 0
      let c := { c with tb := c.tb + BitVec.ofInt 48 (clampI d (-5) 5) }
      if late = 3 then
        (((c.f0up fun f => { f with lateMarks := 0 }).sat (FCE_CARR_SYNCERR 0)).sat (FCE_CARR_SYNCERR 1)).raise 18
      else c.f0up fun f => { f with lateMarks := late }

/-- CARRIER_MARKER (R183): a class 1 packet that fails its CRC is counted (R23, R228). -/
def execCarrierMarker (ch from_ : Chan) (tb : Packet (BitVec 48)) (latency : Nat) (s : State) : Out :=
  .next (s.onLive ch fun c =>
    if !tb.crcOk then c.sat XLK_LINK_CRCERR else if c.hears from_ then c.marker from_ tb.val latency else c)

end Sys2Proof.Machine
end

