-- ==== Sys2Proof/Machine/MotorState.lean ====
section
/-! DEFINITION. The speed rule, the chopper and the overvoltage ladder of the power die (R231 to R239 and R251 to R260 of
08_motor_fault_states.md). -/

namespace Sys2Proof.Machine

/-- A speed word at the power die (R232, R241): held, and the selector decides anew. -/
def Channel.speedIn (c : Channel) (b : Bridge) (omega : Nat) (probe : Bool) : Channel :=
  let c := match b with
    | .S => { c.flag GDR_LINK_PROBE probe with pow := { c.pow with omegaS := omega } }
    | .P => { c with pow := { c.pow with omegaP := omega } }
  (c.select b).settle b

/-- SPEED_WORD (R232). -/
def execSpeedWord (ch : Chan) (b : Bridge) (omega : Nat) (probe : Bool) (s : State) : Out :=
  .next (s.onLive ch fun c => c.speedIn b omega probe)

/-- The chopper's driver may turn on (R252, R274, R279, R281): not in block reset, not above OV2, GDEN_x high, its own
latch not holding it, the UVLO latch (R271) clear, not locked. Until PINS has been applied every gate is off (R68). -/
def Channel.chopMay (c : Channel) : Bool :=
  c.enc.pins && !c.is GDR_STAT_INRST && !c.is GDR_LINK_OV2 && c.pow.gden && !c.pow.held.testBit 12 &&
    !(c.rd GDR_FLT_LATCH).testBit 18

/-- CHON in mV (R251). -/
def Channel.chon (c : Channel) : Nat := c.rd (GDR_LL_VALUE 2) % 2 ^ 16 * 100

/-- The slope before a turn-on in µV/µs, from the two preceding valley samples of VLINK_x (R253): LSB of 100 V ÷ 16,384
against counts of 5 ns, rounded downwards; 0 before two samples.
DEDUCED, unsafe: log entry 41. -/
def Channel.slope (c : Channel) : Int :=
  match c.pow.vlcs with
  | (v1, t1) :: (v0, t0) :: _ =>
    if t1 ≤ t0 then 0 else ((v1 : Int) - (v0 : Int)) * 100000000 * 200 / (16384 * ((t1 - t0 : Nat) : Int))
  | _ => 0

/-- CHOPPER_ON (R251 to R253): the comparator sees VLINK_x, `link` in mV, at or above CHON, in 0.1 V; the check begins with V0
and the slope before. -/
def execChopperOn (ch : Chan) (link v0 : Nat) (s : State) : Out :=
  .next (s.onPower ch fun c =>
    if c.chopMay && decide (c.chon ≤ link) then { c.wr GDR_LINK_CHOPON 1 with pow := { c.pow with chk := some (v0, c.slope), chopRun := 0 } } else c)

/-- CHOPPER_OFF (R252): VLINK_x falls through CHOFF; a check in progress is neither passed nor failed (R253). -/
def execChopperOff (ch : Chan) (s : State) : Out :=
  .next (s.onPower ch fun c => { c.wr GDR_LINK_CHOPON 0 with pow := { c.pow with chk := none } })

/-- Allowed V1 minus measured V1 in mV, rounded downwards: V0 + S × T − 0.5 × V0 × T ÷ (RCH × CLINK) − V1 (R253).
DEDUCED, unsafe: log entry 41. -/
def Channel.chkMargin (c : Channel) (v0 : Nat) (slope : Int) (t v1 : Nat) : Int :=
  let rc : Nat := c.rd (GDR_LL_VALUE 3) % 2 ^ 16 * (c.rd (GDR_LL_VALUE 3) / 2 ^ 16)
  let n : Int := 1000 * ((v0 : Int) - (v1 : Int)) * (rc : Int) + slope * (t : Int) * (rc : Int)
    - 5000 * (v0 : Int) * (t : Int)
  if rc = 0 then (v0 : Int) - (v1 : Int) else n / (1000 * (rc : Int))

/-- One chopper check over `t` µs (R253, R254).
DEDUCED, unsafe: log entry 41. -/
def Channel.chopCheck (c : Channel) (v0 : Nat) (slope : Int) (t v1 : Nat) : Channel :=
  let m := c.chkMargin v0 slope t v1
  let c := c.wrS GDR_CHKMARG_MARGIN m
  if 0 ≤ m then (c.sat GDR_CHOP_PASSES).wr GDR_CHOP_RUN 0
  else
    let c := (c.sat GDR_CHOP_FAILS).sat GDR_CHOP_RUN
    if c.rd GDR_CHOP_RUN = c.rd (GDR_LL_VALUE 4) / 2 ^ 8 % 16 then c.chopFailed.raise 31 else c

/-- CHOPPER_CHECK (R253): CHKT after the turn-on. -/
def execChopperCheck (ch : Chan) (v1 : Nat) (s : State) : Out :=
  .next (s.onPower ch fun c =>
    match c.pow.chk with
    | some (v0, slope) =>
      { c with pow := { c.pow with chk := none } }.chopCheck v0 slope (c.rd (GDR_LL_VALUE 4) % 2 ^ 8) v1
    | none => c)

/-- LINK_OV1 (R257, R236): bridge S shorts, bridge P opens; a start attempt of the pump ends (R250). -/
def execLinkOv1 (ch : Chan) (s : State) : Out :=
  .next (s.onPower ch fun c =>
    let c := ((c.wr GDR_LINK_OV1 1).sat GDR_LADCNT_OV1CNT).setCauses 3 true
    c.pumpOv.raise 32)

/-- LINK_OV2 (R257): every gate off. -/
def execLinkOv2 (ch : Chan) (s : State) : Out :=
  .next (s.onPower ch fun c =>
    let c := ((c.wr GDR_LINK_OV2 1).sat GDR_LADCNT_OV2CNT).setCauses 1 true
    let c := { c.wr GDR_LINK_CHOPON 0 with pow := { c.pow with chk := none, solOff := true } }
    c.pumpOv.raise 33)

/-- LINK_UV (R259). -/
def execLinkUv (ch : Chan) (s : State) : Out :=
  .next (s.onPower ch fun c => (((c.wr GDR_LINK_UV 1).sat GDR_LADCNT_UVCNT).setCauses 4 true).raise 34)

/-- OV1_CLEAR (R236): VLINK_x below OV1 − 1.0 V for 1 ms. -/
def execOv1Clear (ch : Chan) (s : State) : Out :=
  .next (s.onPower ch fun c => (c.wr GDR_LINK_OV1 0).setCauses 3 false)

/-- Re-entry of bridge S after OV2 (R258): through the speed rule, until a newly voted result is used.
DEDUCED, unsafe: log entry 40. -/
def Channel.reenter (c : Channel) : Channel :=
  if c.causes .S = 0 then
    let sh := !c.belowOs .S
    let c := { c.setShort .S sh with xlk := { c.xlk with used := false } }
    c.wr (stateFld .S) (if sh then 2 else 1)
  else c

/-- OV2_CLEAR (R258): VLINK_x below OV1 − 1.0 V for 10 ms. -/
def execOv2Clear (ch : Chan) (s : State) : Out :=
  .next (s.onPower ch fun c =>
    if c.is GDR_LINK_OV2 then
      let c := ((c.wr GDR_LINK_OV2 0).setCauses 1 false).reenter
      (if c.causes .P = 0 then c.wr (stateFld .P) 1 else c).pumpAgain
    else c)

/-- UV_CLEAR (R236): VLINK_x at or above UVL + 1.0 V for 10 ms. -/
def execUvClear (ch : Chan) (s : State) : Out :=
  .next (s.onPower ch fun c => (c.wr GDR_LINK_UV 0).setCauses 4 false)

/-- DIE_TO_DIE_LOSS (R236): no die-to-die frame for 2 consecutive bridge S periods; only a channel reset ends it. -/
def execDieToDieLoss (ch : Chan) (s : State) : Out :=
  .next (s.onPower ch fun c => { c with pow := { c.pow with d2dCause := true } }.setCauses 5 true)

/-- DIGITAL_DIE_SILENT (R238): the fail-silent line; cause bit 5 with the last speed word held. -/
def execDigitalDieSilent (ch : Chan) (s : State) : Out :=
  .next (s.onPower ch fun c => { c with pow := { c.pow with fsCause := true } }.setCauses 5 true)

end Sys2Proof.Machine
end

