-- ==== Sys2Proof/Machine/GateDrive.lean ====
section
/-! DEFINITION. The gate-drive block of the power die: interlock, latches, block reset, GDEN_x and the bring-up test
(09_gate_drive.md; R253, R264 and R490 for the power-stage self-test). -/

namespace Sys2Proof.Machine

/-- The source of a latch bit (R271, R285). -/
def latchSrc (b : Nat) : Nat :=
  if b < 6 then 35 else if b < 12 then 36 else if b = 12 then 37 else if b < 17 then 38 else b + 22

/-- Bits set in a latch word. -/
def latchBits (v : Nat) : List Nat := (List.range 20).filter fun b => v.testBit b

/-- The counter of a latch (R285). -/
def Channel.countLatch (c : Channel) (b : Nat) : Channel :=
  if b < 17 then c.sat GDR_CNT_DESAT else if b = 17 then c.sat GDR_CNT_OC else c

/-- Latches set in one PCLK_x cycle (R277): the first cycle fills GDR_FIRST, and GDR_SNAP with the gate commands `cmds` in
force, a later one sets LATER; each new latch is reported once. A latch turns no gate off by itself (R272).
DEDUCED, unsafe: log entry 43. -/
def Channel.latch (c : Channel) (bits cmds : Nat) (same : Bool) : Channel :=
  let old := c.rd GDR_FLT_LATCH
  let new := (latchBits bits).filter fun b => !old.testBit b
  if new = [] then c
  else
    let word := new.foldl (fun a b => a ||| 2 ^ b) 0
    let c := if old = 0 then (c.wr GDR_FIRST_BITS word).wr GDR_SNAP_BITS cmds
      else if same then c.wr GDR_FIRST_BITS (c.rd GDR_FIRST_BITS ||| word)
      else c.wr GDR_FLT_LATER 1
    let c := (c.wr GDR_FLT_LATCH (old ||| word)).wr GDR_STAT_PEND 1
    let c := c.flag GDR_FLT_MULTI (decide (1 < (latchBits (c.rd GDR_FIRST_BITS)).length))
    (new.foldl Channel.countLatch c).raiseAll (new.map fun b => (latchSrc b, 7))

/-- DESAT_LATCH (R269): inputs of desaturation detectors above their class's threshold for 50 ns; a detector that is not
armed ignores its input. -/
def execDesatLatch (ch : Chan) (latches : BitVec 17) (sol : BitVec 4) (sameCycle : Bool) (s : State) : Out :=
  .next (s.onPower ch fun c => c.latch (latches.toNat &&& c.armed sol) (c.gateCommands sol) sameCycle)

/-- OC_LATCH (R270). -/
def execOcLatch (ch : Chan) (sol : BitVec 4) (sameCycle : Bool) (s : State) : Out :=
  .next (s.onPower ch fun c => c.latch (2 ^ 17) (c.gateCommands sol) sameCycle)

/-- GD_UVLO (R271): VGD below its threshold for 1 µs; the hold-off path keeps every gate off until the latch is cleared.
DEDUCED, unsafe: log entry 43. -/
def execGdUvlo (ch : Chan) (sol : BitVec 4) (sameCycle : Bool) (s : State) : Out :=
  .next (s.onPower ch fun c =>
    let cmds := c.gateCommands sol
    let c := { (c.wr GDR_STAT_VGDOK 0).wr GDR_LINK_CHOPON 0 with pow := { c.pow with chk := none, solOff := true } }
    (c.latch (2 ^ 18) cmds sameCycle).gdRefresh)

/-- GD_OT (R271): CP-x junction at 165 °C.
DEDUCED, unsafe: log entry 43. -/
def execGdOt (ch : Chan) (sol : BitVec 4) (sameCycle : Bool) (s : State) : Out :=
  .next (s.onPower ch fun c => c.latch (2 ^ 19) (c.gateCommands sol) sameCycle)

/-- VGD_RECOVERED (R264): VGD above its rising threshold. -/
def execVgdRecovered (ch : Chan) (s : State) : Out := .next (s.onPower ch fun c => c.wr GDR_STAT_VGDOK 1)

/-- A change of one leg, bridge S before bridge P. -/
def Channel.legUp (c : Channel) (n : Nat) (f : Leg → Leg) : Channel :=
  let one (x : Legs) (k : Nat) : Legs := match k with
    | 0 => { x with u := f x.u }
    | 1 => { x with v := f x.v }
    | _ => { x with w := f x.w }
  if n < 3 then { c with pow := { c.pow with legsS := one c.pow.legsS n } }
  else { c with pow := { c.pow with legsP := one c.pow.legsP (n - 3) } }

/-- GD_STCMD (R267): both switches of a leg commanded on; the leg turns both off in that cycle, its flag is set and the
event counted. The dead time starts when the commands are exclusive again (`Leg.cycle`). -/
def execGdStcmd (ch : Chan) (leg : Fin 6) (s : State) : Out :=
  .next (s.onPower ch fun c =>
    let c := c.legUp leg.val fun l => l.cycle 0 (true, true)
    ((c.setBit GDR_STCMD_LEG leg.val true).sat GDR_STCMD_COUNT).raise 42)

/-- GDR_BLOCK_RESET (R274, R275): the reset that the steward asserts reaches CP-x. -/
def execGdrBlockReset (ch : Chan) (s : State) : Out :=
  .next (s.onLive ch fun c => if c.bit STW_BLKSTAT_BLK blkGDR then c.gdrAtDie else c)

/-- LOCAL_BLOCK_RESET (R276): no reset within 1 µs of a latch; the supervisor applies it. -/
def execLocalBlockReset (ch : Chan) (s : State) : Out :=
  .next (s.onPower ch fun c =>
    if c.is GDR_STAT_PEND && !c.is GDR_STAT_INRST then (c.wr GDR_STAT_LOCALRST 1).gdrAtDie else c)

/-- A split channel outside SERVICE keeps its gate drive in block reset (R173). -/
def Channel.gdrHeld (c : Channel) : Bool := !c.lockstep && c.rd STW_MODE_MODE != 6

/-- The block leaves reset 1 µs later (R274, R282): discarded commands give way to the next ones. -/
def Channel.gdrRelease (c : Channel) : Channel :=
  if c.is GDR_STAT_INRST && !c.gdrHeld then
    let c := (c.wr GDR_STAT_INRST 0).setBit STW_BLKSTAT_BLK blkGDR false
    let c := { c with xlk := { c.xlk with used := false } }.takeHeld.gdRefresh
    if (c.causes .P).testBit 0 then c else c.pumpAgain
  else c

/-- GDR_RESET_RELEASE (R282). -/
def execGdrResetRelease (ch : Chan) (s : State) : Out := .next (s.onPower ch fun c => c.gdrRelease)

/-- GDEN_FALL (R279): every gate sinking; GD_ENLOW unless GDENO_x is being pulsed (R271, R280). -/
def execGdenFall (ch : Chan) (s : State) : Out :=
  .next (s.onPower ch fun c =>
    let c := { c.wr GDR_LINK_CHOPON 0 with pow := { c.pow with gden := false, chk := none, solOff := true } }.gdRefresh
    if c.pow.gdeno then c else (c.sat GDR_CNT_ENLOW).raise 43)

/-- Latches that a GDEN_x clear leaves set: of locked gates and sources (R281) and with their condition still present. -/
def Channel.latchKept (c : Channel) (present : Nat) : Nat :=
  present ||| c.locks ||| (if c.severe 40 then 2 ^ 18 else 0) ||| (if c.severe 41 then 2 ^ 19 else 0)

/-- The clear of R279.
DEDUCED, unsafe: log entry 42. -/
def Channel.gdenClear (c : Channel) (present : Nat) : Channel :=
  let left := c.rd GDR_FLT_LATCH &&& c.latchKept present
  let c := (c.sat GDR_GDENO_CLRCNT).wr GDR_FLT_LATCH left
  let c := { c with pow := { c.pow with held := c.pow.held &&& (left ||| c.locks) } }
  let first := c.rd GDR_FIRST_BITS &&& left
  let c := (c.wr GDR_FIRST_BITS first).flag GDR_FLT_MULTI (decide (1 < (latchBits first).length))
  if left = 0 then (c.wr GDR_SNAP_BITS 0).wr GDR_FLT_LATER 0 else c

/-- A low of this length clears (R279): at least 2.0 µs; between 1.9 µs and 2.0 µs the spec gives no result.
DEDUCED, unsafe: log entry 42. -/
def Channel.gdenLong (c : Channel) (lowNs : Nat) : Bool × Channel :=
  if 2000 ≤ lowNs then (true, c)
  else if lowNs < 1900 then (false, c)
  else
    let (k, c) := c.draw 2
    (k == 1, c)

/-- The rising edge of GDEN_x (R279, R282). -/
def Channel.gdenUp (c : Channel) (lowNs present : Nat) : Channel :=
  let was := c.pow.gden
  let c := { c with pow := { c.pow with gden := true, lowAfter := false } }
  if was then c.gdRefresh
  else
    let (long, c) := c.gdenLong lowNs
    let c := (if long then c.gdenClear present else c).gdRefresh
    if (c.causes .P).testBit 0 then c else c.pumpAgain

/-- GDEN_RISE (R279).
DEDUCED, unsafe: log entry 42. -/
def execGdenRise (ch : Chan) (lowNs : Nat) (present : BitVec 20) (s : State) : Out :=
  .next (s.onPower ch fun c => c.gdenUp lowNs present.toNat)

/-- GDENO_PULSE (R280): GDENO_x low for 2.5 µs; a write during a pulse is ignored. -/
def execGdenoPulse (ch : Chan) (s : State) : Out :=
  .next (s.onLive ch fun c => { c with pow := { c.pow with gdeno := true } })

/-- GDENO_PULSE_END (R280). A GDEN_x that stays low beyond the pulse raises GD_ENLOW (R271). -/
def execGdenoPulseEnd (ch : Chan) (s : State) : Out :=
  .next (s.onPower ch fun c => { c with pow := { c.pow with gdeno := false, lowAfter := c.pow.gdeno && !c.pow.gden } })

/-- A tagged event of the detector test (R284). -/
def Channel.tagged (c : Channel) (src : Nat) : Channel :=
  let c := { c with fcc := { c.fcc with tag := some (src, false), fccInj := false } }.raise src
  { c with fcc := { c.fcc with tag := none } }

/-- The tagged events of the detectors that pass (R284): one for each desaturation detector, two for the comparator. -/
def Channel.testEvents (c : Channel) (failed : Nat) : List Nat → Channel
  | [] => c
  | b :: r =>
    let c := if failed.testBit b then c else if b = 17 then (c.tagged 39).tagged 39 else c.tagged (latchSrc b)
    c.testEvents failed r

/-- The detectors that failed: STFAIL, their gates off until channel reset, the source as a real event. -/
def Channel.testFails (c : Channel) (failed : Nat) : Channel :=
  if failed % 2 ^ 18 = 0 then c
  else
    let c := { c.wr GDR_STAT_STFAIL 1 with
      pow := { c.pow with stLock := BitVec.ofNat 20 (failed % 2 ^ 18), held := c.pow.held ||| failed % 2 ^ 18 } }.gdRefresh
    c.raiseAll ((latchBits (failed % 2 ^ 18)).map fun b => (latchSrc b, 7))

/-- Both bridges have passed their offset calibration (R187). -/
def Channel.offsetsOk (c : Channel) : Bool := c.rd (FCE_STAT_OFSOK 0) % 4 == 3

/-- The chopper check of the self-test (R253), with its 20 µs pulse, when VLINK_x is at least 20 V; it fails when it
raises CHOP_FAIL (R254). -/
def Channel.testChop (c : Channel) (chop : Option (Nat × Nat)) : Channel × Bool :=
  match chop with
  | some (v0, v1) =>
    if 20000 ≤ v0 then
      let d := c.chopCheck v0 c.slope 20 v1
      (d, !d.is GDR_CHOP_FAILED || c.is GDR_CHOP_FAILED)
    else (c, true)
  | none => (c, true)

/-- The power-stage self-test is done (R490 step 7): the detector test and the chopper check, after the offset
calibration. A failed detector keeps off the gates it guards only; a failure of the others keeps the channel in BRING-UP.
DEDUCED, unsafe: log entry 44. -/
def Channel.selfTest (c : Channel) (failed : Nat) (chop : Option (Nat × Nat)) : Channel :=
  if c.rd PWR_BOOT_STEP = 7 then
    let c := (c.testEvents failed (List.range 18)).testFails failed
    let (c, ok) := c.testChop chop
    if c.resetting || !ok || !c.offsetsOk then c
    else (({ c with pwr := { c.pwr with done7 := true } }.wr PWR_BOOT_STEP 8).wr HRD_STAT_ROLE
      (if c.lockstep then 4 else 0))
  else c

/-- POWER_STAGE_SELF_TEST_DONE (R490).
DEDUCED, unsafe: log entry 44. -/
def execPowerStageSelfTestDone (ch : Chan) (failed : BitVec 18) (chopTest : Option (Nat × Nat)) (s : State) : Out :=
  .next (s.onLive ch fun c => c.selfTest failed.toNat chopTest)

end Sys2Proof.Machine
end

