-- ==== Sys2Proof/Machine/Encoder.lean ====
section
/-! DEFINITION. Encoder units, compare, pass-through and SENT receivers (10_position_feedback.md). -/

namespace Sys2Proof.Machine

/-- The position-feedback block runs: supplied and out of channel reset; it goes on while the channel is fail-silent
(R300).
DESIGN CHOICE, unsafe: log entry 6. -/
def State.onLit (s : State) (ch : Chan) (f : Channel → Channel) : State :=
  s.on ch fun c => if c.resetting || c.pwr.off then c else f c

/-- The unit is declared faulty once (R290, R292). -/
def Channel.unitFault (c : Channel) (n cause : Nat) : Channel :=
  if c.is (ENC_USTAT_UFAULT n) then c
  else (((c.wr (ENC_USTAT_UFAULT n) 1).wr (ENC_USTAT_CAUSE n) cause).setBit ENC_STAT_UFAULT n true).raise 44

/-- A change on the inputs of a unit that is on (R286): an edge fault when it comes less than MINEDGE after the previous
one; `since` in FCE_x cycles of 2.5 ns. -/
def Channel.edgeCheck (c : Channel) (n since : Nat) : Channel :=
  if c.encOn n && decide (since < c.ucfg n 1 16 16) then
    let c := (c.sat (ENC_ERR_EDGEF n)).unitUp n fun u => { u with erun := u.erun + 1 }
    if c.ucfg n 4 8 8 < (c.unit n).erun then c.unitFault n 1 else c
  else c

/-- ENC_INPUT_CHANGE (R286, R300): the pins have their levels whatever the channel does; the outputs and the edge filter
follow while the block runs. -/
def execEncInputChange (ch : Chan) (unit : Fin 6) (levels : BitVec 3) (since : Nat) (s : State) : Out :=
  .next ((s.on ch fun c => c.unitUp unit.val fun u => { u with lvl := levels }).onLit ch fun c =>
    c.passThrough.edgeCheck unit.val since)

/-- Place of the levels A, B in the quadrature sequence in which A leads. -/
def quadPlace (l : BitVec 3) : Nat :=
  match l.getLsbD 0, l.getLsbD 1 with
  | false, false => 0
  | true, false => 1
  | true, true => 2
  | false, true => 3

/-- The count of a settled change (R287): `none` is a QERR settlement. -/
def settledCount (mode : Nat) (old new : BitVec 3) : Option Int :=
  let up (i : Nat) : Bool := !old.getLsbD i && new.getLsbD i
  match mode with
  | 0 =>
    match (quadPlace new + 4 - quadPlace old) % 4 with
    | 0 => some 0
    | 1 => some 1
    | 3 => some (-1)
    | _ => none
  | 1 => if up 0 then some (if new.getLsbD 1 then 1 else -1) else some 0
  | _ =>
    match up 0, up 1 with
    | true, true => none
    | true, false => some 1
    | false, true => some (-1)
    | false, false => some 0

/-- A QERR settlement (R289, R290). -/
def Channel.qerr (c : Channel) (n : Nat) : Channel :=
  let c := ((c.sat (ENC_ERR_QERR n)).wr (ENC_USTAT_COAST n) 1).wr (ENC_USTAT_UNC n) (min 255 (c.rd (ENC_USTAT_UNC n) + 2))
  let c := c.unitUp n fun u => { u with qrun := u.qrun + 1 }
  if c.ucfg n 4 0 8 < (c.unit n).qrun then c.unitFault n 2 else c

/-- Signed 32-bit difference. -/
def diff32 (a b : Int) : Int := toSigned 32 (ofSigned 32 (a - b))

/-- P and d after a change of C (R293): new P, new direction (true = −1), whether P changed. -/
def hysteresis (p cnt : Int) (down : Bool) : Int × Bool :=
  let d := diff32 cnt p
  if !down then (if 1 ≤ d then (cnt, false) else if d ≤ -2 then (cnt + 1, true) else (p, false))
  else if d ≤ -1 then (cnt, true)
  else if 2 ≤ d then (cnt - 1, false)
  else (p, true)

/-- The registers of a unit outside TRACK: P at once, speed and acceleration exactly zero (R295). -/
def Channel.showStill (c : Channel) (n : Nat) : Channel :=
  ((c.wrS (ENC_POS_VALUE n) (c.unit n).pos).wr (ENC_SPEED_VALUE n) 0).wr (ENC_ACC_VALUE n) 0

/-- The observer at a position edge (R295); `dt` in FCE_x cycles since the unit's previous position edge. -/
def Channel.posEdge (c : Channel) (n : Nat) (p : Int) (down was : Bool) (dt : Nat) : Channel :=
  let c := c.flag (ENC_USTAT_DIR n) down
  let c := (c.unitUp n fun u => { u with pos := p }).setBit ENC_STAT_STILL n false
  let rev := down != was
  let zero (c : Channel) : Channel :=
    ((c.unitUp n fun u => { u with phat := p * 65536, shat := 0, acc := 0 }).wr (ENC_USTAT_STATE n) 1).showStill n
  match c.rd (ENC_USTAT_STATE n) with
  | 0 => zero c
  | 1 =>
    if rev then zero c
    else
      let v := rdiv ((if down then -1 else 1) * 400000000 * 65536) (max 1 dt)
      (c.unitUp n fun u => { u with phat := p * 65536, shat := v, acc := 0 }).wr (ENC_USTAT_STATE n) 2
  | _ => if rev then zero c else c

/-- A counting settlement in the direction that CMPDIR selects advances DIST (R298). -/
def Channel.distStep (c : Channel) (n : Nat) (up : Bool) : Channel :=
  let dirn := c.ucfg n 6 1 2
  if dirn = 0 ∨ (dirn = 1 ∧ up = true) ∨ (dirn = 2 ∧ up = false) then
    c.wr (ENC_DIST_VALUE n) (c.rd (ENC_DIST_VALUE n) + 256)
  else c

/-- The regular-spacing compare (R298, R299): DIST, and at a hit, looked for at every counting settlement, the advance of
CMPV and the output. -/
def Channel.compare (c : Channel) (n : Nat) (up : Bool) : Channel :=
  let c := c.distStep n up
  let sp := c.rd (ENC_UCFG_VALUE n 5)
  if sp ≠ 0 ∧ (c.rd (ENC_DIST_VALUE n) + 2 ^ 32 - c.rd (ENC_CMPV_CMPV n)) % 2 ^ 32 < 2 ^ 31 then
    let c := c.wr (ENC_CMPV_CMPV n) (c.rd (ENC_CMPV_CMPV n) + sp)
    c.unitUp n fun u => { u with cmpOut := if c.ucfg n 6 0 1 = 0 then !u.cmpOut else true }
  else c

/-- A failed index check (R291, R292). -/
def Channel.idxFail (c : Channel) (n : Nat) : Channel :=
  let c := (c.sat (ENC_ERR_IDXERR n)).unitUp n fun u => { u with idxRun := u.idxRun + 1 }
  if (c.unit n).idxRun = c.ucfg n 2 24 4 then c.unitFault n 3 else c

/-- The motor unit's index for FCE0 (R196, R197). -/
def Channel.motorIndex (c : Channel) (n : Nat) : Channel :=
  if n ≠ c.encu then c
  else
    let cnt := c.rdS (ENC_COUNT_VALUE n)
    let ofs := (match c.me with
      | .A => c.parF 0 10 0 16
      | .B => c.parF 0 10 16 16
      | .C => c.parF 0 11 0 16) * 65536
    if !c.is (FCE_STAT_ALIGNED 0) then
      let c := c.f0up fun f => { f with cref := cnt, aoff := ofs }
      (c.wr (FCE_STAT_ALIGNED 0) 1).wr (FCE_STAT_ALIGNBY 0) 2
    else if c.f0.idxDue then
      let c := c.f0up fun f => { f with idxDue := false }
      if c.beyondPostol ofs (c.encAngle cnt c.f0.aoff) then (c.f0up fun f => { f with encBad := true }).raise 21
      else c.f0up fun f => { f with cref := cnt, aoff := ofs }
    else c

/-- An index event (R291): the count is latched and checked against the previous latch. -/
def Channel.indexEvent (c : Channel) (n : Nat) : Channel :=
  let cnt := c.rdS (ENC_COUNT_VALUE n)
  let d := (diff32 cnt (c.rdS (ENC_IDX_VALUE n))).natAbs
  let cpr := (c.unitCpr n).toNat
  let tol := c.ucfg n 2 16 8
  let first := !c.is (ENC_USTAT_IDXSEEN n)
  let pass := decide (d ≤ tol) || decide (cpr ≤ d + tol ∧ d ≤ cpr + tol)
  let c := (c.wrS (ENC_IDX_VALUE n) cnt).wr (ENC_USTAT_IDXSEEN n) 1
  let c := c.motorIndex n
  if first || cpr == 0 then c
  else if pass then (c.wr (ENC_USTAT_UNC n) 0).unitUp n fun u => { u with idxRun := 0 }
  else c.idxFail n

/-- A missing index (R292). -/
def Channel.indexWatch (c : Channel) (n : Nat) : Channel :=
  let cnt := c.rdS (ENC_COUNT_VALUE n)
  let cpr := (c.unitCpr n).toNat
  if c.is (ENC_USTAT_IDXSEEN n) && cpr != 0 &&
      decide (cpr + c.ucfg n 2 16 8 < (diff32 cnt (c.rdS (ENC_IDX_VALUE n))).natAbs) then
    (c.idxFail n).wrS (ENC_IDX_VALUE n) cnt
  else c

/-- The counting part of a settlement (R287, R289, R293, R298). -/
def Channel.count (c : Channel) (n : Nat) (d : Int) (dt : Nat) : Channel :=
  if d = 0 then c
  else
    let cnt := toSigned 32 (ofSigned 32 (c.rdS (ENC_COUNT_VALUE n) + d))
    let c := (c.wrS (ENC_COUNT_VALUE n) cnt).wr (ENC_USTAT_COAST n) 0
    let was := c.is (ENC_USTAT_DIR n)
    let (p, down) := hysteresis (c.unit n).pos cnt was
    let c := if p = (c.unit n).pos then c else c.posEdge n (diff32 p 0) down was dt
    c.compare n (decide (0 < d))

/-- The stability timer runs out (R286, R287): the settled levels are counted and stored; `dt` in FCE_x cycles since the
unit's previous position edge.
DEDUCED, unsafe: log entry 45. -/
def Channel.settlement (c : Channel) (n dt : Nat) : Channel :=
  if !c.encOn n then c
  else
    let u := c.unit n
    let c := c.unitUp n fun u => { u with stored := u.lvl }
    let c := match settledCount (c.ucfg n 1 4 2) u.stored u.lvl with
      | none => c.qerr n
      | some d => c.count n (if c.ucfg n 1 8 1 = 1 then -d else d) dt
    let fall := c.ucfg n 1 7 1 == 1
    let edge := c.ucfg n 1 6 1 == 1 && u.stored.getLsbD 2 == fall && u.lvl.getLsbD 2 != fall
    if edge then c.indexEvent n else c.indexWatch n

/-- ENC_SETTLEMENT (R287). -/
def execEncSettlement (ch : Chan) (unit : Fin 6) (cycles : Nat) (s : State) : Out :=
  .next (s.onLit ch fun c => c.settlement unit.val cycles)

/-- ENC_ERROR_WINDOW_END (R290, R304): a run of a unit (0 to 5) or of a receiver (6 to 8) ends.
DEDUCED, unsafe: log entry 45. -/
def Channel.errWindow (c : Channel) (n : Nat) (q : Bool) : Channel :=
  if n < 6 then c.unitUp n fun u => if q then { u with qrun := 0 } else { u with erun := 0 }
  else match n with
    | 6 => { c with enc := { c.enc with s0 := { c.enc.s0 with err := 0 } } }
    | 7 => { c with enc := { c.enc with s1 := { c.enc.s1 with err := 0 } } }
    | _ => { c with enc := { c.enc with s2 := { c.enc.s2 with err := 0 } } }

/-- ENC_ERROR_WINDOW_END (R290). -/
def execEncErrorWindowEnd (ch : Chan) (unit : Fin 9) (qerr : Bool) (s : State) : Out :=
  .next (s.onLit ch fun c => c.errWindow unit.val qerr)

/-- Saturation to signed Q32.16. -/
def sat48 (v : Int) : Int := max (-(2 ^ 47 : Int)) (min v (2 ^ 47 - 1))

/-- K1 and K2 of R294. -/
def Channel.obsK (c : Channel) (n : Nat) : Int × Int :=
  let w : Int := twoPi100 * c.ucfg n 3 0 16
  (rdiv (2 * w * 65536) (2 ^ 100), rdiv (w * w) (2 ^ 200))

/-- One update of the tracking observer (R294, R296): p̂ in Q32.16 with its integer part modulo 2^32.
DEDUCED, unsafe: log entry 45. -/
def Channel.obsUpdate (c : Channel) (n : Nat) : Channel :=
  if !c.encOn n || c.rd (ENC_USTAT_STATE n) != 2 then c
  else
    let u := c.unit n
    let (kk1, kk2) := c.obsK n
    let e := if c.is (ENC_USTAT_COAST n) then 0 else toSigned 48 (ofSigned 48 (u.pos * 65536 - u.phat))
    let a := sat48 (kk2 * e)
    let sh := if c.is (ENC_USTAT_COAST n) then u.shat else sat48 (rdiv (u.shat * 1000000 + a) 1000000)
    let ph := rdiv (u.phat * 65536 * 1000000 + sh * 65536 + kk1 * e) (65536 * 1000000)
    let c := c.unitUp n fun u => { u with phat := toSigned 48 (ofSigned 48 ph), shat := sh, acc := a }
    let c := (c.wrSat (ENC_SPEED_VALUE n) (rshift 10 sh)).wrSat (ENC_ACC_VALUE n) (rshift 16 a)
    (c.wrS (ENC_POS_VALUE n) u.pos).inc (ENC_USTAT_UPD n)

/-- OBSERVER_UPDATE (R294). -/
def execObserverUpdate (ch : Chan) (unit : Fin 6) (s : State) : Out :=
  .next (s.onLit ch fun c => c.obsUpdate unit.val)

/-- STANDSTILL_TIMEOUT (R295). -/
def execStandstillTimeout (ch : Chan) (unit : Fin 6) (s : State) : Out :=
  .next (s.onLit ch fun c =>
    let n := unit.val
    if !c.encOn n || c.rd (ENC_USTAT_STATE n) == 0 then c
    else
      let c := c.unitUp n fun u => { u with phat := u.pos * 65536, shat := 0, acc := 0 }
      ((c.wr (ENC_USTAT_STATE n) 0).setBit ENC_STAT_STILL n true).showStill n)

/-- COMPARE_PULSE_END (R298): CMPW after the latest hit in pulse mode. -/
def execComparePulseEnd (ch : Chan) (unit : Fin 6) (s : State) : Out :=
  .next (s.onLit ch fun c =>
    if c.ucfg unit.val 6 0 1 = 1 then c.unitUp unit.val fun u => { u with cmpOut := false } else c)

/-- ENC_CMPV_WRITE (R299). -/
def execEncCmpvWrite (ch : Chan) (unit : Fin 6) (v : Word) (s : State) : Out :=
  .next (s.onLive ch fun c => if c.encOn unit.val then c.wr (ENC_CMPV_CMPV unit.val) v.toNat else c)

/-! SENT receivers. -/

/-- A receiver. -/
def Channel.rx (c : Channel) (m : Nat) : SentRx :=
  match m with
  | 0 => c.enc.s0
  | 1 => c.enc.s1
  | _ => c.enc.s2

/-- Change a receiver. -/
def Channel.rxUp (c : Channel) (m : Nat) (g : SentRx → SentRx) : Channel :=
  match m with
  | 0 => { c with enc := { c.enc with s0 := g c.enc.s0 } }
  | 1 => { c with enc := { c.enc with s1 := g c.enc.s1 } }
  | _ => { c with enc := { c.enc with s2 := g c.enc.s2 } }

/-- An error of a receiver (R304): more than SN in a run sets SFAULT and raises SENT_FAULT. -/
def Channel.sentErr (c : Channel) (m : Nat) (f : Fld) : Channel :=
  let c := (c.sat f).rxUp m fun r => { r with err := r.err + 1 }
  if c.scfg m 2 16 8 < (c.rx m).err ∧ c.is (ENC_SSTAT_SFAULT m) = false then
    ((c.wr (ENC_SSTAT_SFAULT m) 1).setBit ENC_STAT_SFAULT m true).raise 45
  else c

/-- The CRC-4 of SAE J2716: polynomial x⁴ + x³ + x² + 1.
PRESUMED, unsafe: log entry 46. -/
def crc4Tab : List Nat := [0, 13, 7, 10, 14, 3, 9, 4, 1, 12, 6, 11, 15, 2, 8, 5]

/-- CRC-4 of nibbles with seed 0b0101 (R301): the recommended method extends them by a zero nibble.
PRESUMED, unsafe: log entry 46. -/
def sentCrc (legacy : Bool) (ns : List Nat) : Nat :=
  let c := ns.foldl (fun c n => Nat.xor (crc4Tab.getD c 0) (n % 16)) 5
  if legacy then c else crc4Tab.getD c 0

/-- The CRC-6 of the enhanced serial message of SAE J2716 over bits, extended by six zero bits: polynomial
x⁶ + x⁴ + x³ + 1, seed 0b010101.
PRESUMED, unsafe: log entry 46. -/
def crc6 (bs : List Bool) : Nat :=
  (bs ++ List.replicate 6 false).foldl (fun c b =>
    let v := c * 2 + (if b then 1 else 0)
    if 64 ≤ v then Nat.xor (v - 64) 0b011001 else v) 0b010101

/-- The number that bits spell, first bit most significant. -/
def bitsNat (bs : List Bool) : Nat := bs.foldl (fun n b => 2 * n + (if b then 1 else 0)) 0

/-- The number that nibbles spell, first most significant. -/
def nibNat (ns : List Nat) : Nat := ns.foldl (fun n x => 16 * n + x % 16) 0

/-- The short serial message in 16 frames (R301): kind 1, identifier, data. -/
def slowShort (h : List (Bool × Bool)) : Option (Nat × Nat × Nat) :=
  let l := h.drop (h.length - 16)
  if l.length = 16 ∧ l.map (·.1) = true :: List.replicate 15 false then
    let v := bitsNat (l.map (·.2))
    let (i, d1, d0, cr) := (v / 4096, v / 256 % 16, v / 16 % 16, v % 16)
    if sentCrc false [i, d1, d0] = cr then some (1, i, d1 * 16 + d0) else none
  else none

/-- The enhanced serial message in 18 frames (R301): kind 2 or 3, identifier, data. -/
def slowEnhanced (h : List (Bool × Bool)) : Option (Nat × Nat × Nat) :=
  let l := h.drop (h.length - 18)
  let b3 := l.map (·.1)
  let b2 := l.map (·.2)
  if l.length = 18 ∧ b3.take 7 = List.replicate 6 true ++ [false] ∧ b3.getD 12 true = false ∧ b3.getD 17 true = false then
    let msg := (l.drop 6).flatMap fun p => [p.2, p.1]
    if crc6 msg = bitsNat (b2.take 6) then
      let d12 := bitsNat (b2.drop 6)
      let hi := bitsNat ((b3.drop 8).take 4)
      let lo := bitsNat ((b3.drop 13).take 4)
      if b3.getD 7 false then some (3, hi, lo * 4096 + d12) else some (2, hi * 16 + lo, d12)
    else none
  else none

/-- The slow channel after a valid frame (R301, R309).
PRESUMED, unsafe: log entry 46. -/
def Channel.slowIn (c : Channel) (m status : Nat) : Channel :=
  let h := (((c.rx m).slow ++ [(status.testBit 3, status.testBit 2)]).reverse.take 18).reverse
  let c := c.rxUp m fun r => { r with slow := h }
  let msg := match c.scfg m 1 9 2 with
    | 1 => slowShort h
    | 2 => slowEnhanced h
    | _ => none
  match msg with
  | some (k, i, d) =>
    ((((c.wr (ENC_SSLOW_NEW m) 1).wr (ENC_SSLOW_KIND m) k).wr (ENC_SSLOW_ID m) i).wr (ENC_SSLOW_DATA m) d).rxUp m
      fun r => { r with slow := [] }
  | none => c

/-- The measured tick of a frame in FCE_x cycles (R302), half up.
DESIGN CHOICE, unsafe: log entry 87. -/
def sentTick (f : SentFrame) : Nat := (f.cal + 28) / 56

/-- The whole ticks that a pulse of `len` FCE_x cycles lasts, half up.
DESIGN CHOICE, unsafe: log entry 87. -/
def sentTicks (f : SentFrame) (len : Nat) : Nat := (2 * 56 * len + f.cal) / (2 * max 1 f.cal)

/-- The nibbles of a frame: status, data, CRC; a nibble of n ticks is n − 12. -/
def sentNibbles (f : SentFrame) : List Nat := f.pulses.map fun p => sentTicks f p.1 - 12

/-- The status nibble of a frame (R301). -/
def sentStatus (f : SentFrame) : Nat := (sentNibbles f).headD 0

/-- The data nibbles of a frame (R301). -/
def sentData (f : SentFrame) : List Nat := (sentNibbles f).tail.dropLast

/-- The calibration pulse keeps its tolerance against TICK (in 0.1 µs: 40 cycles) and the previous one (R302). -/
def sentCalOk (f : SentFrame) (tick : Nat) (prev : Option Nat) : Bool :=
  let nom := 56 * 40 * tick
  let dist (a b : Nat) : Nat := (a - b) + (b - a)
  decide (5 * dist f.cal nom ≤ nom) && prev.all fun p => decide (64 * dist f.cal p ≤ p)

/-- A frame's form (R302): status, `nib` data nibbles and CRC, each of 12 to 27 ticks with a low phase of at least 4 ticks;
an expected pause pulse of 12 to 768 ticks. -/
def sentFormOk (f : SentFrame) (nib : Nat) (pause : Bool) : Bool :=
  f.pulses.length == nib + 2 &&
  f.pulses.all (fun p => let n := sentTicks f p.1; decide (12 ≤ n) && decide (n ≤ 27) && decide (4 * f.cal ≤ 56 * p.2)) &&
  (!pause || f.pause.any fun p => decide (12 * f.cal ≤ 56 * p) && decide (56 * p ≤ 768 * f.cal))

/-- A received frame (R302 to R304): its first failed check is counted, a valid frame updates the registers together. -/
def Channel.sentIn (c : Channel) (m : Nat) (f : SentFrame) : Channel :=
  if !c.sentOn m then c
  else
    let prev := (c.rx m).prev
    let c := c.rxUp m fun r => { r with prev := some f.cal }
    let bad (c : Channel) (g : Fld) : Channel := (c.rxUp m fun r => { r with slow := [] }).sentErr m g
    let data := sentData f
    if !sentCalOk f (c.scfg m 1 16 16) prev then bad c (ENC_SERR_CAL m)
    else if !sentFormOk f (c.scfg m 1 4 3) (c.scfg m 1 8 1 == 1) then bad c (ENC_SERR_FORM m)
    else if sentCrc (c.scfg m 1 7 1 == 1) data ≠ (sentNibbles f).getLastD 0 then bad c (ENC_SERR_CRC m)
    else
      let s1 := c.scfg m 1 12 3
      let rest := data.drop s1
      let rest := if c.scfg m 1 11 1 = 1 then rest.reverse else rest
      let c := (c.wr (ENC_SDATA_VALUE m) (sentStatus f % 16 * 2 ^ 24 + nibNat data)).wr (ENC_SSIG1_VALUE m)
        (nibNat (data.take s1))
      let c := ((c.wr (ENC_SSIG2_VALUE m) (nibNat rest)).wr (ENC_STS_VALUE m) c.tb.toNat).wr (ENC_STICK_VALUE m)
        (sentTick f)
      let c := ((c.inc (ENC_SSTAT_FRAMES m)).wr (ENC_SSTAT_VALID m) 1).wr (ENC_SSTAT_AGE m) 0
      let c := (c.setBit ENC_STAT_SVALID m true).rxUp m fun r => { r with since := some 0 }
      c.slowIn m (sentStatus f)

/-- SENT_FRAME (R302). -/
def execSentFrame (ch : Chan) (m : Fin 3) (f : SentFrame) (s : State) : Out :=
  .next (s.onLit ch fun c => c.sentIn m.val f)

/-- SENT_TIMEOUT (R304): a full TOUT without a valid frame. -/
def execSentTimeout (ch : Chan) (m : Fin 3) (s : State) : Out :=
  .next (s.onLit ch fun c =>
    if !c.sentOn m.val then c
    else ((c.wr (ENC_SSTAT_VALID m.val) 0).setBit ENC_STAT_SVALID m.val false).sentErr m.val (ENC_SERR_TOUT m.val))

end Sys2Proof.Machine
end

