-- ==== Sys2Proof/Machine/SafetyIn.lean ====
section
/-! DEFINITION. The safety inputs: filters, local states, test pulses and the vote of a pair (R322 to R332 of
11_steering_brake_safety_inputs.md). -/

namespace Sys2Proof.Machine

/-- A field of the INPUT_PAIR record of pair `p` as loaded: word, least significant bit, width (R329). -/
def Channel.pairCfg (c : Channel) (p w lsb width : Nat) : Nat := c.rd (SIN_CFG_VALUE p w) / 2 ^ lsb % 2 ^ width

/-- Local state of a pair (R332): 0 undeclared, 1 IDLE, 2 ACTIVE, 3 PENDING, 4 FAULT. -/
def Channel.pairState (c : Channel) (p : Nat) : Nat := c.rd SIN_LOCAL_STATE / 2 ^ (3 * p) % 8

/-- REACT of a pair (R328). -/
def Channel.pairReact (c : Channel) (p : Nat) : Nat := if c.rd (SIN_CFG_VALUE p 1) = 0 then 0 else c.pairCfg p 1 8 2

/-- Some own pair with this REACT is ACTIVE by its local state, which a split channel uses in place of the vote (R173,
R326). -/
def Channel.localActive (c : Channel) (react : Nat) : Bool :=
  (List.range 6).any fun p => c.rd (SIN_CFG_VALUE p 1) != 0 && c.pairReact p == react && c.pairState p == 2

/-- STW_SPDREQ and the flags of SIN_STAT in a split channel (R173, R317, R326): the SPEED of its mode's record, 0 while a
REACT 2 pair of its own is ACTIVE. -/
def Channel.splitShow (c : Channel) : Channel :=
  if c.lockstep then c
  else
    let hold := c.localActive 2
    let c := (c.flag SIN_STAT_STATION (c.localActive 3)).flag SIN_STAT_HOLD hold
    (c.flag STW_SPDREQ_HOLD hold).wr STW_SPDREQ_SPEED (if hold then 0 else limitField c.fol.recs (c.rd STW_MODE_MODE) 2 0 16)

/-- Set a pair's local state; the own SIN_PEERx mirrors SIN_LOCAL (R332). -/
def Channel.setPair (c : Channel) (p st : Nat) : Channel :=
  let v := c.rd SIN_LOCAL_STATE
  let c := c.wr SIN_LOCAL_STATE (v - v / 2 ^ (3 * p) % 8 * 2 ^ (3 * p) + st * 2 ^ (3 * p))
  (c.wr (SIN_PEER_STATE c.me.idx) (c.rd SIN_LOCAL_STATE)).splitShow

/-- The pair is declared.
DEDUCED, unsafe: log entry 47. -/
def Channel.pairOn (c : Channel) (p : Nat) : Bool := c.pairState p != 0

/-- The pair is tested by the block (TPEN of R329). -/
def Channel.pairTested (c : Channel) (p : Nat) : Bool := c.pairOn p && c.pairCfg p 1 12 1 == 1

/-- The level that the filter of contact `n` takes from a sample: during an excluded window the last sample before the
pulse (R324). -/
def Channel.filterIn (c : Channel) (raw n : Nat) : Bool :=
  if !c.pairTested (n / 2) then raw.testBit n
  else if n % 2 = 0 then (if 0 < c.sin.exclA then c.sin.beforeA.testBit n else raw.testBit n)
  else if 0 < c.sin.exclB then c.sin.beforeB.testBit n else raw.testBit n

/-- Set or clear bit `n` of a number. -/
def putBit (v n : Nat) (b : Bool) : Nat := if v.testBit n then (if b then v else v - 2 ^ n) else if b then v + 2 ^ n else v

/-- One filter takes a sample (R322): its level changes when the input has held the new level for FILT, which is
10 × FILT sample intervals.
DEDUCED, unsafe: log entry 47. -/
def Channel.filterStep (c : Channel) (raw n : Nat) : Channel :=
  if !c.pairOn (n / 2) then c
  else
    let l := c.filterIn raw n
    if c.sin.valid.testBit n && c.bit SIN_LEVEL_FILT n == l then
      { c with sin := { c.sin with run := kset 0 c.sin.run n 0 } }
    else
      let run := if c.sin.cand.testBit n == l then kget 0 c.sin.run n + 1 else 1
      if c.pairCfg (n / 2) 2 0 16 * 10 < run then
        { c.setBit SIN_LEVEL_FILT n l with sin := { c.sin with
            valid := putBit c.sin.valid n true, cand := putBit c.sin.cand n l, run := kset 0 c.sin.run n 0 } }
      else { c with sin := { c.sin with cand := putBit c.sin.cand n l, run := kset 0 c.sin.run n run } }

/-- The state that a pair's filtered contacts decode to (R322): 1 IDLE, 2 ACTIVE, `none` disagree. -/
def decodePair (type : Nat) (a b : Bool) : Option Nat :=
  if type = 1 then (if a && !b then some 1 else if !a && b then some 2 else none)
  else if a && b then some 1 else if !a && !b then some 2 else none

/-- The decoded filtered contacts of a pair; before both filters have a level they do not agree (R329). -/
def Channel.decoded (c : Channel) (p : Nat) : Option Nat :=
  if c.sin.valid.testBit (2 * p) && c.sin.valid.testBit (2 * p + 1) then
    decodePair (c.pairCfg p 1 4 2) (c.bit SIN_LEVEL_FILT (2 * p)) (c.bit SIN_LEVEL_FILT (2 * p + 1))
  else none

/-- The contact transitions of a pair (R323). In FAULT the time that re-arms it starts anew while its contacts do not show
ACTIVE. -/
def Channel.pairStep (c : Channel) (p : Nat) : Channel :=
  match c.pairState p, c.decoded p with
  | 1, none => c.setPair p 3
  | 2, none => c.setPair p 3
  | 1, some x => c.setPair p x
  | 2, some x => c.setPair p x
  | 3, some x => c.setPair p x
  | 4, d => if d == some 2 then c else { c with sin := { c.sin with failed := putBit c.sin.failed p false } }
  | _, _ => c

/-- A function over the first `n` indices, in rising order. -/
def Channel.forN (c : Channel) (f : Channel → Nat → Channel) : Nat → Channel
  | 0 => c
  | n + 1 => f (c.forN f n) n

/-- One sample of the twelve inputs (R322). -/
def Channel.sinTake (c : Channel) (raw : Nat) : Channel :=
  let c := c.wr SIN_LEVEL_RAW raw
  let c := c.forN (fun c n => c.filterStep raw n) 12
  let c := { c with sin := { c.sin with exclA := c.sin.exclA - 1, exclB := c.sin.exclB - 1 } }
  c.forN Channel.pairStep 6

/-- SIN_SAMPLE (R322), every 10 µs. -/
def execSinSample (ch : Chan) (raw : BitVec 12) (s : State) : Out :=
  .next (s.onLive ch fun c => if c.blockOn blkSIN then c.sinTake raw.toNat else c)

/-- A pair goes to FAULT (R323): CAUSE, the pair's counter and the source. -/
def Channel.discFault (c : Channel) (p : Nat) : Channel :=
  (((c.setPair p 4).wr (SIN_PAIR_CAUSE p) 1).sat (SIN_PAIR_DISC p)).raise 46

/-- DISCREPANCY_TIMEOUT (R323): the timer of a PENDING pair reaches DISC. -/
def execDiscrepancyTimeout (ch : Chan) (p : Fin 6) (s : State) : Out :=
  .next (s.onLive ch fun c =>
    if c.blockOn blkSIN && c.pairState p == 3 then c.discFault p else c)

/-- FAULT_REARM (R323): contacts have shown ACTIVE without a break, and no test pulse has failed, for DISC; CAUSE is
kept. -/
def execFaultRearm (ch : Chan) (p : Fin 6) (s : State) : Out :=
  .next (s.onLive ch fun c =>
    if c.blockOn blkSIN && c.pairState p == 4 && c.decoded p == some 2 then
      if c.sin.failed.testBit p then { c with sin := { c.sin with failed := putBit c.sin.failed p false } }
      else c.setPair p 2
    else c)

/-- TPW in force (R329: one value in all pairs of a channel): that of the first pair with TPEN = 1; `none` when no pair
is tested. -/
def Channel.tpw (c : Channel) : Option Nat :=
  ((List.range 6).find? c.pairTested).map fun p => c.pairCfg p 2 16 8

/-- A test pulse begins (R324): the output goes low, and the samples from here to 20 µs after its end are excluded for
the inputs it supplies. The pulse pairs are counted at TPA_x.
DEDUCED, unsafe: log entry 47. -/
def Channel.pulseStart (c : Channel) (b : Bool) (tpw : Nat) : Channel :=
  let raw := c.rd SIN_LEVEL_RAW
  if b then { c.wr SIN_LEVEL_TPB 0 with sin := { c.sin with beforeB := raw, exclB := tpw + 3 } }
  else { (c.wr SIN_LEVEL_TPA 0).inc SIN_STAT_TPCNT with sin := { c.sin with beforeA := raw, exclA := tpw + 3 } }

/-- TEST_PULSE_START (R324): TPA_x every TPP, TPB_x half a period later. -/
def execTestPulseStart (ch : Chan) (b : Bool) (s : State) : Out :=
  .next (s.onLive ch fun c =>
    if c.blockOn blkSIN then
      match c.tpw with
      | some w => c.pulseStart b w
      | none => c
    else c)

/-- The verdict of a pulse's last sample on a pair (R324): 2 stuck high, 3 cross-short, 0 sound. -/
def Channel.pulseVerdict (c : Channel) (b : Bool) (raw p : Nat) : Nat :=
  let own := 2 * p + (if b then 1 else 0)
  let oth := 2 * p + (if b then 0 else 1)
  let before := if b then c.sin.beforeB else c.sin.beforeA
  if raw.testBit own then 2 else if before.testBit oth && !raw.testBit oth then 3 else 0

/-- A failed test of a pair (R323): FAULT from IDLE, ACTIVE and PENDING; a pair in FAULT stays there, and is not re-armed
for the time that runs. -/
def Channel.testFail (c : Channel) (p cause : Nat) : Channel :=
  if c.pairState p = 4 then { c with sin := { c.sin with failed := putBit c.sin.failed p true } }
  else ((c.setPair p 4).wr (SIN_PAIR_CAUSE p) cause).sat (SIN_PAIR_TEST p)

/-- Pairs that this check takes to FAULT. -/
def Channel.failing (c : Channel) (b : Bool) (raw : Nat) : List Nat :=
  (List.range 6).filter fun p => c.pairTested p && c.pulseVerdict b raw p != 0 && c.pairState p != 4

/-- The check at the last sample of a pulse (R324), with which the output returns high.
DEDUCED, unsafe: log entry 47. -/
def Channel.pulseCheck (c : Channel) (b : Bool) (raw : Nat) : Channel :=
  let l := c.failing b raw
  let v := fun p => c.pulseVerdict b raw p
  let all := (List.range 6).filter fun p => c.pairTested p && v p != 0
  let c := all.foldl (fun c p => c.testFail p (v p)) c
  (if b then c.wr SIN_LEVEL_TPB 1 else c.wr SIN_LEVEL_TPA 1).raiseAll (l.map fun _ => (47, blkSIN))

/-- TEST_PULSE_CHECK (R324). -/
def execTestPulseCheck (ch : Chan) (b : Bool) (raw : BitVec 12) (s : State) : Out :=
  .next (s.onLive ch fun c =>
    if c.blockOn blkSIN && !(if b then c.is SIN_LEVEL_TPB else c.is SIN_LEVEL_TPA) then c.pulseCheck b raw.toNat else c)

/-- The declared pairs start (R329): filters begin, every declared pair is PENDING. A pair is declared when its loaded
word 1 is not 0 (DISC is at least 10). -/
def Channel.sinStart (c : Channel) : Channel :=
  { c.forN (fun c p => c.setPair p (if c.rd (SIN_CFG_VALUE p 1) = 0 then 0 else 3)) 6 with
    sin := { sb1Out := c.sin.sb1Out, sb2Out := c.sin.sb2Out, direct := c.sin.direct, relayed := c.sin.relayed } }

/-- SB1 packet of a channel (R325): KIND, SENDER, ORIGIN, ROUND, STATES. -/
def sbPacket (kind sender origin round states : Nat) : BitVec 64 :=
  BitVec.ofNat 64 (kind % 16 + sender % 4 * 2 ^ 4 + origin % 4 * 2 ^ 6 + round % 256 * 2 ^ 8 + states % 2 ^ 18 * 2 ^ 16)

/-- A field of a packet. -/
def pktField (p : BitVec 64) (lsb width : Nat) : Nat := p.toNat / 2 ^ lsb % 2 ^ width

/-- SB1_RECEIVED and SB2_RECEIVED share this (R325, with the deadlines of R112): the packet is held for its round and
shown in SIN_PEERx. An SB1 comes from its origin, an SB2 from the third channel; `limit` in ns after round start. -/
def Channel.sbHeld (c : Channel) (kind limit : Nat) (pkt : BitVec 64) (crcOk : Bool) (off : Nat) : Channel :=
  if !crcOk then c.badCrc
  else match Chan.ofNum (pktField pkt 6 2), Chan.ofNum (pktField pkt 4 2) with
  | some o, some sender =>
    if c.hears sender = true ∧ pktField pkt 0 4 = kind ∧ off ≤ limit ∧ o ≠ c.me ∧ sender ≠ c.me ∧ ((kind = 5) ↔ (sender = o)) then
      let c := (c.wr (SIN_PEER_ROUND o.idx) (pktField pkt 8 8)).wr (SIN_PEER_STATE o.idx) (pktField pkt 16 18)
      let st := some (pktField pkt 16 18)
      if kind = 5 then { c with sin := { c.sin with direct := kset none c.sin.direct o.idx st } }
      else { c with sin := { c.sin with relayed := kset none c.sin.relayed o.idx st } }
    else c
  | _, _ => c

/-- SB1_RECEIVED (R325). -/
def execSb1Received (ch : Chan) (pkt : BitVec 64) (crcOk : Bool) (off : Nat) (s : State) : Out :=
  .next (s.onLive ch fun c => c.sbHeld 5 20000 pkt crcOk off)

/-- SB2_RECEIVED (R325). -/
def execSb2Received (ch : Chan) (pkt : BitVec 64) (crcOk : Bool) (off : Nat) (s : State) : Out :=
  .next (s.onLive ch fun c => c.sbHeld 6 45000 pkt crcOk off)

/-- The vote of a pair over the states of the members that declare it (R325): 1 IDLE, 2 ACTIVE, 3 INVALID; `prev` is the
previous voted state. -/
def votePair (sts : List Nat) (prev : Nat) : Nat :=
  let i := sts.count 1
  let a := sts.count 2
  let p := sts.count 3
  let f := sts.count 4
  match sts.length with
  | 0 => 0
  | 1 => if i = 1 then 1 else if a = 1 then 2 else if p = 1 then prev else 3
  | 2 => if 1 ≤ a then 2 else if 1 ≤ i ∧ f = 0 then 1 else if p = 2 then prev else 3
  | _ => if 2 ≤ a then 2 else if 2 ≤ i then 1 else if 1 ≤ p ∧ f = 0 then prev else 3

/-- A pair's vote within SIN_VOTE.STATE.
DEDUCED, unsafe: log entry 48. -/
def voteOf (votes p : Nat) : Nat := votes / 4 ^ p % 4

/-- REACT of a pair in the herd (R328): that of the Folio's records of the pair, which agree between channels (R329); none
where no channel declares it. -/
def reactOf (l : List FolRec) (p : Nat) : Option Nat :=
  ((recsOf l 0x0A00).find? fun r => bitsOf (r.w 1) 0 3 == p).map fun r => bitsOf (r.w 1) 8 2

/-- Some pair with this REACT is voted ACTIVE (R328), whichever channels declare it; INVALID never acts as ACTIVE. -/
def Channel.reactActive (c : Channel) (votes react : Nat) : Bool :=
  (List.range 6).any fun p => reactOf c.fol.recs p == some react && voteOf votes p == 2

/-- Some pair with this REACT is declared. -/
def Channel.reactDeclared (c : Channel) (react : Nat) : Bool := (List.range 6).any fun p => reactOf c.fol.recs p == some react

/-- New votes take effect (R325, R332). -/
def Channel.showVotes (c : Channel) (votes : Nat) : Channel :=
  let old := c.rd SIN_VOTE_STATE
  let c := c.forN (fun c p => if voteOf old p ≠ voteOf votes p then c.setBit SIN_VOTE_CHG p true else c) 6
  let c := c.wr SIN_VOTE_STATE votes
  let c := c.forN (fun c p => c.setBit SIN_STAT_INVALID p (voteOf votes p == 3)) 6
  (c.flag SIN_STAT_STATION (c.reactActive votes 3)).flag SIN_STAT_HOLD (c.reactActive votes 2)

/-- The pair is outvoted in this round (R326).
DEDUCED, unsafe: log entry 48. -/
def Channel.outvotedNow (c : Channel) (votes p : Nat) : Bool :=
  let st := c.pairState p
  let v := voteOf votes p
  (v == 1 || v == 2) && (st == 4 || ((st == 1 || st == 2) && decide (c.pairCfg p 1 16 16 * 10 < kget 0 c.sin.differ p)))

/-- Rounds for which the pair's IDLE or ACTIVE has differed from the vote.
DEDUCED, unsafe: log entry 48. -/
def Channel.differStep (c : Channel) (votes p : Nat) : Channel :=
  let st := c.pairState p
  let d := (st == 1 || st == 2) && voteOf votes p != st
  { c with sin := { c.sin with differ := kset 0 c.sin.differ p (if d then kget 0 c.sin.differ p + 1 else 0) } }

/-- The events of a round's votes in a member (R326): SIN_SI for each pair newly INVALID, SIN_OUTV for each pair newly
outvoted.
DEDUCED, unsafe: log entry 48. -/
def Channel.voteEvents (c : Channel) (old votes : Nat) : Channel :=
  let c := c.forN (fun c p => c.differStep votes p) 6
  let si := (List.range 6).filter fun p => voteOf votes p == 3 && voteOf old p != 3
  let outNow := (List.range 6).filter (c.outvotedNow votes)
  let fresh := outNow.filter fun p => !c.sin.outv.testBit p
  let c := { c with sin := { c.sin with outv := outNow.foldl (fun m p => putBit m p true) 0 } }
  let c := si.foldl (fun c _ => c.sat SIN_STAT_SICNT) c
  let c := fresh.foldl (fun c p => c.sat (SIN_PAIR_OUTV p)) c
  c.raiseAll ((si.map fun _ => (49, blkSIN)) ++ fresh.map fun _ => (48, blkSIN))

end Sys2Proof.Machine
end

