-- ==== Sys2Proof/Machine/Lms.lean ====
section
/-! DEFINITION. HSS/LMS verification with SHA-256 (R461 of 17_security_and_update.md, which takes it from RFC 8554 and
NIST SP 800-208): the parameter sets of R461, in any combination at each of 1 to 3 levels. -/

namespace Sys2Proof.Machine

/-- Big-endian 32-bit number at an offset. -/
def be32 (bs : List Byte) (ofs : Nat) : Nat := ((beWords ((bs.drop ofs).take 4)).head?.getD 0).toNat

/-- `n` bytes at an offset. -/
def slice (bs : List Byte) (ofs n : Nat) : List Byte := (bs.drop ofs).take n

/-- Height of a tree by its LMS type (R461); 0 names no accepted type. -/
def lmsHeight (t : Nat) : Nat := if t = 5 then 5 else if t = 6 then 10 else if t = 7 then 15 else if t = 8 then 20 else 0

/-- Coefficient width w, chains p and checksum shift ls of an LMOTS type (R461). -/
def lmotsPar (t : Nat) : Option (Nat × Nat × Nat) :=
  match t with
  | 1 => some (1, 265, 7)
  | 2 => some (2, 133, 6)
  | 3 => some (4, 67, 4)
  | 4 => some (8, 34, 0)
  | _ => none

/-- Coefficient `i` of width `w` of a byte string, most significant first. -/
def coef (bs : List Byte) (w i : Nat) : Nat :=
  let per := 8 / w
  (bs.getD (i / per) 0).toNat / 2 ^ (w * (per - 1 - i % per)) % 2 ^ w

/-- A chain from step `j` for `n` steps. -/
def lmotsChain (pre : List Byte) : Nat → Nat → List Byte → List Byte
  | 0, _, x => x
  | n + 1, j, x => lmotsChain pre n (j + 1) (sha256 (pre ++ beBytes 1 j ++ x))

/-- The checksum over the 256 bits of the message hash. -/
def lmotsSum (q : List Byte) (w : Nat) : Nat :=
  (List.range (256 / w)).foldl (fun s i => s + (2 ^ w - 1 - coef q w i)) 0

/-- The candidate one-time public key of an LMOTS signature: identifier I, leaf q, C, chains, message. -/
def lmotsKey (ident : List Byte) (q w p ls : Nat) (c y msg : List Byte) : List Byte :=
  let pre := ident ++ beBytes 4 q
  let h := sha256 (pre ++ [0x81, 0x81] ++ c ++ msg)
  let hc := h ++ beBytes 2 (lmotsSum h w * 2 ^ ls)
  let z := (List.range p).flatMap fun i =>
    let a := coef hc w i
    lmotsChain (pre ++ beBytes 2 i) (2 ^ w - 1 - a) a (slice y (32 * i) 32)
  sha256 (pre ++ [0x80, 0x80] ++ z)

/-- The path from a leaf to the root. -/
def lmsRoot (ident path : List Byte) : Nat → Nat → List Byte → List Byte
  | 0, _, x => x
  | n + 1, node, x =>
    let other := path.take 32
    let pair := if node % 2 = 1 then other ++ x else x ++ other
    lmsRoot ident (path.drop 32) n (node / 2) (sha256 (ident ++ beBytes 4 (node / 2) ++ [0x83, 0x83] ++ pair))

/-- Length of the LMS signature that starts a byte string, by its type codes; 0 for a code that R461 does not accept. -/
def lmsSigLen (sig : List Byte) : Nat :=
  match lmotsPar (be32 sig 4) with
  | none => 0
  | some (_, p, _) =>
    let h := lmsHeight (be32 sig (40 + 32 * p))
    if h = 0 then 0 else 44 + 32 * p + 32 * h

/-- An LMS signature is valid under a 56-byte public key.
PRESUMED, unsafe: log entry 20. -/
def lmsOk (pub msg sig : List Byte) : Bool :=
  match lmotsPar (be32 sig 4) with
  | none => false
  | some (w, p, ls) =>
    let t := be32 sig (40 + 32 * p)
    let h := lmsHeight t
    let q := be32 sig 0
    let ident := slice pub 8 16
    if h = 0 ∨ be32 pub 0 ≠ t ∨ be32 pub 4 ≠ be32 sig 4 ∨ 2 ^ h ≤ q ∨ sig.length ≠ 44 + 32 * p + 32 * h then false
    else
      let kc := lmotsKey ident q w p ls (slice sig 8 32) (slice sig 40 (32 * p)) msg
      let leaf := sha256 (ident ++ beBytes 4 (2 ^ h + q) ++ [0x82, 0x82] ++ kc)
      lmsRoot ident (slice sig (44 + 32 * p) (32 * h)) h (2 ^ h + q) leaf == slice pub 24 32

/-- The levels of an HSS signature: `n` signed public keys come before the signature of the message. -/
def hssLevels : Nat → List Byte → List Byte → List Byte → Bool
  | 0, pub, msg, sig => lmsOk pub msg sig
  | n + 1, pub, msg, sig =>
    let len := lmsSigLen sig
    let next := slice sig len 56
    if len = 0 then false
    else lmsOk pub next (sig.take len) && hssLevels n next msg (sig.drop (len + 56))

/-- An HSS signature is valid under a 60-byte public key (R461).
PRESUMED, unsafe: log entry 20. -/
def hssOk (pub msg sig : List Byte) : Bool :=
  let l := be32 pub 0
  pub.length == 60 && decide (1 ≤ l) && decide (l ≤ 3) && be32 sig 0 == l - 1 && hssLevels (l - 1) (pub.drop 4) msg (sig.drop 4)

/-- The key hash of a public key (R461), as a number. -/
def keyHash (pub : List Byte) : BitVec 256 := BitVec.ofNat 256 (leNat (sha256 pub))

end Sys2Proof.Machine
end

