-- ==== Sys2Proof/Machine/Folio.lean ====
section
/-! DEFINITION. The Folio's form: layout, record catalogue and the structural stages of validation (R39 to R59 and R538
of 02_folio.md), with the ranges that the record tables of the other chapters give. -/

namespace Sys2Proof.Machine

/-- The result of a rejected source (R58): first error code, quire type, record index, byte offset. -/
structure FErr where
  code : Nat
  qtype : Nat := 0
  index : Nat := 0
  offset : Nat := 0
  deriving DecidableEq, Repr

/-- A little-endian field of a byte string (R39). -/
def leAt (bs : List Byte) (ofs n : Nat) : Nat := leNat (slice bs ofs n)

/-- Little-endian words of bytes. -/
def leWords : List Byte → List Word
  | a :: b :: c :: d :: r => (d ++ c ++ b ++ a : BitVec 32) :: leWords r
  | _ => []

/-- All bytes are 0. -/
def allZero (bs : List Byte) : Bool := bs.all (· == 0)

/-- First byte of a stretch that is not 0. -/
def nonZeroAt (bs : List Byte) (start stop : Nat) : Option Nat :=
  ((slice bs start (stop - start)).findIdx? (· != 0)).map (start + ·)

/-! Stages 1 and 2 (R40, R49, R56). -/

/-- Fields of the spine (R40). -/
def spLen (sp : List Byte) : Nat := leAt sp 0x08 4
def spOfs (sp : List Byte) : Nat := leAt sp 0x0C 4
def spIndex (sp : List Byte) (k : Nat) : Nat := leAt sp (0x10 + 2 * k) 2

/-- Stage 1 (R56, R539): spine of a source of `size` bytes. -/
def stage1 (size : Nat) (sp : List Byte) : Option FErr :=
  if size < 4 ∨ leAt sp 0 4 ≠ 0x494C4F46 then some { code := 0x01 }
  else if size < 0x40 then some { code := 0x04, offset := 0x08 }
  else if leAt sp 0x3C 4 ≠ crc32c (slice sp 0 0x3C) then some { code := 0x02, offset := 0x3C }
  else if leAt sp 0x04 2 ≠ 1 then some { code := 0x03, offset := 0x04 }
  else if leAt sp 0x06 2 ≠ 0 then some { code := 0x03, offset := 0x06 }
  else if !allZero (slice sp 0x30 12) then some { code := 0x03, offset := (nonZeroAt sp 0x30 0x3C).getD 0x30 }
  else if spLen sp % 4 ≠ 0 ∨ 4194304 < spLen sp ∨ size < spLen sp then some { code := 0x04, offset := 0x08 }
  else if spOfs sp % 4 ≠ 0 ∨ spOfs sp < 0x100 ∨ spLen sp < spOfs sp + 0x44 then some { code := 0x05, offset := 0x0C }
  else none

/-- Fields of the colophon (R49). -/
def coVersion (co : List Byte) : Nat := leAt co 0x04 4
def coCompat (co : List Byte) : Nat := leAt co 0x08 4
def coRollback (co : List Byte) : Nat := leAt co 0x0C 4
def coEpoch (co : List Byte) : Nat := leAt co 0x10 2
def coSlot (co : List Byte) : Nat := leAt co 0x12 1
def coLcMask (co : List Byte) : Nat := leAt co 0x13 1
def coDevice (co : List Byte) : Nat := leAt co 0x14 6
def coHash (co : List Byte) : BitVec 256 := BitVec.ofNat 256 (leAt co 0x1C 32)
def coSigLen (co : List Byte) : Nat := leAt co 0x3C 4

/-- Bytes up to the next multiple of 4. -/
def pad4 (n : Nat) : Nat := (4 - n % 4) % 4

/-- Stage 2 (R49, R56, R470): the colophon's form. Its checks run in byte order, which decides FOL_POS.
DESIGN CHOICE, unsafe: log entry 82. -/
def stage2 (sp co : List Byte) : Option FErr :=
  let o := spOfs sp
  let n := coSigLen co
  let e (k : Nat) : Option FErr := some { code := 0x06, offset := o + k }
  if leAt co 0 4 ≠ 0x4F4C4F43 then e 0
  else if 64 < coEpoch co then e 0x10
  else if 16 ≤ coLcMask co then e 0x13
  else if leAt co 0x1A 2 ≠ 0 then e ((nonZeroAt co 0x1A 0x1C).getD 0x1A)
  else if n = 0 ∨ 32768 < n ∨ spLen sp ≠ o + 0x40 + n + pad4 n then e 0x3C
  else if !allZero (slice co (0x40 + n) (pad4 n)) then e ((nonZeroAt co (0x40 + n) (0x40 + n + pad4 n)).getD (0x40 + n))
  else none

/-- A root slot that may verify: fused, not revoked, its stored key matching the die's hash (R463). -/
def Otp.keyOk (o : Otp) (keys : KMap (List Byte)) (slot : Nat) : Bool :=
  decide (slot < 4) && o.fused.getLsbD slot && !o.revoked.getLsbD slot &&
    keyHash (kget [] keys slot) == kget 0 o.hash slot

/-- Stage 3 (R56): root key and signature. -/
def stage3 (o : Otp) (keys : KMap (List Byte)) (sp co : List Byte) : Option FErr :=
  if !o.keyOk keys (coSlot co) then some { code := 0x10, offset := spOfs sp + 0x12 }
  else if !hssOk (kget [] keys (coSlot co)) (slice co 0 0x40) (slice co 0x40 (coSigLen co)) then
    some { code := 0x11, offset := spOfs sp + 0x40 }
  else none

/-- Stage 4 (R56, R62, R467): admission. `peer` is the hash that a serving channel runs, in a peer load. -/
def stage4 (o : Otp) (rollback : Nat) (peer : Option (BitVec 256)) (sp co : List Byte) : Option FErr :=
  let e (c k : Nat) : Option FErr := some { code := c, offset := spOfs sp + k }
  if o.lc = 0 ∨ 4 < o.lc ∨ (coLcMask co).testBit (o.lc - 1) = false then e 0x15 0x13
  else if coDevice co ≠ 0 ∧ coDevice co ≠ Config.deviceId.toNat then e 0x16 0x14
  else if coEpoch co < o.epoch then e 0x14 0x10
  else match peer with
    | some h => if coHash co ≠ h then e 0x13 0x1C else none
    | none => if coRollback co < rollback then e 0x13 0x0C else none

/-! The record catalogue (R50). -/

/-- A field of a record body: word, least significant bit, width, least and greatest value. -/
structure RFld where
  word : Nat
  lsb : Nat
  width : Nat
  lo : Nat
  hi : Nat
  deriving DecidableEq, Repr

/-- The Count column (R50): records in all, records per channel, one per channel (or per region). -/
inductive RCount
  | total (lo hi : Nat)
  | perCh (lo hi : Nat)
  | one (lo : Nat) (regions : Nat)
  deriving DecidableEq, Repr

/-- A record kind: TYPE, LEN (0: varies), regions its scope may name (0: not scoped), one region only, count, fields. -/
structure RKind where
  type : Nat
  len : Nat
  mask : Nat
  single : Bool
  count : RCount
  flds : List RFld
  deriving DecidableEq, Repr

/-- A field of the whole width `w` without a narrower range. -/
def anyF (word lsb w : Nat) : RFld := ⟨word, lsb, w, 0, 2 ^ w - 1⟩

/-- PINS, CHANNELS (R51, R176, R35). -/
def kinds12 : List RKind :=
  [⟨0x0100, 0, 7, true, .one 1 7, []⟩,
   ⟨0x0200, 4, 7, false, .one 1 7,
     [⟨1, 0, 12, 800, 4000⟩, anyF 1 12 2, ⟨1, 16, 12, 400, 3200⟩, anyF 1 28 2, ⟨2, 0, 9, 100, 400⟩]⟩,
   ⟨0x0201, 2, 0, false, .total 0 6,
     [⟨0, 0, 4, 0, 5⟩, ⟨0, 8, 2, 1, 3⟩, anyF 0 10 2, ⟨0, 16, 2, 1, 3⟩, anyF 0 18 2]⟩,
   ⟨0x0202, 2, 0, false, .total 1 1, [anyF 0 0 1]⟩]

/-- MOTORS (R192, R193, R200, R203, R247, R251, R283). -/
def kinds3 : List RKind :=
  [⟨0x0300, 14, 0, false, .total 1 1,
     [⟨0, 0, 8, 1, 32⟩, ⟨0, 16, 16, 64, 16384⟩, ⟨1, 0, 32, 1000, 10000000⟩, ⟨2, 0, 32, 1000, 100000000⟩,
      ⟨3, 0, 32, 1000, 100000000⟩, ⟨4, 0, 32, 100, 1000000⟩, ⟨5, 0, 16, 100, 60000⟩, anyF 5 16 16,
      ⟨6, 0, 10, 500, 1000⟩, ⟨6, 16, 10, 800, 1000⟩, ⟨7, 0, 16, 100, 30000⟩, ⟨7, 16, 16, 20, 2000⟩,
      ⟨8, 0, 8, 2, 30⟩, ⟨8, 8, 8, 50, 95⟩, ⟨8, 16, 8, 5, 60⟩, ⟨8, 24, 8, 5, 50⟩, ⟨9, 0, 9, 0, 359⟩,
      ⟨9, 9, 9, 0, 359⟩, ⟨9, 18, 9, 0, 359⟩, anyF 10 0 16, anyF 10 16 16, anyF 11 0 16, ⟨11, 16, 3, 0, 5⟩]⟩,
   ⟨0x0301, 14, 7, false, .one 1 7,
     [⟨1, 0, 8, 1, 32⟩, ⟨1, 16, 16, 100, 30000⟩, ⟨2, 0, 32, 1000, 10000000⟩, ⟨3, 0, 32, 1000, 100000000⟩,
      ⟨4, 0, 32, 1000, 100000000⟩, ⟨5, 0, 32, 100, 1000000⟩, ⟨6, 0, 16, 100, 60000⟩, ⟨6, 16, 16, 100, 65535⟩,
      ⟨7, 0, 16, 50, 2000⟩, ⟨7, 16, 16, 10, 300⟩, ⟨8, 0, 16, 10, 300⟩, ⟨8, 16, 8, 10, 200⟩, anyF 9 0 32,
      anyF 10 0 32, ⟨11, 0, 16, 20, 2000⟩, ⟨11, 16, 8, 50, 95⟩]⟩,
   ⟨0x0302, 9, 7, false, .perCh 2 2,
     [anyF 1 0 1, ⟨1, 8, 8, 0, 200⟩, anyF 1 16 1, ⟨2, 0, 32, 0, 0xFFFFFF⟩, ⟨3, 0, 32, 0, 0x10000⟩,
      ⟨4, 0, 32, 0, 0xFFFFFF⟩, ⟨5, 0, 32, 0, 0x10000⟩, ⟨6, 0, 32, 0, 0xFFFFFF⟩, ⟨7, 0, 32, 0, 0x10000⟩]⟩,
   ⟨0x0303, 8, 7, false, .perCh 0 4,
     [anyF 1 0 2, ⟨1, 8, 5, 1, 20⟩, ⟨1, 16, 10, 0, 250⟩, ⟨2, 0, 16, 100, 50000⟩, ⟨2, 16, 8, 5, 50⟩,
      ⟨3, 0, 16, 100, 5000⟩, anyF 4 0 32, anyF 5 0 32]⟩,
   ⟨0x0304, 8, 7, false, .one 1 7,
     [⟨1, 0, 16, 300, 700⟩, ⟨1, 16, 16, 350, 760⟩, ⟨2, 0, 16, 250, 680⟩, ⟨2, 16, 16, 240, 675⟩,
      ⟨3, 0, 16, 10, 10000⟩, ⟨3, 16, 16, 10, 10000⟩, ⟨4, 0, 8, 10, 200⟩, ⟨4, 8, 4, 1, 8⟩, ⟨4, 16, 8, 0, 100⟩,
      anyF 5 0 16, ⟨5, 16, 16, 100, 400⟩, anyF 6 0 16]⟩,
   ⟨0x0305, 6, 7, false, .one 1 7,
     [⟨1, 0, 9, 10, 400⟩, ⟨1, 16, 9, 10, 400⟩, ⟨2, 0, 7, 4, 64⟩, ⟨2, 8, 7, 4, 64⟩, ⟨2, 16, 7, 4, 64⟩,
      ⟨2, 24, 7, 4, 64⟩, ⟨3, 0, 8, 8, 64⟩, ⟨3, 8, 8, 8, 64⟩, ⟨3, 16, 8, 8, 64⟩, ⟨3, 24, 8, 8, 64⟩,
      ⟨4, 0, 10, 500, 1000⟩, ⟨4, 16, 2, 0, 2⟩, ⟨4, 24, 8, 13, 255⟩]⟩]

/-- SENSORS (R189, R306, R308). -/
def kinds4 : List RKind :=
  [⟨0x0400, 9, 7, false, .perCh 0 6,
     [⟨1, 0, 3, 0, 5⟩, ⟨1, 4, 2, 0, 2⟩, anyF 1 6 1, anyF 1 7 1, anyF 1 8 1, ⟨1, 10, 2, 0, 2⟩, ⟨1, 16, 16, 8, 8000⟩,
      anyF 2 0 16, anyF 2 16 8, ⟨2, 24, 4, 1, 8⟩, ⟨3, 0, 16, 50, 2000⟩, ⟨3, 16, 16, 5, 1000⟩, ⟨4, 0, 8, 1, 255⟩,
      ⟨4, 8, 8, 1, 255⟩, ⟨4, 16, 16, 10, 10000⟩, ⟨5, 0, 32, 0, 0xFFFFFF⟩, anyF 6 0 1, ⟨6, 1, 2, 0, 2⟩,
      ⟨6, 8, 8, 1, 255⟩]⟩,
   ⟨0x0401, 5, 7, false, .perCh 0 3,
     [⟨1, 0, 2, 0, 2⟩, anyF 1 2 1, ⟨1, 4, 3, 1, 6⟩, anyF 1 7 1, anyF 1 8 1, ⟨1, 9, 2, 0, 2⟩, anyF 1 11 1,
      ⟨1, 12, 3, 1, 6⟩, ⟨1, 16, 16, 30, 900⟩, ⟨2, 0, 16, 1, 1000⟩, ⟨2, 16, 8, 1, 255⟩, ⟨2, 24, 8, 1, 255⟩]⟩,
   ⟨0x0402, 6, 7, false, .one 1 7,
     [⟨1, 0, 16, 100, 10000⟩, ⟨1, 16, 16, 100, 10000⟩, ⟨2, 0, 16, 100, 20000⟩, ⟨2, 16, 16, 1, 1024⟩,
      ⟨3, 0, 16, 10, 500⟩, ⟨3, 16, 8, 1, 64⟩]⟩]

/-- TETHER, ISOBUS (R344 to R346, R356, R358, R385, R391, R392). -/
def kinds56 : List RKind :=
  [⟨0x0500, 6, 7, true, .one 1 7,
     [⟨1, 0, 14, 250, 10000⟩, anyF 1 16 1, anyF 1 17 1, anyF 1 18 1, ⟨1, 24, 6, 1, 63⟩, ⟨2, 0, 16, 0x600, 0xFFFF⟩,
      ⟨2, 16, 9, 1, 256⟩, ⟨3, 0, 7, 4, 64⟩, ⟨3, 8, 8, 1, 255⟩, ⟨3, 16, 8, 1, 255⟩, ⟨4, 0, 16, 1, 1000⟩,
      ⟨4, 16, 16, 10, 10000⟩]⟩,
   ⟨0x0501, 5, 7, false, .perCh 0 127,
     [⟨1, 0, 7, 1, 127⟩, anyF 1 8 1, anyF 1 9 1, anyF 1 10 1, ⟨1, 11, 2, 0, 1⟩, anyF 1 13 1, ⟨1, 16, 11, 0, 1024⟩,
      anyF 2 0 32, ⟨3, 0, 8, 1, 255⟩, ⟨3, 8, 6, 0, 62⟩]⟩,
   ⟨0x0502, 0, 7, false, .perCh 1 256, [anyF 1 0 8, ⟨1, 8, 8, 0, 127⟩]⟩,
   ⟨0x0503, 4, 7, false, .perCh 0 16, [anyF 1 0 4, anyF 1 8 18, ⟨2, 0, 11, 0, 1024⟩]⟩,
   ⟨0x0504, 4, 7, true, .perCh 0 8, [anyF 1 0 3, ⟨1, 4, 2, 0, 2⟩, anyF 1 8 21, anyF 2 0 8, anyF 2 8 1]⟩,
   ⟨0x0505, 3, 7, false, .one 0 7, [⟨1, 0, 6, 1, 62⟩]⟩,
   ⟨0x0600, 5, 0, false, .total 2 2, [anyF 0 0 1, ⟨0, 8, 8, 0, 247⟩, anyF 1 0 32, anyF 2 0 32]⟩,
   ⟨0x0601, 4, 0, false, .total 1 1,
     [⟨0, 0, 11, 9, 1785⟩, anyF 0 16 8, ⟨1, 0, 16, 50, 1000⟩, ⟨1, 16, 16, 50, 1000⟩]⟩]

/-- FAULTMAP, TASKS, LIMITS (R411, R422, R52, R124, R125, R81, R88, R150). -/
def kinds789 : List RKind :=
  [⟨0x0700, 4, 7, false, .perCh 0 64,
     [anyF 1 0 6, anyF 1 8 5, anyF 1 16 5, ⟨1, 24, 4, 1, 15⟩, ⟨2, 0, 32, 1, 600000⟩]⟩,
   ⟨0x0701, 3, 15, false, .one 1 15, [⟨1, 0, 7, 1, 100⟩]⟩,
   ⟨0x0800, 5, 0, false, .total 1 192,
     [⟨0, 0, 8, 1, 255⟩, ⟨0, 8, 2, 1, 3⟩, ⟨0, 10, 2, 1, 3⟩, anyF 0 12 1, ⟨0, 13, 3, 0, 2⟩, anyF 0 16 8,
      ⟨1, 0, 32, 100, 1000000⟩, ⟨2, 16, 16, 0, 16384⟩, ⟨3, 0, 20, 1, 1000000⟩]⟩,
   ⟨0x0801, 3, 0, false, .total 0 64,
     [⟨0, 0, 8, 1, 255⟩, ⟨0, 10, 2, 1, 3⟩, ⟨0, 13, 3, 0, 2⟩, anyF 0 16 8, ⟨1, 0, 32, 4, 65536⟩]⟩,
   ⟨0x0802, 2, 0, false, .total 0 32, [⟨0, 0, 8, 1, 255⟩, anyF 0 8 2]⟩,
   ⟨0x0900, 5, 0, false, .total 7 7,
     [⟨0, 0, 3, 1, 7⟩, ⟨1, 0, 16, 0, 600⟩, ⟨1, 16, 16, 0, 1000⟩, anyF 2 0 16, ⟨3, 0, 12, 0, 500⟩, anyF 3 12 1,
      ⟨3, 16, 16, 0, 2000⟩]⟩,
   ⟨0x0901, 5, 0, false, .total 1 1,
     [⟨0, 0, 16, 10, 300⟩, ⟨0, 16, 16, 5, 120⟩, ⟨1, 0, 32, 10, 60000⟩, ⟨2, 0, 8, 1, 255⟩, ⟨2, 16, 8, 1, 168⟩,
      ⟨3, 0, 32, 100, 10000⟩]⟩,
   ⟨0x0902, 3, 0, false, .total 0 8, [⟨0, 0, 8, 1, 5⟩, anyF 1 0 32]⟩]

/-- SAFETYIN, IMAGES, KEYS, POWER, DEBUG (R329, R53, R54, R538, R504, R506, R512). -/
def kindsAE : List RKind :=
  [⟨0x0A00, 5, 7, false, .perCh 0 6,
     [⟨1, 0, 3, 0, 5⟩, ⟨1, 4, 2, 0, 2⟩, anyF 1 8 2, anyF 1 12 1, ⟨1, 16, 16, 10, 500⟩, ⟨2, 0, 16, 5, 200⟩,
      ⟨2, 16, 8, 20, 100⟩, ⟨3, 0, 16, 10, 1000⟩]⟩,
   ⟨0x0B00, 13, 15, false, .total 1 16,
     [anyF 1 0 8, anyF 1 8 8, anyF 2 0 32, anyF 3 0 32, anyF 4 0 32, anyF 5 0 32, anyF 6 0 32, anyF 7 0 32,
      anyF 8 0 32, anyF 9 0 32, anyF 10 0 32, anyF 11 0 32]⟩,
   ⟨0x0B01, 0, 0, false, .total 1 1048576, []⟩,
   ⟨0x0C00, 10, 0, false, .total 1 4,
     anyF 0 0 2 :: [1, 2, 3, 4, 5, 6, 7, 8].map fun w => anyF w 0 32⟩,
   ⟨0x0C01, 10, 0, false, .total 0 2,
     anyF 0 0 1 :: [1, 2, 3, 4, 5, 6, 7, 8].map fun w => anyF w 0 32⟩,
   ⟨0x0D00, 5, 0, false, .total 1 1,
     [⟨0, 0, 16, 10, 1000⟩, ⟨0, 16, 3, 2, 5⟩, anyF 0 24 1, ⟨1, 0, 16, 0, 30000⟩, ⟨1, 16, 16, 1, 600⟩,
      ⟨2, 0, 16, 1, 65535⟩, ⟨2, 16, 16, 1, 65535⟩, ⟨3, 0, 16, 1, 65535⟩]⟩,
   ⟨0x0D01, 4, 15, false, .total 0 16, [⟨1, 0, 4, 1, 6⟩, ⟨1, 4, 3, 2, 5⟩, anyF 1 16 16, anyF 2 0 18]⟩,
   ⟨0x0E00, 2, 0, false, .total 0 1, [anyF 0 0 4, anyF 0 8 4, anyF 0 16 1]⟩]

/-- The catalogue. -/
def catalogue : List RKind := kinds12 ++ kinds3 ++ kinds4 ++ kinds56 ++ kinds789 ++ kindsAE

/-- The kind of a TYPE. -/
def kindOf (type : Nat) : Option RKind := catalogue.find? fun k => k.type == type

/-! Stage 5: the body (R41 to R48). -/

/-- A record's scope (R48). -/
def FolRec.scope (r : FolRec) : Nat := r.w 0 % 16

/-- A kind's scope word is valid for the record (R48, R53, R504). -/
def scopeOk (k : RKind) (r : FolRec) : Bool :=
  let s := r.scope
  if k.mask = 0 then true
  else if s = 0 ∨ s &&& (15 - k.mask) ≠ 0 then false
  else if k.single ∧ s ≠ 1 ∧ s ≠ 2 ∧ s ≠ 4 ∧ s ≠ 8 then false
  else if k.type = 0x0B00 then (if bitsOf (r.w 1) 0 8 = 0x10 then s == 8 else !s.testBit 3)
  else if k.type = 0x0D01 then
    match bitsOf (r.w 1) 0 4 with
    | 1 => !s.testBit 3
    | 2 => s == 1
    | 3 => s == 1
    | 4 => !s.testBit 3
    | 5 => s == 8
    | 6 => s == 8
    | _ => true
  else true

/-- LEN fits the kind (R538): fixed, or by the content of the three kinds that vary. -/
def lenOk (k : RKind) (len : Nat) (r : FolRec) : Bool :=
  if k.len ≠ 0 then len == k.len
  else if k.type = 0x0502 then decide (3 ≤ len) && len == 3 + 2 * bitsOf (r.w 1) 8 8
  else decide (2 ≤ len)

/-- Records of a kind that apply to a region. -/
def countIn (l : List FolRec) (type region : Nat) : Nat :=
  (l.filter fun r => r.type == type && r.scope.testBit region).length

/-- More records of a kind than its Count allows (R50); a second record of a kind that allows one per channel is a
duplicate (R48), found in stage 6. -/
def tooMany (l : List FolRec) (k : RKind) : Bool :=
  match k.count with
  | .total _ hi => decide (hi < (recsOf l k.type).length)
  | .perCh _ hi => (List.range 3).any fun c => decide (hi < countIn l k.type c)
  | .one _ _ => false

/-- Fewer records of a kind than its Count asks for. -/
def tooFew (l : List FolRec) (k : RKind) : Bool :=
  match k.count with
  | .total lo _ => decide ((recsOf l k.type).length < lo)
  | .perCh lo _ => (List.range 3).any fun c => decide (countIn l k.type c < lo)
  | .one lo regions => (List.range 4).any fun c => regions.testBit c && decide (countIn l k.type c < lo)

/-- What the parser has found: records in reverse order, ignorable records, the first structural error. -/
structure Parse where
  recs : List FolRec := []
  ign : Nat := 0
  err : Option FErr := none
  deriving DecidableEq, Repr

/-- Why a record header or its body is rejected in stage 5 (R46 to R50, R59); `room` words are left in the quire.
DEDUCED, unsafe: log entry 19. -/
def recErr (recs : List FolRec) (qtype room : Nat) (hdr : Word) (r : FolRec) : Option Nat :=
  let len := hdr.toNat / 65536
  if len = 0xFFFF then some 0x30
  else if len = 0 then some 0x31
  else if room < len then some 0x32
  else if r.type / 256 ≠ qtype ∨ r.type % 256 = 0xFF then some 0x33
  else if qtype = 0x7F ∨ 0x80 ≤ r.type % 256 then none
  else match kindOf r.type with
    | none => some 0x34
    | some k =>
      if !lenOk k len r || !scopeOk k r then some 0x35
      else if tooMany (r :: recs) k then some 0x36 else none

/-- The records of a quire; `fuel` words are left at byte `ofs`, as the record of index `i`. An error stands at the
record's header, one of the scope at its scope word.
DEDUCED, unsafe: log entry 19. -/
def parseRecs (qtype : Nat) : Nat → List Word → Nat → Nat → Parse → Parse
  | 0, _, _, _, p => p
  | fuel + 1, ws, ofs, i, p =>
    match ws with
    | [] => p
    | hdr :: rest =>
      let len := hdr.toNat / 65536
      let r : FolRec := { type := hdr.toNat % 65536, index := i, offset := ofs, body := rest.take (len - 1) }
      match recErr p.recs qtype (rest.length + 1) hdr r with
      | some code =>
        let word := if code = 0x35 ∧ ((kindOf r.type).any fun k => lenOk k len r) = true then 4 else 0
        { p with err := some { code := code, qtype := qtype, index := i, offset := ofs + word } }
      | none =>
        let p := if 0x80 ≤ r.type % 256 then { p with ign := p.ign + 1 }
          else if qtype = 0x7F then p else { p with recs := r :: p.recs }
        parseRecs qtype fuel (rest.drop (len - 1)) (ofs + 4 * len) (i + 1) p

/-- Quire type of an index entry (R41). -/
def qtypeOf (k : Nat) : Nat := if k = 15 then 0x7F else k

/-- One quire from `start`, which may fill up to `stop` (R43, R44); answers the parse and the quire's end. -/
def parseQuire (body : List Byte) (k start stop : Nat) (p : Parse) : Parse × Nat :=
  let t := qtypeOf k
  let e (code ofs : Nat) : Parse × Nat := ({ p with err := some { code := code, qtype := t, offset := ofs } }, stop)
  let len := leAt body (start + 4) 4
  if leAt body start 1 ≠ t then e 0x22 start
  else if leAt body (start + 1) 1 ≠ 1 then e 0x23 (start + 1)
  else if leAt body (start + 2) 2 ≠ 0 then e 0x23 (start + 2)
  else if len % 4 ≠ 0 ∨ stop < start + 8 + len then e 0x22 (start + 4)
  else
    let ign := p.ign
    let p := parseRecs t (len / 4) (leWords (slice body (start + 8) len)) (start + 8) 0 p
    let few := (catalogue.filter fun q => q.type / 256 == t).any (tooFew p.recs)
    let n := (p.recs.filter fun r => r.type / 256 == t).length + (p.ign - ign)
    if p.err.isNone && few then
      ({ p with err := some { code := 0x36, qtype := t, index := n, offset := start + 8 + len } }, stop)
    else (p, start + 8 + len)

/-- The quires in the order of the index, with the fill bytes between them; `done` is the end of the previous one. -/
def parseQuires (body : List Byte) (ofs : Nat) : List (Nat × Nat) → Nat → Parse → Parse
  | [], done, p =>
    match nonZeroAt body done ofs with
    | some o => { p with err := some { code := 0x23, offset := o } }
    | none => p
  | (k, start) :: rest, done, p =>
    match nonZeroAt body done start with
    | some o => { p with err := some { code := 0x23, offset := o } }
    | none =>
      let stop := match rest with
        | [] => ofs
        | q :: _ => q.2
      let (p, e) := parseQuire body k start stop p
      if p.err.isSome then p else parseQuires body ofs rest e p

/-- The quire index (R41, R43, R45): entries `k` to 15, the previous start. An entry whose 8-byte quire header does not fit
before COLOPHON_OFS gets 0x20 at the entry, where 0x22 at the quire would fit too.
DESIGN CHOICE, unsafe: log entry 82. -/
def indexErr (sp : List Byte) : Nat → Nat → Nat → Option FErr
  | 0, _, _ => none
  | n + 1, k, prev =>
    let v := spIndex sp k
    let o := 0x10 + 2 * k
    if k = 0 then (if v ≠ 0 then some { code := 0x20, offset := o } else indexErr sp n 1 prev)
    else if v = 0 then (if k ≤ 13 then some { code := 0x21, offset := o } else indexErr sp n (k + 1) prev)
    else if v ≤ prev ∨ spOfs sp < 256 * v + 8 then some { code := 0x20, offset := o }
    else indexErr sp n (k + 1) v

/-- The quires that the index names, with their start offsets. -/
def quires (sp : List Byte) : List (Nat × Nat) :=
  ((List.range 16).filter fun k => k != 0 && spIndex sp k != 0).map fun k => (k, 256 * spIndex sp k)

/-- Stage 5 (R56, R57): the body's structure, with a hash that does not match taking precedence.
DEDUCED, unsafe: log entry 19. -/
def stage5 (sp co body : List Byte) : Parse :=
  let p : Parse := match indexErr sp 16 0 0 with
    | some e => { err := some e }
    | none => parseQuires body (spOfs sp) (quires sp) 0x40 {}
  if BitVec.ofNat 256 (leNat (sha256 body)) ≠ coHash co then
    { p with err := some { code := 0x12, offset := spOfs sp + 0x1C } }
  else { p with recs := p.recs.reverse }

end Sys2Proof.Machine
end

