-- ==== Sys2Proof/Machine/FolioContent.lean ====
section
/-! DEFINITION. Stage 6 of validation (R56 of 02_folio.md): ranges and reserved fields, cross-references, duplicates and
images, by the rules of the chapters that own the records. The passes run in that order, each in Folio order. -/

namespace Sys2Proof.Machine

/-- A field's value in a record. -/
def RFld.val (f : RFld) (r : FolRec) : Nat := bitsOf (r.w f.word) f.lsb f.width

/-- The first record of a type that applies to a channel. -/
def firstFor (l : List FolRec) (type : Nat) (me : Chan) : Option FolRec := (recsFor l type me).head?

/-- Word `n` of it, 0 without one. -/
def wordFor (l : List FolRec) (type : Nat) (me : Chan) (n : Nat) : Nat := ((firstFor l type me).map fun r => r.w n).getD 0

/-- Channels of a record's scope. -/
def FolRec.chans (r : FolRec) : List Chan := [Chan.A, Chan.B, Chan.C].filter fun c => r.scope.testBit c.idx

/-- The smallest figure over the channels of a scope. -/
def minOver (f : Chan → Nat) (cs : List Chan) : Nat := cs.foldl (fun m c => min m (f c)) (2 ^ 32)

/-- I_FS of bridge S or P of a channel, in 0.1 A (R189). -/
def ifsOf (l : List FolRec) (b : Bridge) (me : Chan) : Nat :=
  match b with
  | .S => bitsOf (wordFor l 0x0402 me 1) 0 16
  | .P => bitsOf (wordFor l 0x0402 me 1) 16 16

/-- LD, LQ or PSI saturates its Q1.31 format (R180): nH or µWb with I_FS in 0.1 A. -/
def satL (nh ifs : Nat) : Bool := decide (2 ^ 31 - 1 < rdiv (nh * ifs * 2 ^ 31 : Int) 1000000000000)

/-- CYCLEN and NROWS of a channel's ring (R344). -/
def cyclen (l : List FolRec) (me : Chan) : Nat := bitsOf (wordFor l 0x0500 me 1) 0 14
def nrows (l : List FolRec) (me : Chan) : Nat := bitsOf (wordFor l 0x0500 me 2) 16 9

/-- Entries of a SCHEDULE_ROW record (R346): words a and b. -/
def rowEntries (r : FolRec) : List (Nat × Nat) :=
  (List.range (bitsOf (r.w 1) 8 8)).map fun i => (r.w (2 + 2 * i), r.w (3 + 2 * i))

/-- MODE_LIMITS against R81 and R82: the word at fault.
DEDUCED, unsafe: log entry 18. -/
def limitsBad (r : FolRec) : Option Nat :=
  let m := bitsOf (r.w 0) 0 3
  let tq := bitsOf (r.w 1) 16 16
  let sp := bitsOf (r.w 2) 0 16
  let decel := bitsOf (r.w 3) 0 12
  let rise := bitsOf (r.w 3) 16 16
  if (m = 2 ∨ m = 3) ∧ 666 < tq then some 1
  else if (m = 1 ∨ m = 4 ∨ m = 5) ∧ 333 < tq then some 1
  else if m = 7 ∧ tq ≠ 0 then some 1
  else if m = 1 ∧ 100 < bitsOf (r.w 1) 0 16 then some 1
  else if 6000 < sp ∧ sp ≠ 0xFFFF then some 2
  else if m = 5 ∧ sp ≠ 0 then some 2
  else if m ≠ 5 ∧ r.w 3 ≠ 0 then some 3
  else if m = 5 ∧ (decel < 50 ∨ rise < 100) then some 3
  else none

/-- PROOF_CONDITIONS: ARG by KIND (R150). -/
def proofArgMax (kind : Nat) : Nat :=
  match kind with
  | 2 => 6000
  | 3 => 600
  | 4 => 5
  | 5 => 1000
  | _ => 0

/-- WAKE_SOURCE: RUNG and ARG by KIND (R505). -/
def wakeBad (r : FolRec) : Bool :=
  let kind := bitsOf (r.w 1) 0 4
  let rung := bitsOf (r.w 1) 4 3
  let arg := bitsOf (r.w 1) 16 16
  ((kind == 2 || kind == 4) && decide (2 < rung)) ||
    (if kind = 3 then arg == 0 || decide (100 < arg)
     else if kind = 5 then arg == 0 || decide (10080 < arg) else arg != 0)

/-- A ball word's FUNC and ATTR (R534). -/
def ballBad (w : Nat) : Bool :=
  let attr := bitsOf w 24 8
  let col := bitsOf w 8 8
  let row := bitsOf w 0 8
  let sent := (row == 7 || row == 19 || row == 31) && decide (1 ≤ col) && decide (col ≤ 3)
  decide (1 < bitsOf w 16 8) || decide (1 < attr % 4) || decide (2 < attr / 4 % 4) || (sent && attr % 4 != 0)

/-- Words 1 to `n` of a record. -/
def wordsFrom (r : FolRec) (k : Nat) : List (Nat × Nat) :=
  (List.range (r.body.length - k)).map fun i => (k + i, r.w (k + i))

/-- A rated speed that no Q16.16 of electrical rad/s holds (R180). -/
def satRated (rpm poles : Nat) : Bool := decide ((2 ^ 31 - 1 : Int) < ratedOmega rpm poles)

/-- KREL of R246, (LD − LQ) × IFS_S ÷ PSI, that no Q16.16 holds (R180). -/
def satKrel (ld lq psi ifs : Nat) : Bool :=
  let k := rdiv (((ld : Int) - lq) * ifs * 65536) (10000 * psi)
  sat32 k != k

/-- Range rules that no single interval states: the word at fault (R7 and the rules of the records). -/
def extraRange (l : List FolRec) (r : FolRec) : Option Nat :=
  let w (p : Bool) (n : Nat) : Option Nat := if p then some n else none
  match r.type with
  | 0x0100 => ((wordsFrom r 1).find? fun p => ballBad p.2).map Prod.fst
  | 0x0200 => w (bitsOf (r.w 1) 12 2 == 2 || bitsOf (r.w 1) 28 2 == 2) 1
  | 0x0300 =>
    let ifs := ifsOf l .S .A
    let imax := bitsOf (r.w 5) 0 16
    if satL (r.w 2) ifs then some 2 else if satL (r.w 3) ifs then some 3
    else if satKrel (r.w 2) (r.w 3) (r.w 4) ifs then some 4
    else if 10 * ifs < imax ∨ imax < bitsOf (r.w 5) 16 16 then some 5
    else if bitsOf (r.w 6) 16 10 < bitsOf (r.w 6) 0 10 then some 6
    else w (satRated (bitsOf (r.w 7) 0 16) (bitsOf (r.w 0) 0 8)) 7
  | 0x0301 =>
    if satRated (bitsOf (r.w 1) 16 16) (bitsOf (r.w 1) 0 8) then some 1
    else
    let ifs := minOver (ifsOf l .P) r.chans
    let imax := bitsOf (r.w 6) 0 16
    if r.chans.any (fun c => satL (r.w 3) (ifsOf l .P c)) then some 3
    else if r.chans.any (fun c => satL (r.w 4) (ifsOf l .P c)) then some 4
    else w (decide (10 * ifs < imax) || decide (imax < bitsOf (r.w 6) 16 16)) 6
  | 0x0304 =>
    let ov1 := bitsOf (r.w 1) 0 16
    let ov2 := bitsOf (r.w 1) 16 16
    let chon := bitsOf (r.w 2) 0 16
    let lossv := bitsOf (r.w 5) 0 16
    if ov2 < ov1 + 20 then some 1
    else if ov1 < chon + 20 ∨ chon ≤ bitsOf (r.w 2) 16 16 then some 2
    else w (decide (lossv < chon) || decide (ov1 < lossv)) 5
  | 0x0400 =>
    let lines := bitsOf (r.w 2) 0 16
    if lines ≠ 0 ∧ lines < 16 then some 2 else w (r.w 5 != 0 && decide (r.w 5 < 256)) 5
  | 0x0401 => w (decide (bitsOf (r.w 1) 4 3 < bitsOf (r.w 1) 12 3)) 1
  | 0x0500 => w (bitsOf (r.w 2) 0 16 == 0x8100 || bitsOf (r.w 2) 0 16 == 0x88A8) 2
  | 0x0502 =>
    if r.chans.any (fun c => decide (nrows l c ≤ bitsOf (r.w 1) 0 8)) then some 1
    else
      let cyc := minOver (cyclen l) r.chans
      ((List.range (bitsOf (r.w 1) 8 8)).find? fun i =>
        let o := bitsOf (r.w (2 + 2 * i)) 8 18
        decide (o < 300) || decide (cyc * 25 ≤ o)).map fun i => 2 + 2 * i
  | 0x0504 =>
    if r.chans.any (fun c => decide (cyclen l c * 125 ≤ bitsOf (r.w 1) 8 21)) then some 1
    else w ((r.w 2).testBit 8 == false && r.chans.any fun c => decide (nrows l c ≤ bitsOf (r.w 2) 0 8)) 2
  | 0x0800 =>
    let k := bitsOf (r.w 0) 13 3
    let a := bitsOf (r.w 0) 16 8
    if (k = 1 ∧ (a = 0 ∨ 3 < a)) ∨ (k = 0 ∧ a ≠ 0) then some 0
    else if bitsOf (r.w 2) 16 16 % 4 ≠ 0 then some 2 else w (decide (r.w 1 < bitsOf (r.w 3) 0 20)) 3
  | 0x0801 =>
    let k := bitsOf (r.w 0) 13 3
    let a := bitsOf (r.w 0) 16 8
    if (k = 1 ∧ (a = 0 ∨ 3 < a)) ∨ (k = 0 ∧ a ≠ 0) then some 0 else w (r.w 1 % 4 != 0) 1
  | 0x0900 => limitsBad r
  | 0x0902 => w (decide (proofArgMax (bitsOf (r.w 0) 0 8) < r.w 1)) 1
  | 0x0B00 => w (!([1, 2, 3, 4, 5, 6, 0x10].contains (bitsOf (r.w 1) 0 8))) 1
  | 0x0D01 => w (wakeBad r) 1
  | _ => none

/-- The bits of a word that the fields of a kind cover. -/
def fieldBits (k : RKind) (word : Nat) : Nat :=
  k.flds.foldl (fun m f => if f.word = word then m ||| ((2 ^ f.width - 1) * 2 ^ f.lsb) else m)
    (if word = 0 ∧ k.mask ≠ 0 then 15 else 0)

/-- Bits of a word that are not reserved: those of the fixed kinds' fields, of a ball word (R534), of a schedule entry
(R346); an IMAGE_CHUNK has none that are. -/
def usedBits (k : RKind) (word : Nat) : Nat :=
  if k.type = 0x0B01 then 0xFFFFFFFF
  else if k.type = 0x0100 ∧ word ≠ 0 then 0x0FFFFFFF
  else if k.type = 0x0502 ∧ 2 ≤ word then (if word % 2 = 0 then 0x03FFFFFF else 0x0003FFFF)
  else fieldBits k word

/-- Ranges, then reserved fields, of one record (R56, R59): the code and the word.
DEDUCED, unsafe: log entry 19. -/
def fieldErr (l : List FolRec) (r : FolRec) : Option (Nat × Nat) :=
  match kindOf r.type with
  | none => none
  | some k =>
    match k.flds.find? fun f => f.val r < f.lo || f.hi < f.val r with
    | some f => some (0x40, f.word)
    | none =>
      match extraRange l r with
      | some n => some (0x40, n)
      | none => ((wordsFrom r 0).find? fun p => p.2 &&& (0xFFFFFFFF - usedBits k p.1) != 0).map fun p => (0x41, p.1)

/-! Cross-references (0x42). -/

/-- A resource is declared. -/
def hasRes (l : List FolRec) (id : Nat) : Bool := (resourcesOf l).any fun r => r.1 == id

/-- A pin of a task or home (R52, R125, R126). -/
def pinBad (l : List FolRec) (r : FolRec) : Bool :=
  let k := bitsOf (r.w 0) 13 3
  (k == 2 && !hasRes l (bitsOf (r.w 0) 16 8)) || (k != 0 && bitsOf (r.w 0) 10 2 != 1)

/-- An earlier record of the same type differs in a word under a mask. -/
def differs (l : List FolRec) (r : FolRec) (word mask : Nat) : Bool :=
  (recsOf l r.type).any fun q => q.offset < r.offset && (q.w word &&& mask) != (r.w word &&& mask)

/-- A ball of a channel is on (R534): FUNC 1 in its word. Row and column as for channel A. -/
def ballOn (l : List FolRec) (me : Chan) (row col : Nat) : Bool :=
  (recsFor l 0x0100 me).any fun r => (wordsFrom r 1).any fun p =>
    bitsOf p.2 0 8 == row + 12 * me.idx && bitsOf p.2 8 8 == col && bitsOf p.2 16 8 == 1

/-- A configurable ball of a channel (R531, R534). -/
def ballOf (me : Chan) (w : Nat) : Bool :=
  let row := bitsOf w 0 8
  let col := bitsOf w 8 8
  (row == 6 + 12 * me.idx && decide (1 ≤ col) && decide (col ≤ 30)) ||
    (row == 7 + 12 * me.idx && decide (1 ≤ col) && decide (col ≤ 3))

/-- Balls that an ENC_UNIT record uses on a channel (R535). -/
def encBallBad (l : List FolRec) (r : FolRec) (me : Chan) : Bool :=
  let u := bitsOf (r.w 1) 0 3
  let pass := bitsOf (r.w 1) 10 2
  let idx := (r.w 1).testBit 6
  let at_ (base : Nat) : Bool :=
    ballOn l me 6 base && ballOn l me 6 (base + 1) && (!idx || ballOn l me 6 (base + 2))
  !at_ (3 * u + 1) || (pass != 0 && !at_ (25 + 3 * (pass - 1))) || (r.w 5 != 0 && !ballOn l me 6 (19 + u))

/-- Bridge S of a channel is owned (R176). -/
def ownsS (l : List FolRec) (me : Chan) : Bool := bitsOf (wordFor l 0x0200 me 1) 12 2 != 3

/-- The steering encoder's record on a channel (R307).
DEDUCED, unsafe: log entry 19. -/
def encuBad (l : List FolRec) (r : FolRec) (me : Chan) : Bool :=
  ownsS l me && !((recsFor l 0x0400 me).any fun q =>
    bitsOf (q.w 1) 0 3 == bitsOf (r.w 11) 16 3 && bitsOf (q.w 1) 4 2 == 0 && (q.w 1).testBit 6
      && bitsOf (q.w 2) 0 16 == bitsOf (r.w 0) 16 16)

/-- A SOURCE_REACTION record (R273, R305, R362, R412). -/
def reactionBad (r : FolRec) : Bool :=
  let src := bitsOf (r.w 1) 0 6
  let re := bitsOf (r.w 1) 8 5
  let se := bitsOf (r.w 1) 16 5
  let n := bitsOf (r.w 1) 24 4
  let brst := re.testBit 2 || se.testBit 2
  (brst && !(src == 11 || resettable (blockOf src))) || (src == 55 && brst)
    || (decide (35 ≤ src) && decide (src ≤ 41) && !(re.testBit 2 && se.testBit 2))
    || ((src == 44 || src == 45 || src == 50) && n != 1)
    || ((src == 0 || src == 1 || src == 5) && !(re.testBit 3 && se.testBit 3))

/-! Schedules (R347 of 12_tether_network.md). Times in 40 ns. -/

/-- Time on the link of a frame with `len` octets of payload (R340): (58 + max(len, 26)) × 80 ns. -/
def frameTime (len : Nat) : Nat := 2 * (58 + max len 26)

/-- The STREAM record of an id on a channel. -/
def streamOf (l : List FolRec) (me : Chan) (id : Nat) : Option FolRec :=
  (recsFor l 0x0501 me).find? fun r => bitsOf (r.w 1) 0 7 == id

/-- WIN of a channel's ring, and whether it is a ring. -/
def winOf (l : List FolRec) (me : Chan) : Nat := bitsOf (wordFor l 0x0500 me 3) 0 7
def isRing (l : List FolRec) (me : Chan) : Bool := (wordFor l 0x0500 me 1).testBit 16

/-- Transmit slots of a row on a channel: port (2: both), start, frame time. -/
def txSlots (l : List FolRec) (me : Chan) (r : FolRec) : List (Nat × Nat × Nat) :=
  (rowEntries r).flatMap fun e =>
    match streamOf l me (bitsOf e.1 0 7) with
    | none => []
    | some q =>
      if (q.w 1).testBit 8 then
        let d := frameTime (bitsOf (q.w 1) 16 11)
        let p := if !isRing l me then 2 else if (q.w 1).testBit 10 then 1 else 0
        (p, bitsOf e.1 8 18, d) :: (if bitsOf e.2 0 18 = 0x3FFFF then [] else [(1 - p, bitsOf e.2 0 18, d)])
      else []

/-- Two slots share a port and overlap, each widened by WIN on both sides. -/
def slotsClash (win : Nat) (x y : Nat × Nat × Nat) : Bool :=
  (x.1 == y.1 || x.1 == 2 || y.1 == 2) && decide (x.2.1 < y.2.1 + y.2.2 + 2 * win) &&
    decide (y.2.1 < x.2.1 + x.2.2 + 2 * win)

/-- Some two of a list clash. -/
def anyClash (win : Nat) : List (Nat × Nat × Nat) → Bool
  | [] => false
  | x :: xs => xs.any (slotsClash win x) || anyClash win xs

/-- A slot that does not end, with WIN, before the end of the cycle (R347). -/
def lateSlot (l : List FolRec) (me : Chan) (ofs len : Nat) : Bool :=
  decide (cyclen l me * 25 ≤ ofs + frameTime len + winOf l me)

/-- A SCHEDULE_ROW record on a channel (R347): the slots of a receive entry are its source's. -/
def rowBad (l : List FolRec) (r : FolRec) (me : Chan) : Bool :=
  let ring := isRing l me
  (rowEntries r).any (fun e =>
    match streamOf l me (bitsOf e.1 0 7) with
    | none => true
    | some q =>
      let none_ := bitsOf e.2 0 18 == 0x3FFFF
      let len := bitsOf (q.w 1) 16 11
      lateSlot l me (bitsOf e.1 8 18) len || (!none_ && lateSlot l me (bitsOf e.2 0 18) len) || (ring && (q.w 1).testBit 8 && (q.w 1).testBit 9 && (none_ || e.1.testBit 7)) || (!ring && !none_))
    || anyClash (winOf l me) (txSlots l me r)

/-- A STREAM record on a channel (R347). -/
def streamBad (l : List FolRec) (r : FolRec) (me : Chan) : Bool :=
  let w := r.w 1
  let tx := w.testBit 8
  let claim := w.testBit 13
  let inRow := (recsFor l 0x0502 me).any fun q => (rowEntries q).any fun e => bitsOf e.1 0 7 == bitsOf w 0 7
  let total := (recsFor l 0x0501 me).foldl (fun s q =>
    if q.offset ≤ r.offset then s + ceilDiv (2 * bitsOf (q.w 1) 16 11) 64 * 64 else s) 0
  (tx && !claim && !inRow) || (!tx && (claim || bitsOf w 11 2 != 0))
    || (bitsOf w 11 2 == 1 && bitsOf w 16 11 != 16) || decide (245760 < total)

/-- A record whose references do not hold (0x42): R51, R52, R126, R176, R189, R192, R217, R247, R251, R283, R305, R307,
R329, R347, R358, R392, R412, R535.
DEDUCED, unsafe: log entry 18. -/
def crossBad (l : List FolRec) (r : FolRec) : Bool :=
  match r.type with
  | 0x0100 => (wordsFrom r 1).any fun p => r.chans.any fun c => !ballOf c p.2
  | 0x0200 =>
    let own (lsb other : Nat) : Bool := bitsOf (r.w 1) lsb 2 != other && bitsOf (r.w 1) lsb 2 != 3
    own 12 0 || own 28 1 || differs l r 1 0x0FFF0FFF
  | 0x0201 =>
    let sol (ch drv : Nat) : Bool :=
      match Chan.ofNum ch with
      | some c => (recsFor l 0x0303 c).any fun q => bitsOf (q.w 1) 0 2 == drv
      | none => false
    bitsOf (r.w 0) 8 2 == bitsOf (r.w 0) 16 2 || !sol (bitsOf (r.w 0) 8 2) (bitsOf (r.w 0) 10 2)
      || !sol (bitsOf (r.w 0) 16 2) (bitsOf (r.w 0) 18 2)
  | 0x0202 => (r.w 0).testBit 0 && (recsOf l 0x0200).any fun q => decide (2857 < bitsOf (q.w 1) 0 12)
  | 0x0300 => [Chan.A, Chan.B, Chan.C].any (encuBad l r)
  | 0x0301 => decide (bitsOf (r.w 7) 16 16 < bitsOf (r.w 8) 0 16)
  | 0x0302 => !(r.w 1).testBit 0 && ((recsOf l 0x0302).any fun q =>
      q.offset < r.offset && !(q.w 1).testBit 0 && q.body.drop 1 != r.body.drop 1)
  | 0x0304 => differs l r 5 0xFFFF || differs l r 4 0xFF0000
  | 0x0305 => differs l r 1 0x1FF || differs l r 2 0x7F || differs l r 3 0xFF
  | 0x0400 => r.chans.any (encBallBad l r)
  | 0x0401 => r.chans.any fun c => !ballOn l c 7 (1 + bitsOf (r.w 1) 0 2)
  | 0x0402 => differs l r 1 0xFFFF
  | 0x0500 => r.chans.any fun c => (r.w 1).testBit 17 != ((firstFor l 0x0505 c).isSome)
  | 0x0501 => r.chans.any (streamBad l r)
  | 0x0502 => r.chans.any (rowBad l r)
  | 0x0503 => r.chans.any fun c => lateSlot l c (bitsOf (r.w 1) 8 18) (max 8 (bitsOf (r.w 2) 0 11))
  | 0x0601 =>
    !((recsOf l 0x0802).any fun q => bitsOf (q.w 0) 0 8 == bitsOf (r.w 0) 16 8 && bitsOf (q.w 0) 8 2 == 0)
  | 0x0700 => reactionBad r
  | 0x0800 => pinBad l r
  | 0x0801 => pinBad l r
  | 0x0A00 =>
    let filt := bitsOf (r.w 2) 0 16
    let others := (recsOf l 0x0A00).filter fun q => q.offset < r.offset
    (others.any fun q => bitsOf (q.w 1) 0 3 == bitsOf (r.w 1) 0 3 && (q.w 1 &&& 0x330) != (r.w 1 &&& 0x330))
      || decide (filt * 10 ≤ bitsOf (r.w 2) 16 8)
      || (bitsOf (r.w 1) 4 2 == 2 && ((r.w 1).testBit 12 || decide (filt < 12)))
      || others.any fun q => q.scope &&& r.scope != 0 &&
          (bitsOf (q.w 2) 16 8 != bitsOf (r.w 2) 16 8 || bitsOf (q.w 3) 0 16 != bitsOf (r.w 3) 0 16)
  | _ => false

/-- The placement check of R131: ids that are not PLACED where they must be, as (is a task, id). -/
def unplaced (l : List FolRec) : List (Bool × Nat) :=
  let run (view : Nat) : Plan := place l view 1 [] (fun _ => 0) (fun _ => 0) []
  let full := run 7
  let crit (id : Nat) : Bool := (tasksOf l).any fun t => t.id == id && t.crit == 3
  ((full.tasks.filter fun t => t.2.2 != 1).map fun t => (true, t.1))
    ++ ((full.homes.filter fun t => t.2.2 != 1).map fun t => (false, t.1))
    ++ [1, 2, 3, 4, 5, 6].flatMap fun v =>
      ((run v).tasks.filter fun t => crit t.1 && t.2.2 != 1 && t.2.2 != 4).map fun t => (true, t.1)

/-! Duplicates (0x43). -/

/-- The number that must not appear twice, within a channel for scoped kinds; `none` for kinds without one. -/
def dupKey (r : FolRec) : Option Nat :=
  match r.type with
  | 0x0302 => some (bitsOf (r.w 1) 0 1)
  | 0x0303 => some (bitsOf (r.w 1) 0 2)
  | 0x0400 => some (bitsOf (r.w 1) 0 3)
  | 0x0401 => some (bitsOf (r.w 1) 0 2)
  | 0x0501 => some (bitsOf (r.w 1) 0 7)
  | 0x0502 => some (bitsOf (r.w 1) 0 8)
  | 0x0503 => some (bitsOf (r.w 1) 0 4)
  | 0x0504 => some (bitsOf (r.w 1) 0 3)
  | 0x0600 => some (bitsOf (r.w 0) 0 1)
  | 0x0700 => some (bitsOf (r.w 1) 0 6)
  | 0x0800 => some (bitsOf (r.w 0) 0 8)
  | 0x0801 => some (bitsOf (r.w 0) 0 8)
  | 0x0802 => some (bitsOf (r.w 0) 0 8)
  | 0x0900 => some (bitsOf (r.w 0) 0 3)
  | 0x0A00 => some (bitsOf (r.w 1) 0 3)
  | 0x0B00 => some (256 + bitsOf (r.w 1) 8 8)
  | 0x0C00 => some (bitsOf (r.w 0) 0 2)
  | 0x0C01 => some (bitsOf (r.w 0) 0 1)
  | 0x0201 => some (bitsOf (r.w 0) 0 4)
  | _ => match kindOf r.type with
    | some ⟨_, _, _, _, .one _ _, _⟩ => some 0
    | _ => none

/-- Drivers of a COIL_PAIR record as (channel, driver) (R51). -/
def coilDrivers (r : FolRec) : List (Nat × Nat) :=
  [(bitsOf (r.w 0) 8 2, bitsOf (r.w 0) 10 2), (bitsOf (r.w 0) 16 2, bitsOf (r.w 0) 18 2)]

/-- Two records of one type are duplicates. -/
def dupPair (q r : FolRec) : Bool :=
  let inScope := match kindOf r.type with
    | some k => k.mask != 0 && k.type != 0x0B00
    | none => false
  let share := !inScope || q.scope &&& r.scope != 0
  (share && (dupKey r).isSome && dupKey q == dupKey r) ||
    match r.type with
    | 0x0201 => (coilDrivers q).any fun d => (coilDrivers r).contains d
    | 0x0400 => share && bitsOf (r.w 1) 10 2 != 0 && bitsOf (q.w 1) 10 2 == bitsOf (r.w 1) 10 2
    | 0x0401 => share && (r.w 1).testBit 2 && (q.w 1).testBit 2
    | 0x0600 => (q.w 1 == r.w 1 && q.w 2 == r.w 2) || bitsOf (q.w 0) 8 8 == bitsOf (r.w 0) 8 8
    | 0x0A00 => bitsOf (r.w 1) 8 2 == 3 && bitsOf (q.w 1) 8 2 == 3 && bitsOf (q.w 1) 0 3 != bitsOf (r.w 1) 0 3
    | _ => false

/-- Some number stands twice in a list. -/
def hasTwice : List Nat → Bool
  | [] => false
  | x :: xs => xs.contains x || hasTwice xs

/-- A record that repeats an earlier one, or a ball twice (R535).
DEDUCED, unsafe: log entries 18, 19. -/
def dupBad (l : List FolRec) (r : FolRec) : Bool :=
  ((recsOf l r.type).any fun q => q.offset < r.offset && dupPair q r)
    || (r.type == 0x0100 && hasTwice ((wordsFrom r 1).map fun p => p.2 % 65536))

/-! Images (0x44; R53, R54). -/

/-- Start and size of a target's region. -/
def targetRegion (t : Nat) : Nat × Nat :=
  match t with
  | 1 => (0, 0x40000)
  | 2 => (0x100000, 0x20000)
  | 3 => (0, 0x10000)
  | 4 => (0, 0x10000)
  | 5 => (0, 0x20000)
  | 6 => (0x20000000, 0x200000)
  | 0x10 => (0, 0x80000)
  | _ => (0, 0)

/-- Fields of an IMAGE_HEADER record. -/
def imgTarget (r : FolRec) : Nat := bitsOf (r.w 1) 0 8
def imgId (r : FolRec) : Nat := bitsOf (r.w 1) 8 8
def imgSize (r : FolRec) : Nat := r.w 2
def imgLoad (r : FolRec) : Nat := r.w 3

/-- Chunks of an image in Folio order. -/
def chunksOf (l : List FolRec) (id : Nat) : List FolRec := (recsOf l 0x0B01).filter fun r => bitsOf (r.w 0) 0 8 == id

/-- The bytes of an image, padding included. -/
def imgBytes (l : List FolRec) (h : FolRec) : List Byte := (chunksOf l (imgId h)).flatMap fun r => wordBytes (r.body.drop 1)

/-- An image whose size, place or hash is wrong (R54). One that has no chunk at all gives 0x44 here, in stage 6, and not
0x36 in stage 5.
DESIGN CHOICE, unsafe: log entry 82. -/
def imageBad (l : List FolRec) (h : FolRec) : Bool :=
  let bytes := imgBytes l h
  let (base, size) := targetRegion (imgTarget h)
  (chunksOf l (imgId h)).isEmpty || bytes.length != imgSize h + pad4 (imgSize h) || !allZero (bytes.drop (imgSize h))
    || decide (imgLoad h < base) || decide (base + size < imgLoad h + imgSize h)
    || BitVec.ofNat 256 (leNat (sha256 (bytes.take (imgSize h)))) != BitVec.ofNat 256 (leNat (wordBytes (h.body.drop 4)))
    || (recsOf l 0x0B00).any fun q => q.offset < h.offset && q.scope &&& h.scope != 0 && imgTarget q == imgTarget h
        && decide (imgLoad q < imgLoad h + imgSize h) && decide (imgLoad h < imgLoad q + imgSize q)

/-- A chunk that follows no header of its image, or does not carry the next INDEX (R54). -/
def chunkBad (l : List FolRec) (r : FolRec) : Bool :=
  let id := bitsOf (r.w 0) 0 8
  r.type == 0x0B01 && (!((recsOf l 0x0B00).any fun h => imgId h == id && decide (h.offset < r.offset))
    || r.w 0 / 256 != ((chunksOf l id).filter fun q => decide (q.offset < r.offset)).length)

/-- The record at which an image is wrong: a chunk out of its order first, then a header. -/
def imgBad (l : List FolRec) : Option FolRec :=
  match l.find? (chunkBad l) with
  | some r => some r
  | none => (recsOf l 0x0B00).find? (imageBad l)

/-- The word of a record whose references do not hold: the ball (R535), REVTH (R247), else the first. -/
def crossWord (r : FolRec) : Nat :=
  if r.type = 0x0100 then (((wordsFrom r 1).find? fun p => r.chans.any fun c => !ballOf c p.2).map Prod.fst).getD 0
  else if r.type = 0x0301 then 8
  else 0

/-- The result for a record. -/
def errAt (r : FolRec) (code word : Nat) : FErr :=
  { code := code, qtype := r.type / 256, index := r.index, offset := r.offset + 4 + 4 * word }

/-- Stage 6 (R56).
DEDUCED, unsafe: log entry 18. -/
def stage6 (l : List FolRec) : Option FErr :=
  match l.findSome? fun r => (fieldErr l r).map fun e => errAt r e.1 e.2 with
  | some e => some e
  | none =>
    match l.find? (crossBad l) with
    | some r => some (errAt r 0x42 (crossWord r))
    | none =>
      match (unplaced l).head? with
      | some (isTask, id) =>
        ((recsOf l (if isTask then 0x0800 else 0x0801)).find? fun r => bitsOf (r.w 0) 0 8 == id).map fun r => errAt r 0x42 0
      | none =>
        match l.find? (dupBad l) with
        | some r => some (errAt r 0x43 0)
        | none => (imgBad l).map fun r => errAt r 0x44 0

end Sys2Proof.Machine
end

