-- ==== Sys2Proof/Machine/MssOps.lean ====
section
/-! DEFINITION. Shared operations of the management subsystem (16_management_and_log.md): ports, log records, life
counters, its own records and ERR_M. -/

namespace Sys2Proof.Machine

/-- The link port of a channel. -/
def Mss.port (m : Mss) : Chan → Port
  | .A => m.portA
  | .B => m.portB
  | .C => m.portC

/-- Change the link port of a channel. -/
def Mss.onPort (m : Mss) (ch : Chan) (f : Port → Port) : Mss :=
  match ch with
  | .A => { m with portA := f m.portA }
  | .B => { m with portB := f m.portB }
  | .C => { m with portC := f m.portC }

/-- The management link to a channel carries traffic. -/
def State.mlinkUp (s : State) (c : Channel) : Bool := c.mlink && (s.mss.port c.me).up

/-- A field of a port's registers. -/
def Port.rd (p : Port) (f : Fld) : Nat := p.regs.get f

/-- Write a field of a port's registers. -/
def Port.wr (p : Port) (f : Fld) (v : Nat) : Port := { p with regs := p.regs.put f v }

/-- Write a flag of the MSS registers. -/
def Mss.flag (m : Mss) (f : Fld) (b : Bool) : Mss := m.wr f (if b then 1 else 0)

/-- Draw a free value below `n` (0 when `n` is 0).
DESIGN CHOICE, safe: log entry 8. -/
def Mss.draw (m : Mss) (n : Nat) : Nat × Mss := (Config.freeValue 0 m.free % n, { m with free := m.free + 1 })

/-- Change the supervisor's part. -/
def Mss.onSup (m : Mss) (f : Sup → Sup) : Mss := { m with sup := f m.sup }

/-- Change the log's part. -/
def Mss.onLog (m : Mss) (f : Log → Log) : Mss := { m with log := f m.log }

/-- The MP executes: powered, running, above rung P3 (R494), not halted by its debug module (R456, R520). -/
def Mss.mpRuns (m : Mss) : Bool := m.on && m.mp && decide (m.rung < 3) && !m.dbg.halted.getLsbD 0

/-- ERR_M is held low (R447, R457, R458). -/
def Mss.errHeld (m : Mss) : Bool := m.is LOG_STAT_DEAD || m.held

/-- A pulse of MINPW on ERR_M (R458). -/
def Mss.errPulse (m : Mss) : Mss := m.onSup fun x => { x with errM := x.errM + 1 }

/-- An MSS record waits to be formed (R441): origin 0, the herd mode last reported (R439), EPOCH and NTIME 0. -/
def Mss.record (m : Mss) (src code data : Nat) : Mss :=
  m.onLog fun x => { x with own := x.own ++ [⟨0, m.herdMode, 0, 0, src, code, BitVec.ofNat 208 data⟩] }

/-- Bytes 0x00 to 0x3B of a record (R439). -/
def LogRecord.head (r : LogRecord) : List Byte :=
  leBytes 4 r.seq ++ leBytes 6 r.optime ++ leBytes 3 r.pcyc ++ leBytes 1 r.origin ++ leBytes 2 r.src ++ leBytes 2 r.code
    ++ leBytes 2 r.epoch ++ leBytes 8 r.ntime ++ leBytes 4 r.caltime ++ leBytes 2 r.calepoch ++ leBytes 26 r.data.toNat

/-- The 64 bytes of a record. -/
def LogRecord.bytes (r : LogRecord) : List Byte := r.head ++ leBytes 4 r.crc

/-- A record whose CRC is good. -/
def LogRecord.good (r : LogRecord) : Bool := r.crc == crc32 r.head

/-- Index of the life counter that a record adds to, and how much (R449). -/
def lifeOf (origin src code : Nat) (data : BitVec 208) : Option (Nat × Nat) :=
  let n := data.toNat % 2 ^ 16
  if src < 64 ∧ code = 4 then some (255, n)
  else if src < 64 ∧ origin % 8 ≠ 0 then some (64 * (origin % 8 - 1) + src, n)
  else if 0x200 ≤ src ∧ src ≤ 0x23E then some (192 + (src - 0x200), 1)
  else if src = 0x100 ∨ src = 0x101 then some (256 + (src - 0x100), 1)
  else if 0x8000 ≤ src ∧ src ≤ 0x81FD then some (512 + (src - 0x8000), 1)
  else if 0x81FE ≤ src then some (1022, 1)
  else none

/-- Add to a life counter (R449): it saturates, and its first saturation forms a LIFE_SAT record. -/
def Mss.lifeAdd (m : Mss) (idx n : Nat) : Mss :=
  let old := m.rd (LOG_LIFE_COUNT idx)
  let new := min (old + n) (2 ^ 32 - 1)
  let m := m.wr (LOG_LIFE_COUNT idx) new
  if new = 2 ^ 32 - 1 ∧ old ≠ 2 ^ 32 - 1 then m.record 0x208 0 idx else m

/-- Count a formed record. -/
def Mss.count (m : Mss) (r : LogRecord) : Mss :=
  match lifeOf r.origin r.src r.code r.data with
  | some (i, n) => m.lifeAdd i n
  | none => m

/-- The last-words buffer keeps the 64 most recently formed records (R448). -/
def keepLast (l : List LogRecord) (r : LogRecord) : List LogRecord := ((l ++ [r]).reverse.take 64).reverse

/-- Size of a bank in records (R442). -/
def bankSlots : Nat := 131072

/-- LOG_NEXT advances by one; at the size of a bank LOG_FULL is set (R442, R444). -/
def Mss.advance (m : Mss) : Mss :=
  let n := m.rd LOG_NEXT_SEQ + 1
  let m := m.wr LOG_NEXT_SEQ n
  if bankSlots ≤ n then m.wr LOG_STAT_FULL 1 else m

/-- A bank is retired (R446): recorded, ERR_M driven, a BANK_RETIRED record; with both retired LOG_DEAD latches (R447).
`why` 1 write verify, 2 uncorrectable read.
DEDUCED, unsafe: log entry 62. -/
def Mss.retire (m : Mss) (bank why : Nat) : Mss :=
  let f := if bank = 0 then LOG_STAT_RET0 else LOG_STAT_RET1
  if m.is f then m
  else
    let m := ((m.wr f 1).errPulse).record 0x204 bank why
    if m.is LOG_STAT_RET0 && m.is LOG_STAT_RET1 then m.wr LOG_STAT_DEAD 1 else m

/-- The message that LOG_BODY and LOG_STAMP spell (R460): origin byte, EPOCH, NTIME, SRC, CODE, DATA. -/
def Mss.bodyMsg (m : Mss) : Nat × Nat × Nat × Nat × Nat × BitVec 208 :=
  let w := fun n => m.rd (LOG_BODY_VALUE n)
  let data := (List.range 6).foldl (fun a i => a + w (i + 1) * 2 ^ (32 * i)) 0 + w 7 % 2 ^ 16 * 2 ^ 192
  (m.rd LOG_STAMP0_ORIGIN, m.rd LOG_STAMP0_EPOCH, m.rd LOG_STAMP1_NTIME + m.rd LOG_STAMP2_NTIME * 2 ^ 32,
    w 0 % 2 ^ 16, w 0 / 2 ^ 16, BitVec.ofNat 208 data)

/-- The MP puts a message into LOG_BODY and LOG_STAMP. -/
def Mss.loadBody (m : Mss) (x : LogMsg) : Mss :=
  let d := x.data.toNat
  let m := (List.range 6).foldl (fun m i => m.wr (LOG_BODY_VALUE (i + 1)) (d / 2 ^ (32 * i))) m
  let m := (m.wr (LOG_BODY_VALUE 7) (d / 2 ^ 192)).wr (LOG_BODY_VALUE 0) (x.src % 2 ^ 16 + x.code % 2 ^ 16 * 2 ^ 16)
  let m := (m.wr LOG_STAMP0_ORIGIN (x.origin % 8 + x.mode % 8 * 8)).wr LOG_STAMP0_EPOCH x.epoch
  (m.wr LOG_STAMP1_NTIME x.nt).wr LOG_STAMP2_NTIME (x.nt / 2 ^ 32)

/-- The record formed from LOG_BODY and LOG_STAMP (R437, R439, R442). -/
def Mss.formed (m : Mss) : LogRecord :=
  let (origin, epoch, nt, src, code, data) := m.bodyMsg
  let r : LogRecord :=
    { seq := m.rd LOG_NEXT_SEQ, optime := m.sup.optime, pcyc := m.sup.pcyc, origin := origin, src := src, code := code,
      epoch := epoch, ntime := nt, caltime := m.sup.cal, calepoch := m.sup.calEpoch, data := data, crc := 0 }
  { r with crc := crc32 r.head }

/-- A channel's own registers show whether any channel reports the MSS lost (R501): no heartbeat, a held MP, or a
management link that is down. -/
def State.mssLost (s : State) : Bool :=
  [Chan.A, Chan.B, Chan.C].any fun ch =>
    (s.chan ch).alive && ((s.chan ch).hbLost || !(s.chan ch).mlink || s.mss.held)

/-- The exit from P4 or P5 (R495): the digital die has no state left and starts at step 1 of the bring-up.
DEDUCED, unsafe: log entry 72. -/
def Channel.exitDeep (c : Channel) : Channel :=
  { c.repower with pwr := { up := c.pwr.up, off := !c.pwr.up, awake := false } }.errRefresh

/-- PWR_STAT.MSSLOST of every channel (R501, R507). While a channel reports the MSS lost, a region on P4 or P5 is woken.
DEDUCED, unsafe: log entry 72. -/
def State.showLost (s : State) : State :=
  let p := s.mssLost
  let f (ch : Chan) (s : State) : State := s.on ch fun c =>
    if c.alive then c.flag PWR_STAT_MSSLOST p
    else if p && decide (4 ≤ c.rd PWR_STAT_RUNG) then c.exitDeep else c
  f .C (f .B (f .A s))

/-- The herd's mode as a channel's steward knows it: its own while it votes or is split, else that of a voting member.
DEDUCED, unsafe: log entry 75. -/
def State.modeSeen (s : State) (ch : Chan) : Nat :=
  let c := s.chan ch
  if c.voting || !c.lockstep then c.rd STW_MODE_MODE
  else match [Chan.A, Chan.B, Chan.C].find? fun o => (s.chan o).voting && (s.chan o).live with
    | some o => (s.chan o).rd STW_MODE_MODE
    | none => c.rd STW_MODE_MODE

/-- A port that a token had opened closes (R513): the debug module is reset with its triggers and pending requests; a
channel that the debugger had taken out of the herd takes a channel reset, whose cause code is open (a free value).
DEDUCED, unsafe: log entry 75. -/
def Channel.closePort (c : Channel) : Channel :=
  let c := { c with dbg := {} }.wr STW_DBG_HPEND 0
  if c.is STW_DBG_ABSENT then
    let (k, c) := c.draw 7
    (c.reset k 0).errRefresh
  else c

/-- The token ports close in every mode but SERVICE, and all of them when PCYC changes (R513). -/
def State.closePorts (s : State) (all : Bool) : State :=
  let f (ch : Chan) (s : State) : State :=
    if (s.chan ch).dbg.token && (all || s.modeSeen ch != 6) then s.on ch Channel.closePort else s
  let shut := all || !([Chan.A, Chan.B, Chan.C].any fun o => (s.chan o).voting && (s.chan o).rd STW_MODE_MODE == 6)
  let s := f .C (f .B (f .A s))
  if s.mss.dbg.token && shut then s.onMss fun m => { m with dbg := { halted := m.dbg.halted } } else s

/-- MSS_STAT.VOTES and LINKS (R460). -/
def Mss.showPorts (m : Mss) : Mss :=
  let bits := fun (f : Port → Bool) => (if f m.portA then 1 else 0) + (if f m.portB then 2 else 0) + if f m.portC then 4 else 0
  (m.wr MSS_STAT_VOTES (bits fun p => p.vote)).wr MSS_STAT_LINKS (bits fun p => p.up)

/-- The herd mode that a channel reports on its link (R439, R73). -/
def Mss.hear (m : Mss) (c : Channel) : Mss := { m with herdMode := c.rd STW_MODE_MODE }

end Sys2Proof.Machine
end

