-- ==== Sys2Proof/Machine/Slots.lean ====
section
/-! DEFINITION. The Folio slots as the MSS handles them: contents, states, whole-Folio validation and the commit (R60,
R64 of 02_folio.md, R471, R480 to R484 of 17_security_and_update.md). Slots are numbered 0 A, 1 B. -/

namespace Sys2Proof.Machine

/-- The state of a slot. -/
def Mss.slot (m : Mss) (n : Nat) : Nat := if n = 0 then m.slotA else m.slotB

/-- The bytes of a slot. -/
def Mss.slotBytes (m : Mss) (n : Nat) : List Byte := if n = 0 then m.upd.bytesA else m.upd.bytesB

/-- The colophon of a Folio (R49). -/
def folioCo (bs : List Byte) : List Byte := bs.drop (spOfs bs)

/-- The records of a Folio that has passed validation. -/
def folioRecs (bs : List Byte) : List FolRec := (stage5 (bs.take 64) (folioCo bs) (bs.take (spOfs bs))).recs

/-- A slot holds a Folio. -/
def Mss.holds (m : Mss) (n : Nat) : Bool := m.slot n != 0

/-- Records and colophon of the ACTIVE slot's Folio. -/
def Mss.activeRecs (m : Mss) : List FolRec := if m.holds m.active then folioRecs (m.slotBytes m.active) else []
def Mss.activeCo (m : Mss) : List Byte := if m.holds m.active then folioCo (m.slotBytes m.active) else []

/-- The MP image of the ACTIVE slot's Folio (R53: TARGET 0x10), and its bytes. -/
def Mss.mpImage (m : Mss) : Option FolRec := (recsOf m.activeRecs 0x0B00).find? fun r => imgTarget r == 0x10
def Mss.mpBytes (m : Mss) (h : FolRec) : List Byte := (imgBytes m.activeRecs h).take (imgSize h)

/-- The MP image is whole (R429, R492): its bytes match the SHA-256 of its IMAGE_HEADER. What the MSS runs while no Folio
has been stored is not given: `blank` says whether it runs.
DESIGN CHOICE, unsafe: log entry 80. -/
def Mss.imageGood (m : Mss) (blank : Bool) : Bool :=
  if m.holds m.active then
    match m.mpImage with
    | some h => BitVec.ofNat 256 (leNat (sha256 (m.mpBytes h))) == BitVec.ofNat 256 (leNat (wordBytes (h.body.drop 4)))
    | none => false
  else blank

/-- The MP image goes into the MP SRAM (R53, R429). -/
def Mss.loadImage (m : Mss) : Mss :=
  match m.mpImage with
  | some h => { m with sram := m.sram.writeBytes (imgLoad h) (m.mpBytes h) }
  | none => m

/-- All stages of R56 on a whole Folio held in memory. -/
def validate (o : Otp) (keys : KMap (List Byte)) (rollback : Nat) (bs : List Byte) : Option FErr :=
  let sp := bs.take 64
  match stage1 bs.length sp with
  | some e => some e
  | none =>
    let co := folioCo bs
    match stage2 sp co with
    | some e => some e
    | none =>
      match stage3 o keys sp co with
      | some e => some e
      | none =>
        match stage4 o rollback none sp co with
        | some e => some e
        | none =>
          let p := stage5 sp co (bs.take (spOfs sp))
          match p.err with
          | some e => some e
          | none => stage6 p.recs

/-- A SLOT_STATE record (R441): slot, state, 1 when made ACTIVE. -/
def Mss.slotRecord (m : Mss) (n : Nat) (active : Bool) : Mss :=
  m.record 0x207 0 (n + m.slot n * 256 + if active then 65536 else 0)

/-- A slot takes a state, with its record. -/
def Mss.mark (m : Mss) (n st : Nat) : Mss :=
  if m.slot n = st then m
  else (if n = 0 then { m with slotA := st } else { m with slotB := st }).slotRecord n false

/-- ACTIVE names a slot, with its record. -/
def Mss.activate (m : Mss) (n : Nat) : Mss :=
  if m.active = n then m else { m with active := n }.slotRecord n true

/-- Change the key store. -/
def Mss.onKey (m : Mss) (f : KeyStore → KeyStore) : Mss := { m with key := f m.key }

/-- Change the update path. -/
def Mss.onUpd (m : Mss) (f : Upd → Upd) : Mss := { m with upd := f m.upd }

/-- KEY_STAT as the fuses stand (R487). -/
def Mss.showKeys (m : Mss) : Mss :=
  let o := m.key.otp
  let m := (m.wr KEY_STAT_EPOCH o.epoch).wr KEY_STAT_REVOKED o.revoked.toNat
  (m.wr KEY_STAT_FUSED o.fused.toNat).wr KEY_STAT_LC o.lc

/-- No session (R481). -/
def Mss.noSession (m : Mss) : Mss :=
  let m := ((m.wr UPD_STAT_STATE 0).wr UPD_STAT_OWNER 0).wr UPD_NEXT_VALUE 0
  let m := (m.wr UPD_FOLRES_VALUE 0xFF).wr UPD_FOLPOS_VALUE 0
  let m := (List.range 8).foldl (fun m i => m.wr (UPD_HASH_VALUE i) 0) m
  m.onUpd fun u => { u with staged := [] }

/-- The steps of a commit (R471): GOOD, ACTIVE, ROLLBACK, security epoch, the other slot marked EMPTY when it lies below
the counters.
DEDUCED, unsafe: log entry 70. -/
def Mss.commit (m : Mss) (n : Nat) : Mss :=
  let co := folioCo (m.slotBytes n)
  let m := (m.mark n 2).activate n
  let m := m.wr KEY_ROLLBACK_VALUE (max (m.rd KEY_ROLLBACK_VALUE) (coRollback co))
  let m := (m.onKey fun k => { k with otp := { k.otp with epoch := max k.otp.epoch (min 64 (coEpoch co)) } }).showKeys
  let other := folioCo (m.slotBytes (1 - n))
  let m := if m.holds (1 - n) && (decide (coRollback other < m.rd KEY_ROLLBACK_VALUE) ||
      decide (coEpoch other < m.key.otp.epoch)) then m.mark (1 - n) 0 else m
  let m := m.onUpd fun u => { u with journal := 0, arm := 0, started := false }
  if m.rd UPD_STAT_STATE = 5 ∨ m.rd UPD_STAT_STATE = 6 then
    { (m.wr UPD_STAT_STATE 0).wr UPD_STAT_OWNER 0 with upd := { m.upd with staged := [] } }
  else m

end Sys2Proof.Machine
end

