-- ==== Sys2Proof/Machine/NetTime.lean ====
section
/-! DEFINITION. Network time: the clock, link delays, following, joining and cycle marks (13_network_time.md). Times are
in 2^-16 ns of the node's own NT unless another unit is named. -/

namespace Sys2Proof.Machine

/-- Change the clock's part. -/
def Channel.ntcUp (c : Channel) (f : Ntc → Ntc) : Channel := { c with ntc := f c.ntc }

/-- Change the Tether node's part. -/
def Channel.tteUp (c : Channel) (f : Tte → Tte) : Channel := { c with tte := f c.tte }

/-- The clock, the Tether node and CAN0 act while their blocks are enabled and out of reset. -/
def Channel.ntcOn (c : Channel) : Bool := c.blockOn 11
def Channel.tteOn (c : Channel) : Bool := c.blockOn 10
def Channel.canOn (c : Channel) : Bool := c.blockOn 12

/-- The number that bytes spell, most significant first (R9). -/
def beNat (bs : List Byte) : Nat := bs.foldl (fun a b => a * 256 + b.toNat) 0

/-- NT in 2^-16 ns. -/
def Channel.nt16 (c : Channel) : Int := (c.ntc.nt / 2 ^ 8 : Nat)

/-- The cycle length in ns (R344). -/
def Channel.cycleNs (c : Channel) : Nat := bitsOf (c.rd (TTE_RING_VALUE 1)) 0 14 * 1000

/-! Link delay (R370 to R372). -/

/-- The measurement of a port. -/
def Ntc.ld (n : Ntc) (port : Nat) : LinkDelay := if port = 0 then n.ld0 else n.ld1

/-- Change the measurement of a port. -/
def Ntc.onLd (n : Ntc) (port : Nat) (f : LinkDelay → LinkDelay) : Ntc :=
  if port = 0 then { n with ld0 := f n.ld0 } else { n with ld1 := f n.ld1 }

/-- The delay rests on at least 4 measurements. -/
def LinkDelay.valid (l : LinkDelay) : Bool := decide (4 ≤ l.kept.length)

/-- The mean of the kept measurements in 1/16 ns, rounded half upwards; 0 without any.
DEDUCED, unsafe: log entry 53. -/
def LinkDelay.mean (l : LinkDelay) : Int := rdiv (l.kept.foldl (· + ·) 0) l.kept.length

/-- The link delay of a port in 2^-16 ns; 0 in place of a missing one (R372, R373). -/
def Channel.ldIn (c : Channel) (port : Nat) : Int :=
  let l := c.ntc.ld port
  if l.valid then l.mean * 4096 else 0

/-- NTC_LD0, NTC_LD1 and LDOK. -/
def Channel.showLd (c : Channel) (port : Nat) : Channel :=
  let l := c.ntc.ld port
  let c := (c.wr (NTC_LD_NVAL port) l.kept.length).wr (NTC_LD_DELAY port) l.mean.toNat
  c.flag (if port = 0 then NTC_STAT_LDOK0 else NTC_STAT_LDOK1) l.valid

/-- A measurement is discarded (R372); the eighth in a row raises NT_LINKD and empties the filter. -/
def Channel.ldDiscard (c : Channel) (port : Nat) : Channel :=
  let n := (c.ntc.ld port).disc + 1
  let c := c.ntcUp fun x => x.onLd port fun l =>
    { l with wait := none, disc := if 8 ≤ n then 0 else n, kept := if 8 ≤ n then [] else l.kept }
  (c.showLd port).raiseIf (decide (8 ≤ n)) 57

/-- A response to the request in progress (R370, R372): `seq` and `turn` from its payload, `t4` its arrival. -/
def Channel.ldResponse (c : Channel) (port : Nat) (seq : Nat) (turn t4 : Int) : Channel :=
  let l := c.ntc.ld port
  match l.wait with
  | none => c
  | some (s, t1) =>
    let m := rdiv (t4 - t1 - turn) 8192
    let far := l.valid && decide (320 < (m - l.mean).natAbs)
    if 50000 * 65536 < t4 - t1 then c
    else if seq ≠ s ∨ m < 0 ∨ 8000 < m ∨ far = true then
      (c.sat (if port = 0 then NTC_LDERR_DISC0 else NTC_LDERR_DISC1)).ldDiscard port
    else
      (c.ntcUp fun x => x.onLd port fun l =>
        { l with wait := none, disc := 0, kept := (l.kept ++ [m]).drop (l.kept.length + 1 - 8) }).showLd port

/-- LINK_DELAY_TIMEOUT (R372): no response within 50 µs. -/
def execLinkDelayTimeout (ch : Chan) (port : Fin 2) (s : State) : Out :=
  .next (s.onLive ch fun c =>
    if c.ntcOn && (c.ntc.ld port).wait.isSome then
      (c.sat (if port = 0 then NTC_LDERR_TOUT0 else NTC_LDERR_TOUT1)).ldDiscard port
    else c)

/-- NTC_TIMEL_READ (R367): all 64 bits are captured; NTC_TIMEH shows the upper half of the capture. -/
def execNtcTimelRead (ch : Chan) (s : State) : Out :=
  .next (s.onLive ch fun c =>
    if c.ntcOn then
      let n := c.ntNs
      let c := (c.wr NTC_TIMEL_NS n).wr NTC_TIMEH_NS (n / 2 ^ 32)
      { c with bus := .ok (BitVec.ofNat 32 n) }
    else { c with bus := .error })

/-! Following the lead (R375 to R381). -/

/-- An offset in 1/16 ns, saturating; the code of "none" stays free. -/
def ofsCode (e : Int) : Int := clampI (rdiv e 4096) (-(2 ^ 31 - 1)) (2 ^ 31 - 1)

/-- The node has joined network time. -/
def Channel.joined (c : Channel) : Bool := c.is NTC_STAT_JOINED

/-- The node leaves network time (R380). -/
def Channel.ntLeave (c : Channel) : Channel :=
  let c := (c.wr NTC_STAT_JOINED 0).sat NTC_CNT_REJOIN
  (c.ntcUp fun n => { n with first := none, e := none, clampRun := 0 }).raise 55

/-- INC, the rate register and the clamp from a relative rate num ÷ (2^16 × CYCLEN × 1000) (R376). -/
def Channel.setRate (c : Channel) (num : Int) (clamped : Bool) : Channel :=
  let d := c.cycleNs
  let c := c.wrS NTC_INC_VALUE (2 ^ 27 + rdiv (num * 2 ^ 11) d)
  (c.wrS NTC_RATE_VALUE (rdiv (num * 1000000000) (65536 * d))).flag NTC_STAT_CLAMP clamped

/-- One step of the loop of R376 with offset e; above 1 ms the node leaves. -/
def Channel.follow (c : Channel) (e : Int) : Channel :=
  if 1000000 * 65536 < e.natAbs then c.ntLeave
  else
    let j := c.ntc.j
    let jn := rdiv (32 * j - e) 32
    let num := rdiv (4 * jn - e) 4
    let lim : Int := c.cycleNs * 65536 / 2000
    let within := decide (num.natAbs ≤ lim.natAbs)
    let j' := if within || decide (jn.natAbs < j.natAbs) then jn else j
    let run := if within then 0 else c.ntc.clampRun + 1
    let c := (c.ntcUp fun n => { n with j := j', clampRun := run }).setRate (clampI num (-lim) lim) (!within)
    if run = 64 then (c.sat NTC_CNT_CLAMPS).raise 56 else c

/-- The second frame of a join (R378): the rate is preset, NT steps by −e, EPOCH counts. -/
def Channel.join (c : Channel) (a b : SyncFrame) (e : Int) : Channel :=
  let d : Int := (b.txtime : Int) * 65536 - (a.txtime : Int) * 65536 + (b.corr - a.corr)
  let t := (b.trx - a.trx).toNat
  let n := c.cycleNs
  let j := rdiv ((d - t) * n) t
  let inc := clampI (rdiv (2 ^ 27 * d) t) 134150619 134284837
  let rate := rdiv ((d - t) * 1000000000) t
  let c := (c.wrS NTC_INC_VALUE inc).wrS NTC_RATE_VALUE rate
  let c := c.ntcUp fun x => { x with
    j := j, nt := (x.nt - e * 256).toNat % 2 ^ 88, first := none, clampRun := 0, justJoined := true }
  let c := (c.wrSat NTC_STEP_LAST (rdiv (-e) 65536000)).sat NTC_CNT_STEPS
  (c.inc NTC_EPOCH_EPOCH).wr NTC_STAT_JOINED 1

/-- A frame on a node that has not joined (R378).
DEDUCED, unsafe: log entry 53. -/
def Channel.tryJoin (c : Channel) (f : SyncFrame) (e : Int) : Channel :=
  match c.ntc.first with
  | none => c.ntcUp fun n => { n with first := some f }
  | some a =>
    let k := (f.cycle + 2 ^ 32 - a.cycle) % 2 ^ 32
    if k = 0 then c
    else if f.lead = a.lead ∧ k ≤ 4 ∧ a.trx < f.trx then c.join a f e
    else c.ntcUp fun n => { n with first := some f }

/-- A valid cycle frame as network time uses it (R375): of the two copies of a cycle the one with the higher HOPS counts,
the first of equals; the other's offset goes to NTC_OFSALT. A port without a valid link delay is not used. -/
def Channel.sync (c : Channel) (port hops epoch : Nat) (f : SyncFrame) (follower : Bool) : Channel :=
  if !(c.ntc.ld port).valid || !c.ntcOn then c
  else
    let e := f.trx - ((f.txtime : Int) * 65536 + f.corr + c.ldIn port)
    let apply := fun (c : Channel) =>
      let c := (c.ntcUp fun n => { n with used := some hops, e := some e }).wrS NTC_OFS_OFFSET (ofsCode e)
      let c := ((c.wr NTC_STAT_SYNCPORT (port + 1)).wr NTC_STAT_HOLD 0).wr NTC_EPOCH_LEADEP epoch
      if c.joined then (if follower then c.follow e else c) else c.tryJoin f e
    match c.ntc.used with
    | none =>
      apply (c.ntcUp fun n => { n with jPrev := n.j, runPrev := n.clampRun, incPrev := c.rd NTC_INC_VALUE })
    | some h =>
      if h < hops ∧ c.ntc.justJoined = false then
        let old := c.rd NTC_OFS_OFFSET
        let c := c.ntcUp fun n => { n with j := n.jPrev, clampRun := n.runPrev }
        apply ((c.wr NTC_INC_VALUE c.ntc.incPrev).wr NTC_OFSALT_OFFSET old)
      else c.wrS NTC_OFSALT_OFFSET (ofsCode e)

/-- A new cycle (R376): without a usable frame in the last one HOLD is set, and the run of clamped cycles is broken.
DEDUCED, unsafe: log entry 53. -/
def Channel.ntCycle (c : Channel) : Channel :=
  let c := if c.ntc.used.isNone ∧ c.is NTC_STAT_LEAD = false then
      (c.wr NTC_STAT_HOLD 1).ntcUp fun n => { n with clampRun := 0 } else c
  c.ntcUp fun n => { n with used := none, justJoined := false }

/-! Cycle marks (R385, R386). -/

/-- A mark fires (R386): in a cycle of its row, at most once per CYCLE value, while the node has joined. -/
def Channel.fireMark (c : Channel) (m : Nat) : Channel :=
  let w1 := c.rd (NTC_MKCFG1_VALUE m)
  let w2 := c.rd (NTC_MKCFG2_VALUE m)
  let rowOk := w2.testBit 8 || bitsOf w2 0 8 == c.rd TTE_ROLL_ROW
  let declared := (recsFor c.fol.recs 0x0504 c.me).any fun r => bitsOf (r.w 1) 0 3 == m && r.w 1 == w1
  if declared && c.joined && rowOk && kget 0 c.ntc.fired m != c.tte.cyc + 1 then
    let c := if c.is (NTC_MKSTAT_PEND m) then c.sat (NTC_MKSTAT_OVR m) else c
    let c := ((c.wr (NTC_MKSTAT_PEND m) 1).inc (NTC_MKSTAT_FIRED m)).wr (NTC_MKTIME_NS m) c.ntNs
    c.ntcUp fun n => { n with fired := kset 0 n.fired m (c.tte.cyc + 1) }
  else c

/-- CYCLE_MARK (R386). -/
def execCycleMark (ch : Chan) (mark : Fin 8) (s : State) : Out :=
  .next (s.onLive ch fun c => if c.ntcOn then c.fireMark mark else c)

end Sys2Proof.Machine
end

