-- ==== Sys2Proof/Machine/TetherOps.lean ====
section
/-! DEFINITION. The Tether node (12_tether_network.md): frames, the safety code, slots, the guardian, buffers and access
ports. -/

namespace Sys2Proof.Machine

/-- Fields of the RING record (R344). -/
def Channel.ringWord (c : Channel) (n lsb width : Nat) : Nat := bitsOf (c.rd (TTE_RING_VALUE n)) lsb width
def Channel.isRingTopo (c : Channel) : Bool := c.is TTE_STAT_TOPO
def Channel.etypeOwn (c : Channel) : Nat := c.ringWord 2 0 16
def Channel.winHalf (c : Channel) : Nat := c.ringWord 3 0 7
def Channel.rloss (c : Channel) : Nat := c.ringWord 3 8 8
def Channel.leadCap (c : Channel) : Bool := c.ringWord 1 18 1 == 1
def Channel.enumerated (c : Channel) : Bool := c.ringWord 1 17 1 == 0

/-- Own address, and role (R364). -/
def Channel.addrT (c : Channel) : Nat := c.rd TTE_STAT_ADDR
def Channel.roleT (c : Channel) : Nat := c.rd TTE_STAT_ROLE

/-- The device ID as loaded (R364). -/
def Channel.devId (c : Channel) : Nat := c.rd (TTE_DEVID_ID 0) + c.rd (TTE_DEVID_ID 1) % 2 ^ 16 * 2 ^ 32

/-- A port is up (R333). -/
def Channel.portUp (c : Channel) (p : Nat) : Bool := c.is (if p = 0 then TTE_STAT_LINK0 else TTE_STAT_LINK1)

/-! Stream contexts (R345, R364). -/

/-- The three words of a STREAM record as loaded; word 1 is 0 when the stream is undeclared. -/
def Channel.ctx (c : Channel) (id n : Nat) : Nat := c.rd (TTE_CTXCFG_VALUE id n)
def Channel.declared (c : Channel) (id : Nat) : Bool := id != 0 && bitsOf (c.ctx id 1) 0 7 == id
def Channel.isTx (c : Channel) (id : Nat) : Bool := c.declared id && (c.ctx id 1).testBit 8
def Channel.isRx (c : Channel) (id : Nat) : Bool := c.declared id && !(c.ctx id 1).testBit 8
def Channel.isCrit (c : Channel) (id : Nat) : Bool := (c.ctx id 1).testBit 9
def Channel.bufLen (c : Channel) (id : Nat) : Nat := bitsOf (c.ctx id 1) 16 11
def Channel.isStatus (c : Channel) (id : Nat) : Bool := bitsOf (c.ctx id 1) 11 2 == 1
def Channel.isClaimF (c : Channel) (id : Nat) : Bool := (c.ctx id 1).testBit 13

/-- The current or SEND buffer of a context. -/
def Channel.curBuf (c : Channel) (id : Nat) : List Byte := kget [] c.tte.cur id

/-- The two buffers of a context change places (R348, R349): the one with the content `other` becomes current, its first
octets are `bytes`. -/
def Channel.swapBufs (c : Channel) (id : Nat) (other : Memory) (bytes : List Byte) : Channel :=
  c.tteUp fun t => { t with
    cur := kset [] t.cur id bytes, whole := kset [] t.whole id other, fill := kset [] t.fill id (kget [] t.whole id),
    gen := kset 0 t.gen id ((kget 0 t.gen id + 1) % 65536) }

/-- Buffer switches of a context (R348, R349). A transmit context's SEQ counts its swaps, as its GEN does. -/
def Channel.genOf (c : Channel) (id : Nat) : Nat := kget 0 c.tte.gen id

/-- One access port as TTE_PSTATk shows it (R350, R364). -/
def Channel.showPort (c : Channel) (k : Nat) : Channel :=
  let id := c.rd (TTE_PSEL_CTX k)
  if c.declared id then
    let len := if c.isTx id then kget 0 c.tte.fillLen id else (c.curBuf id).length
    let c := (c.wr (TTE_PSTAT_GEN k) (c.genOf id)).flag (TTE_PSTAT_COMMIT k) (c.isTx id && kget false c.tte.commit id)
    (c.wr (TTE_PSTAT_STATE k) (c.rd (TTE_CTXSTAT_STATE id))).wr (TTE_PSTAT_LEN k) len
  else (c.wrWord (TTE_PSTAT k) 0).wr (TTE_PSTAT_STATE k) 3

/-- The ports that have been selected, after a change of a context. -/
def Channel.showPorts (c : Channel) : Channel :=
  [0, 1, 2, 3].foldl (fun c k => if c.rd (TTE_PSEL_CTX k) = 0 then c else c.showPort k) c

/-! Frames (R336 to R340). -/

end Sys2Proof.Machine

namespace Sys2Proof

open Machine

/-- Header octets and payload under the safety code (R339); the octet COUNT of an enumeration frame is left out. -/
def Frame.covered (f : Frame) : List Byte :=
  [BitVec.ofNat 8 (f.ver * 16 + f.kind), BitVec.ofNat 8 ((if f.brk then 128 else 0) + if f.fcopy then 64 else 0),
    BitVec.ofNat 8 f.stream] ++ beBytes 2 f.seq ++ beBytes 2 f.len ++ (if f.kind = 3 then f.payload.drop 1 else f.payload)

/-- The safety code from an initial value (R339). -/
def Frame.codeFrom (f : Frame) (seed : Nat) : Word := BitVec.ofNat 32 (crc32cFrom seed f.covered)

/-- The safety code of a frame is good. -/
def Frame.codeOk (f : Frame) (seed : Nat) : Bool := f.code == f.codeFrom seed

/-- A number of octets of a payload, most significant first. -/
def Frame.num (f : Frame) (ofs n : Nat) : Nat := beNat (slice f.payload ofs n)

end Sys2Proof

namespace Sys2Proof.Machine

/-- A frame carries the node's own non-zero address as its source (R335). -/
def Channel.ownFrame (c : Channel) (f : Frame) : Bool := f.srcRing == c.me.num && f.src == c.addrT && c.addrT != 0

/-- A frame is for this node (R336). -/
def Channel.forMe (c : Channel) (f : Frame) : Bool :=
  f.ring == c.me.num && (f.dst == 63 || (f.dst == c.addrT && c.addrT != 0))

/-- Payload length that a KIND fixes (R341, R356, R358, R360, R370); `none` for stream data.
DEDUCED, unsafe: log entry 49. -/
def lenOfKind (kind : Nat) : Option Nat :=
  if kind = 0 then some 64 else if kind = 1 then none else if kind = 6 then some 16 else some 8

/-- Checks 1 and 2 of R348 (R337, R338, R340): the FCS, then VER, KIND and LEN, each failure counted. A frame of another
EtherType is FRAME_FORWARD's (R335). A good frame with BRK is noted for the lead (R355).
DEDUCED, unsafe: log entry 49. -/
def Channel.rxForm (c : Channel) (f : Frame) : Channel × Bool :=
  if !c.forMe f || f.etype != c.etypeOwn then (c, false)
  else if !f.fcsOk then (c.sat TTE_ERR2_FCS, false)
  else if f.ver ≠ 1 ∨ 7 ≤ f.kind then (c.sat TTE_ERR_FORM, false)
  else if f.len = 0x7FF then (c.sat TTE_ERR_RESLEN, false)
  else if f.kind = 1 ∧ c.isRx f.stream = true ∧ c.bufLen f.stream < f.len then
    ((c.sat TTE_ERR_OVERSIZE).sat (TTE_CTXERR_OVERSIZE f.stream), false)
  else if f.payload.length ≠ f.len ∨ 1024 < f.len ∨ (lenOfKind f.kind).any (fun n => n != f.len) then
    (c.sat TTE_ERR_FORM, false)
  else (if f.brk then c.tteUp fun t => { t with brkSeen := true } else c, true)

/-- A frame of a fixed KIND: form and safety code (R339).
DEDUCED, unsafe: log entry 49. -/
def Channel.rxKind (c : Channel) (f : Frame) (kind : Nat) : Channel × Bool :=
  if f.kind ≠ kind then (c, false)
  else
    let (c, ok) := c.rxForm f
    if !ok then (c, false)
    else if f.codeOk 0xFFFFFFFF then (c, true)
    else (c.sat TTE_ERR_CODE, false)

/-- BRK (R355): in a ring, while a port is down or after two cycles in a row whose own frames did not return. -/
def Channel.brkNow (c : Channel) : Bool :=
  c.isRingTopo && (!c.portUp 0 || !c.portUp 1 || decide (2 ≤ c.tte.lonely))

/-- Bring TTE_STAT.BRK into line. -/
def Channel.brkRefresh (c : Channel) : Channel := c.flag TTE_STAT_BRK c.brkNow

/-- A frame of the own (R336, R337, R373): HOPS0, CORR 0, BRK as it stands; `at_` is the SFD's time in 2^-16 ns. -/
def Channel.ownFrameOf (c : Channel) (kind stream seq hops : Nat) (fcopy : Bool) (payload : List Byte) (seed : Nat)
    (at_ : Int) : Frame :=
  let f : Frame :=
    { port := 0, fcsOk := true, etype := c.etypeOwn, ring := c.me.num, dst := 63, srcRing := c.me.num, src := c.addrT,
      ver := 1, kind := kind, brk := c.is TTE_STAT_BRK, fcopy := fcopy, stream := stream, hops := hops, seq := seq,
      len := payload.length, corr := 0, payload := payload, code := 0, trx := at_ }
  { f with code := f.codeFrom seed }

/-- Frames leave on ports that are up, each at its SFD's time; `tte.out` holds those of the latest command that sent any. -/
def Channel.sendAt (c : Channel) (ports : List (Nat × Int)) (f : Frame) : Channel :=
  let l := (ports.filter fun p => c.portUp p.1).map fun p => (p.1, { f with port := Fin.ofNat 2 p.1, trx := p.2 })
  if l.isEmpty then c
  else c.tteUp fun t => { t with out := l, sent := t.sent || (f.hops != 0 && f.src != 0) }

/-- The delay on a port. -/
def waitOn (w : SlotWait) (p : Nat) : Nat := if p = 0 then w.p0 else w.p1

/-- Half the acceptance window in 2^-16 ns (R335, R354). -/
def Channel.halfWindow (c : Channel) : Nat := c.winHalf * 20 * 65536

/-- An own frame at its slot time `t` (R335): it waits behind a forwarded frame, and a port on which it would leave later
than half the acceptance window after its slot time withholds and counts it. The ports it leaves on, each with its time.
DEDUCED, unsafe: log entry 49. -/
def Channel.slotPorts (c : Channel) (ports : List Nat) (t : Int) (w : SlotWait) : List (Nat × Int) × Channel :=
  let up := ports.filter fun p => c.portUp p
  let late := up.filter fun p => decide (c.halfWindow < waitOn w p)
  ((up.filter fun p => !decide (c.halfWindow < waitOn w p)).map fun p => (p, t + (waitOn w p : Nat)),
    late.foldl (fun c _ => c.sat TTE_GUARD_COLL) c)

/-- SEQ of a frame that is not stream data: R337 gives it no rule, so it is a free value. -/
def Channel.drawSeq (c : Channel) : Nat × Channel := c.draw 65536

/-- Send a frame of a fixed KIND. -/
def Channel.sendKindAt (c : Channel) (kind : Nat) (ports : List (Nat × Int)) (payload : List Byte) : Channel :=
  let (seq, c) := c.drawSeq
  c.sendAt ports (c.ownFrameOf kind 0 seq (c.ringWord 1 24 6) false payload 0xFFFFFFFF 0)

/-- Send a frame of a fixed KIND on several ports at one time. -/
def Channel.sendKind (c : Channel) (kind : Nat) (ports : List Nat) (payload : List Byte) (at_ : Int) : Channel :=
  c.sendKindAt kind (ports.map fun p => (p, at_)) payload

/-! Slots (R342, R343, R346, R356). -/

/-- An offset of 40 ns units on the grid of the cycle, in 2^-16 ns. -/
def Channel.slotAt (c : Channel) (ofs : Nat) : Int := c.tte.grid + (ofs * 40 * 65536 : Nat)

/-- The entries of a stream in the row in force, in their order (R346). -/
def Channel.rowSlots (c : Channel) (id : Nat) : List (Nat × Nat) :=
  match (recsFor c.fol.recs 0x0502 c.me).find? fun r => bitsOf (r.w 1) 0 8 == c.rd TTE_ROLL_ROW with
  | none => []
  | some r => (rowEntries r).filter fun e => bitsOf e.1 0 7 == id

/-- The claim slots of the ring (R356): number, offset and MAXLEN, in the order of their numbers. -/
def Channel.claimSlots (c : Channel) : List (Nat × Nat × Nat) :=
  sortBy (fun a b => decide (a.1 < b.1)) ((recsFor c.fol.recs 0x0503 c.me).map fun r =>
    (bitsOf (r.w 1) 0 4, bitsOf (r.w 1) 8 18, bitsOf (r.w 2) 0 11))

/-- The claim slots granted to a stream, of a source where one is given. -/
def Channel.grantSlots (c : Channel) (src : Option Nat) (id : Nat) : List (Nat × Nat × Nat) :=
  c.claimSlots.filter fun s =>
    let g := kget 0 c.tte.grants s.1
    g != 0 && g % 128 == id && (src.all fun a => g / 128 == a)

/-- The first of them. -/
def Channel.grantSlot (c : Channel) (src : Option Nat) (id : Nat) : Option (Nat × Nat × Nat) := (c.grantSlots src id).head?

/-- The claim slot in which the node sends a granted stream of its own: from the cycle after the grant (R356).
DEDUCED, unsafe: log entry 52. -/
def Channel.ownGrant (c : Channel) (id : Nat) : Option (Nat × Nat × Nat) :=
  if c.addrT = 0 then none else (c.grantSlots (some c.addrT) id).find? fun s => !c.tte.fresh.contains s.1

/-- The fold offset of a row entry, none where it has none (R346). -/
def foldOfs (e : Nat × Nat) : Option Nat := if bitsOf e.2 0 18 = 0x3FFFF then none else some (bitsOf e.2 0 18)

/-- The offsets at which frames of a receive stream are due: those of its row entries and of its grants (R346, R352,
R356). -/
def Channel.dueOfs (c : Channel) (id : Nat) (fcopy : Bool) : List Nat :=
  if fcopy then (c.rowSlots id).filterMap foldOfs
  else (c.rowSlots id).map (fun e => bitsOf e.1 8 18) ++ (c.grantSlots none id).map fun s => s.2.1

/-- Reconstructed transmit time within the acceptance window of an offset (R352, R374). -/
def Channel.inWindow (c : Channel) (f : Frame) (ofs : Nat) : Bool :=
  decide ((f.trx - f.corr - c.ldIn f.port - c.slotAt ofs).natAbs ≤ c.winHalf * 40 * 65536)

/-- A source's bit in TTE_UNREL0 or TTE_UNREL1 (R353, R364). -/
def Channel.unreliable (c : Channel) (a : Nat) : Bool := decide (a < 63) && c.bit (TTE_UNREL_SRC (a / 32)) (a % 32)

/-- A window rejection of a source (R353): the third in a row marks it unreliable. Address 0 has no bit.
DEDUCED, unsafe: log entry 50. -/
def Channel.windowReject (c : Channel) (a : Nat) : Channel :=
  let c := c.sat TTE_WIN_REJECT
  if a = 0 ∨ 63 ≤ a then c
  else
    let n := kget 0 c.tte.rej a + 1
    let c := c.tteUp fun t => { t with rej := kset 0 t.rej a (if 3 ≤ n then 0 else n), pass := kset 0 t.pass a 0 }
    if n = 3 ∧ c.unreliable a = false then
      ((c.setBit (TTE_UNREL_SRC (a / 32)) (a % 32) true).sat TTE_WIN_UNRELCNT).raise 54
    else c

/-- A frame of an unreliable source that passes check 4 (R353): the sixteenth in a row makes it reliable again. -/
def Channel.windowPass (c : Channel) (a : Nat) : Channel :=
  let n := kget 0 c.tte.pass a + 1
  let c := c.tteUp fun t => { t with pass := kset 0 t.pass a (if 16 ≤ n then 0 else n) }
  if 16 ≤ n then (c.setBit (TTE_UNREL_SRC (a / 32)) (a % 32) false).tteUp fun t => { t with rej := kset 0 t.rej a 0 }
  else c

/-- A frame accepted from a source breaks its run of rejections (R353). -/
def Channel.runBreak (c : Channel) (a : Nat) : Channel := c.tteUp fun t => { t with rej := kset 0 t.rej a 0 }

/-- Checks 3 and 4 for a claim or enumeration frame (R352, R353): a node that has joined compares it with its slot. -/
def Channel.windowCheck (c : Channel) (f : Frame) (ofs : Nat) : Channel × Bool :=
  if !c.joined then (c, true)
  else
    let ok := c.inWindow f ofs
    if c.unreliable f.src then (if ok then c.windowPass f.src else c.windowReject f.src, false)
    else if ok then (c, true) else (c.windowReject f.src, false)

/-- The guardian's judgement (R354): the sync offset is above half the window; the lead's is 0, and a node without an
offset withholds (R375).
DEDUCED, unsafe: log entry 51. -/
def Channel.guardBlocks (c : Channel) : Bool :=
  if c.roleT = 3 then false
  else !c.joined || (match c.ntc.e with
    | some e => decide (c.halfWindow < e.natAbs)
    | none => true)

/-- An own stream, claim or enumeration frame before it is sent (R354): withheld and counted, the first of each run with
TT_GUARD, or let through. -/
def Channel.guardCheck (c : Channel) : Channel × Bool :=
  if c.guardBlocks then
    let first := !c.is TTE_GUARD_BLOCK
    let c := (c.sat TTE_GUARD_WITHHELD).wr TTE_GUARD_BLOCK 1
    (c.raiseIf first 53, false)
  else (c.wr TTE_GUARD_BLOCK 0, true)

/-- The node has slots in this cycle (R342, R361, R379): with a cycle frame in it, not in the cycle of a join.
DEDUCED, unsafe: log entry 52. -/
def Channel.hasSlots (c : Channel) : Bool :=
  c.tteOn && (c.roleT == 3 || c.roleT == 4) && c.tte.framed && !c.ntc.justJoined

/-- The node may send its stream frames (R342, R361, R379, R384): it has slots and has joined. -/
def Channel.maySend (c : Channel) : Bool := c.hasSlots && c.joined

/-- Unassigned, off and fresh: the node as the Folio or a block-reset release starts it (R344, R358, R359). -/
def Channel.tteStart (c : Channel) : Channel :=
  let c := { c with tte := {} }
  let c := (c.wrWord TTE_STAT 0).flag TTE_STAT_TOPO (c.ringWord 1 16 1 == 1)
  let a := if c.enumerated then 0 else bitsOf (((recsFor c.fol.recs 0x0505 c.me).head?.map fun r => r.w 1).getD 0) 0 6
  let c := ((c.wr TTE_STAT_ADDR a).wr TTE_STAT_ROLE 1).wr TTE_ROLL_NROWS (c.ringWord 2 16 9)
  c.brkRefresh

end Sys2Proof.Machine
end

