-- ==== Sys2Proof/Machine/FolioApply.lean ====
section
/-! DEFINITION. The application of an accepted Folio (R66, R67 of 02_folio.md): every record goes into the LCK fields and
tables of the block that owns it. -/

namespace Sys2Proof.Machine

/-- Copy record words `ws` of a record to the addresses that a function gives them. -/
def Channel.putWords (c : Channel) (r : FolRec) (addr : Nat → Nat) : List Nat → Channel
  | [] => c
  | w :: ws => (c.wrWord (addr w) (r.body.getD w 0)).putWords r addr ws

/-- Words 1 to n. -/
def wordsTo (n : Nat) : List Nat := (List.range n).map (· + 1)

/-- Apply every record of a kind that is scoped to this channel. -/
def Channel.applyEach (c : Channel) (l : List FolRec) (type : Nat) (f : Channel → FolRec → Channel) : Channel :=
  (recsFor l type c.me).foldl f c

/-- The first record of a kind that is not scoped. -/
def firstOf (l : List FolRec) (type : Nat) : Option FolRec := (recsOf l type).head?

/-- HALF of a carrier frequency in 10 Hz (R182, R215): the half-period in counts of 5 ns, nearest. -/
def halfOf (pwm : Nat) : Nat := (rdiv 10000000 pwm).toNat

/-- The deadlines CDL and VDL of R215. -/
def deadlines (half : Nat) : Nat × Nat :=
  let b := min 1200 (half / 5 + 200)
  (440 + b, 680 + b)

/-- KOS = √3 × PSI ÷ 0.8 of R232 in Q8.24, nearest; PSI in µWb.
DEDUCED, unsafe: log entry 53. -/
def kosOf (psi : Nat) : Nat := (((isqrt (12 * psi * psi * 2 ^ 42 / 10000000000 : Nat)).toNat + 1) / 2)

/-- CHANNELS (R35, R176, R182, R215). -/
def Channel.applyChannels (c : Channel) (l : List FolRec) : Channel :=
  let carr := ((firstOf l 0x0202).map fun r => bitsOf (r.w 0) 0 1).getD 0
  let c := c.applyEach l 0x0200 fun c r =>
    let c := (c.putWords r (fun w => FCE_PAR 0 (28 + w)) (wordsTo 2)).putWords r (fun w => FCE_PAR 1 (28 + w)) (wordsTo 2)
    let h := halfOf (bitsOf (r.w 1) 0 12)
    let c := (c.wr (FCE_PWM_HALF 0) h).wr (FCE_PWM_HALF 1) (halfOf (bitsOf (r.w 1) 16 12))
    (c.wr XLK_DEADL_CDL (deadlines h).1).wr XLK_DEADL_VDL (deadlines h).2
  let c := [0, 1].foldl (fun c k => (c.wr (FCE_PWM_ALIGNED k) carr).wr (FCE_PWM_SLOT k) c.me.idx) c
  let none_ := ([Chan.A, Chan.B, Chan.C].filter fun m => (recsFor l 0x0200 m).any fun r => bitsOf (r.w 1) 12 2 == 3)
  { c with f0 := { c.f0 with noSet := BitVec.ofNat 3 ((none_.map fun m => 2 ^ m.idx).foldl (· + ·) 0) } }

/-- MOTORS (R192, R193, R200, R203, R232, R251, R262, R283). -/
def Channel.applyMotors (c : Channel) (l : List FolRec) : Channel :=
  let c := match firstOf l 0x0300 with
    | some r =>
      let c := c.putWords r (fun w => FCE_PAR 0 w) (List.range 12)
      let c := (c.wr ENC_MOTOR_POLES (bitsOf (r.w 0) 0 8)).wr ENC_MOTOR_UNIT (bitsOf (r.w 11) 16 3)
      c.wr (GDR_OSK_KOS 0) (kosOf (r.w 4))
    | none => c
  let c := c.applyEach l 0x0301 fun c r =>
    (c.putWords r (fun w => FCE_PAR 1 w) (wordsTo 11)).wr (GDR_OSK_KOS 1) (kosOf (r.w 5))
  let c := c.applyEach l 0x0302 fun c r => c.putWords r (fun w => FCE_PAR (bitsOf (r.w 1) 0 1) (16 + w)) (wordsTo 7)
  let c := c.applyEach l 0x0303 fun c r => c.putWords r (fun w => FCE_PAR 1 (32 + 8 * bitsOf (r.w 1) 0 2 + w)) (wordsTo 5)
  let c := c.applyEach l 0x0304 fun c r =>
    let p := bitsOf (r.w 6) 0 16
    ((c.putWords r GDR_LL (wordsTo 6)).wr (FCE_REGEN_REGEN 0) p).wr (FCE_REGEN_REGEN 1) p
  c.applyEach l 0x0305 fun c r => c.putWords r GDR_GD (wordsTo 4)

/-- SENSORS (R189, R295, R298, R306, R308). -/
def Channel.applySensors (c : Channel) (l : List FolRec) : Channel :=
  let c := c.applyEach l 0x0400 fun c r =>
    let n := bitsOf (r.w 1) 0 3
    let c := (c.putWords r (ENC_UCFG n) (wordsTo 6)).wr (ENC_CMPV_CMPV n) (r.w 5)
    c.setBit ENC_STAT_STILL n true
  let c := c.applyEach l 0x0401 fun c r => c.putWords r (ENC_SCFG (bitsOf (r.w 1) 0 2)) (wordsTo 3)
  c.applyEach l 0x0402 fun c r =>
    (c.putWords r (fun w => FCE_PAR 0 (24 + w)) (wordsTo 3)).putWords r (fun w => FCE_PAR 1 (24 + w)) (wordsTo 3)

/-- SAFETYIN (R329). -/
def Channel.applySafety (c : Channel) (l : List FolRec) : Channel :=
  (c.applyEach l 0x0A00 fun c r => c.putWords r (SIN_CFG (bitsOf (r.w 1) 0 3)) (wordsTo 3)).sinStart

/-- FAULTMAP and the quiet period (R411, R418, R422, R540): a source without a record keeps its default class. -/
def Channel.applyFaults (c : Channel) (l : List FolRec) : Channel :=
  let c := (List.range 64).foldl (fun c n =>
    match (recsFor l 0x0700 c.me).find? fun r => bitsOf (r.w 1) 0 6 == n with
    | some r => (c.wr (FCC_CFG_VALUE n) (r.w 1)).wr (FCC_WIN_VALUE n) (r.w 2)
    | none => (c.wr (FCC_CFG_VALUE n) (defaultCfg n).1).wr (FCC_WIN_VALUE n) (defaultCfg n).2) c
  let c := c.wr FCC_EPIN_MINPW (((recsFor l 0x0701 c.me).head?.map fun r => bitsOf (r.w 1) 0 7).getD 10)
  { c with fcc := { c.fcc with loaded := true } }

/-- LIMITS and POWER (R88, R504, R506). -/
def Channel.applyLimits (c : Channel) (l : List FolRec) : Channel :=
  let c := match firstOf l 0x0901 with
    | some r =>
      let c := (c.wr FCC_QUIET_QUIET (r.w 1)).wr HRD_RECOV_LIMIT (bitsOf (r.w 2) 0 8)
      (c.wr HRD_PROOF_INTERVAL (bitsOf (r.w 2) 16 8)).wr CMP_DIGCFG_PERIOD (r.w 3)
    | none => c
  let c := match firstOf l 0x0D00 with
    | some r => c.putWords r (fun w => PWR_LDR (w + 1)) (List.range 4)
    | none => c
  (recsOf l 0x0D01).zipIdx.foldl (fun c p =>
    (c.wrWord (PWR_WSRC1 p.2) (p.1.body.getD 1 0)).wrWord (PWR_WSRC2 p.2) (p.1.body.getD 2 0)) c

/-- TETHER and cycle marks (R344, R345, R364, R385, R388): the node starts. -/
def Channel.applyTether (c : Channel) (l : List FolRec) : Channel :=
  let c := c.applyEach l 0x0500 fun c r => c.putWords r TTE_RING (wordsTo 4)
  let c := c.applyEach l 0x0501 fun c r => c.putWords r (TTE_CTXCFG (bitsOf (r.w 1) 0 7)) (wordsTo 3)
  let c := c.applyEach l 0x0504 fun c r =>
    let m := bitsOf (r.w 1) 0 3
    (c.wr (NTC_MKCFG1_VALUE m) (r.w 1)).wr (NTC_MKCFG2_VALUE m) (r.w 2)
  let c := (c.wr (TTE_DEVID_ID 0) Config.deviceId.toNat).wr (TTE_DEVID_ID 1) (Config.deviceId.toNat / 2 ^ 32)
  c.tteStart

/-- ISOBUS (R390): CAN0 starts. -/
def Channel.applyIsobus (c : Channel) : Channel := { c with can := { c.can with up := true } }

/-- TASKS (R151): EFFBUD of every task. -/
def Channel.applyTasks (c : Channel) (l : List FolRec) : Channel :=
  (tasksOf l).foldl (fun c o => c.wr (HRD_TASK_EFFBUD o.id) o.budget) c

/-- The memory of an image's TARGET (R53). -/
def targetMem (t : Nat) : Option MemId :=
  match t with
  | 1 => some .itcm
  | 2 => some .dtcm
  | 3 => some .fce0
  | 4 => some .fce1
  | 5 => some .nete
  | 6 => some .sram
  | _ => none

/-- IMAGES (R53, R54). -/
def Channel.applyImages (c : Channel) (l : List FolRec) : Channel :=
  c.applyEach l 0x0B00 fun c r =>
    match targetMem (imgTarget r) with
    | some m => c.setMem m ((c.mem m).writeBytes (imgLoad r) ((imgBytes l r).take (imgSize r)))
    | none => c

/-- Record kinds of the shared digest (R142). -/
def sharedKinds : List Nat :=
  [0x0202, 0x0200, 0x0300, 0x0302, 0x0402, 0x0201, 0x0A00, 0x0900, 0x0901, 0x0902, 0x0800, 0x0801, 0x0802]

/-- The shared digest (R142), as a number. -/
def sharedDigest (l : List FolRec) : BitVec 256 :=
  BitVec.ofNat 256 (leNat (sha256 ((l.filter fun r => sharedKinds.contains r.type).flatMap fun r => wordBytes r.body)))

/-- The retained copy (R66): FOLIO_LEN rounded up to 64 KiB at the top of SRAM.
DEDUCED, unsafe: log entry 23. -/
def Channel.retain (c : Channel) (bytes : List Byte) : Channel :=
  if 1048576 < bytes.length then c
  else
    let size := ceilDiv bytes.length 65536 * 65536
    let c := { c with sram := c.sram.writeBytes (0x20200000 - size) (bytes ++ List.replicate (size - bytes.length) 0) }
    { c.wr FOL_STAT_RETAINED 1 with fol := { c.fol with retained := size } }

/-- What the loaded Folio is (R71): BODY_HASH, VERSION, COMPAT, ROLLBACK. -/
def Channel.showFolio (c : Channel) (co : List Byte) : Channel :=
  let c := (List.range 8).foldl (fun c n => c.wr (FOL_HASH_VALUE n) (leAt co (0x1C + 4 * n) 4)) c
  ((c.wr FOL_VERSION_VALUE (coVersion co)).wr FOL_COMPAT_VALUE (coCompat co)).wr FOL_ROLLBACK_VALUE (coRollback co)

/-- The seal (R67, R69) and the release of FCE0, FCE1 and NETE, whose watchdogs start (R416); bring-up step 7 (R490).
DEDUCED, unsafe: log entry 24. -/
def Channel.seal (c : Channel) : Channel :=
  let c := ((c.wr STW_SEAL_SEAL 1).wr FOL_STAT_SEALED 1).wr FOL_STAT_STAGE 8
  let c := { c with fcc := { c.fcc with engines := 14 } }
  (((c.kick 1).kick 2).kick 3).wr PWR_BOOT_STEP 7

/-- The application of R67, in its order; the block enables come first, so that each block takes its configuration.
DEDUCED, unsafe: log entry 23. -/
def Channel.applyFolio (c : Channel) : Channel :=
  let l := (stage5 c.fol.spine c.fol.colophon c.fol.body).recs
  let c := { c.wr STW_BLKEN_BLK 0x1DFFF with
    enc := { c.enc.restart with pins := true },
    fol := { c.fol with recs := l, digest := sharedDigest l, accepted := false } }
  let c := ((c.applyChannels l).applyMotors l).applySensors l
  let c := ((c.applySafety l).applyFaults l).applyLimits l
  let c := ((c.applyTether l).applyIsobus.applyTasks l).applyImages l
  let c := (c.retain (c.fol.body ++ c.fol.colophon)).showFolio c.fol.colophon
  c.passThrough.seal.errRefresh

end Sys2Proof.Machine
end

