-- ==== Sys2Proof/Machine/Modes.lean ====
section
/-! DEFINITION. The redundancy level and the transitions of the mode (03_modes_and_two_faults.md), as pure functions of
what the herd agrees on. -/

namespace Sys2Proof.Machine

/-- Channels that have a record with a property among the scoped records of a type. -/
def declMask (l : List FolRec) (type : Nat) (p : FolRec → Bool) : Nat :=
  [Chan.A, Chan.B, Chan.C].foldl (fun m ch => if (recsFor l type ch).any p then m ||| 2 ^ ch.idx else m) 0

/-- Channels whose steering winding set is declared (R176). -/
def windDecl (l : List FolRec) : Nat := declMask l 0x0200 fun r => bitsOf (r.w 1) 12 2 != 3

/-- Channels whose pump is declared (R176). -/
def pumpDecl (l : List FolRec) : Nat := declMask l 0x0200 fun r => bitsOf (r.w 1) 28 2 != 3

/-- ENCU of STEER_MOTOR (R193). -/
def encuOf (l : List FolRec) : Nat := ((recsOf l 0x0300).head?.map fun r => bitsOf (r.w 11) 16 3).getD 0

/-- Channels whose motor encoder is declared (R307). -/
def encDecl (l : List FolRec) : Nat := declMask l 0x0400 fun r => bitsOf (r.w 1) 0 3 == encuOf l

/-- Channels whose road-wheel-angle sensor is declared (R308). -/
def rwaDecl (l : List FolRec) : Nat := declMask l 0x0401 fun r => (r.w 1).testBit 2

/-- Channels whose ring is declared (R50). -/
def ringDecl (l : List FolRec) : Nat := declMask l 0x0500 fun _ => true

/-- Counted instances of a resource (R75): declared, on a voting member, not lost by its HEALTH bit. -/
def countRes (decl view bit : Nat) (health : KMap Nat) : Nat :=
  ((chansOf (decl &&& view)).filter fun n => !(kget 0 health n).testBit bit).length

/-- A coil's end of a COIL_PAIR record (R51): channel and driver. -/
def coilEnds (r : FolRec) : List (Nat × Nat) :=
  [(bitsOf (r.w 0) 8 2, bitsOf (r.w 0) 10 2), (bitsOf (r.w 0) 16 2, bitsOf (r.w 0) 18 2)]

/-- Counted coils of a valve (R75). -/
def coilCount (r : FolRec) (view : Nat) (health : KMap Nat) : Nat :=
  ((coilEnds r).filter fun e => view.testBit (e.1 - 1) && !(kget 0 health e.1).testBit (5 + e.2)).length

/-- Level of the valve coils (R75). -/
def valveLevel (l : List FolRec) (view : Nat) (health : KMap Nat) : Option Int :=
  let vs := recsOf l 0x0201
  if vs.isEmpty then none
  else
    let lost := vs.filter fun r => coilCount r view health == 0
    if vs.all fun r => coilCount r view health == 2 then some 2
    else if lost.isEmpty then some 1
    else if lost.length = 1 || lost.all (fun r => (coilEnds r).all fun e => !view.testBit (e.1 - 1)) then some 0
    else some (-1)

/-- The least of a list of levels. -/
def leastLevel (x : Int) : List Int → Int
  | [] => x
  | y :: ys => leastLevel (min x y) ys

/-- Level of one resource, where it is declared at all (R76). -/
def resLevel (decl n : Nat) : List Int := if decl = 0 then [] else [(n : Int) - 1]

/-- The redundancy level and STW_DEPTH of a view (R75, R76, R110). HEALTH bits as in R113, from bit 0. -/
def countLevel (l : List FolRec) (view : Nat) (health : KMap Nat) : Int × Nat :=
  let herd := countMask view
  let wind := countRes (windDecl l) view 0 health
  let pump := countRes (pumpDecl l) view 1 health
  let encs := countRes (encDecl l) view 2 health
  let rwas := countRes (rwaDecl l) view 3 health
  let ring := countRes (ringDecl l) view 4 health
  let vs := recsOf l 0x0201
  let coils := vs.map fun r => coilCount r view health
  let coilmin := coils.foldl min (if vs.isEmpty then 0 else 2)
  let vlost := (coils.filter (· == 0)).length
  let lev := leastLevel ((herd : Int) - 1) (resLevel (windDecl l) wind ++ resLevel (pumpDecl l) pump
    ++ resLevel (encDecl l) encs ++ resLevel (rwaDecl l) rwas ++ resLevel (ringDecl l) ring
    ++ (valveLevel l view health).toList)
  (lev, herd + wind * 2 ^ 2 + pump * 2 ^ 4 + encs * 2 ^ 6 + rwas * 2 ^ 8 + ring * 2 ^ 10 + coilmin * 2 ^ 12
    + vlost * 2 ^ 16 + (lev + 1).toNat * 2 ^ 20)

/-- Mode of a redundancy level (R78). -/
def modeOfLevel (lev : Int) : Nat := if lev = 2 then 2 else if lev = 1 then 3 else if lev = 0 then 4 else 5

/-- A field of the TIMERS record (R88). -/
def timerField (l : List FolRec) (w lsb width : Nat) : Nat :=
  ((recsOf l 0x0901).head?.map fun r => bitsOf (r.w w) lsb width).getD 0

/-- SIMPLEX_T and IDEG_T in rounds of 100 µs (R88). -/
def simplexRounds (l : List FolRec) : Nat := timerField l 0 0 16 * 10000
def idegRounds (l : List FolRec) : Nat := timerField l 0 16 16 * 10000

/-- What a round brings to the mode (R99). -/
structure ModeIn where
  level : Int
  members : Nat
  /-- A REACT 1 pair is voted ACTIVE (R94). -/
  stop : Bool
  /-- The request every voting member wrote, 0 if none (R111). -/
  req : Nat
  /-- The voted key is OFF and may act (R499). -/
  keyOff : Bool
  /-- A planned absence is granted in FULL (R138). -/
  grant : Bool
  /-- Rung left by a wake (R99). -/
  wake : Nat
  deriving DecidableEq, Repr

/-- The timer has reached its limit (R89, R92). -/
def expired (t : Option Nat) (limit : Nat) : Bool := match t with
  | some n => decide (limit ≤ n)
  | none => false

/-- Causes of SAFE-STOP in this round (R99, R107).
DEDUCED, unsafe: log entry 25. -/
def Herd.stopCauses (h : Herd) (l : List FolRec) (i : ModeIn) : List Nat :=
  let drive := h.mode == 2 || h.mode == 3 || h.mode == 4
  (if h.mode == 4 && expired h.simplex (simplexRounds l) then [1] else [])
    ++ (if drive && expired h.idegRun (idegRounds l) then [2] else [])
    ++ (if i.stop && (drive || h.mode == 1 || h.mode == 6) then [3] else [])
    ++ (if drive && h.hold.isNone && decide (i.level < 0) then [4] else [])
    ++ (if drive && i.req == 5 then [5] else [])
    ++ (if drive && i.keyOff && !h.stationary then [6] else [])
    ++ (if h.mode == 6 && !h.stationary then [7] else [])
    ++ (if (h.mode == 1 && (i.members == 3 || h.window) || h.mode == 7 && (i.wake == 2 || i.wake == 3))
          && decide (i.level < 1) then [8] else [])

/-- The mode that the faults, timers, level and key of the round give, before firmware requests (R78, R99, R106). -/
def Herd.baseMode (h : Herd) (l : List FolRec) (i : ModeIn) : Nat :=
  let drive := h.mode == 2 || h.mode == 3 || h.mode == 4
  if !(h.stopCauses l i).isEmpty then 5
  else if i.keyOff && h.stationary && 2 ≤ h.mode && h.mode ≤ 6 then 7
  else if drive then
    if h.hold.isSome then h.mode
    else
      let m := modeOfLevel i.level
      if m = 2 ∧ (h.planned = true ∨ (i.grant = true ∧ h.mode = 2)) then 3 else m
  else if h.mode = 1 then (if i.members = 3 ∨ h.window = true then modeOfLevel i.level else 1)
  else if h.mode = 7 then (if i.wake = 2 ∨ i.wake = 3 then modeOfLevel i.level else 7)
  else h.mode

/-- The mode after an agreed firmware request (R99, R106, R111), and whether the request was accepted. -/
def Herd.reqMode (h : Herd) (i : ModeIn) (m : Nat) (lists5 : Bool) : Nat × Bool :=
  if i.req = 5 then (m, lists5)
  else if i.req = 6 ∧ 2 ≤ m ∧ m ≤ 5 ∧ h.stationary = true then (6, true)
  else if i.req = 7 ∧ 2 ≤ m ∧ m ≤ 6 ∧ h.stationary = true then (7, true)
  else if i.req = 2 ∧ m = 6 ∧ h.stationary = true ∧ 1 ≤ i.level then (modeOfLevel i.level, true)
  else (m, false)

/-- Brake demand of R95: on entry to SAFE-STOP it rises, or holds at once when stationary (R98). Where stationary is lost
again in SAFE-STOP, the demand goes from the hold back to DECEL.
DESIGN CHOICE, unsafe: log entry 83. -/
def Herd.brakeFor (h : Herd) (m : Nat) : Nat :=
  if m ≠ 5 then 0
  else if h.stationary then 4
  else if h.mode ≠ 5 then 1
  else if h.brake = 4 then 2 else h.brake

/-- DECEL in 0.01 m/s² and RISE in rounds of the SAFE-STOP record (R81, R95). -/
def decelOf (l : List FolRec) : Nat := limitField l 5 3 0 12
def riseRounds (l : List FolRec) : Nat := limitField l 5 3 16 16 * 10

/-- The deceleration demanded after `n` rounds of SAFE-STOP (R95): a linear rise to DECEL over RISE. -/
def rampDemand (l : List FolRec) (n : Nat) : Nat :=
  if riseRounds l ≤ n then decelOf l else decelOf l * n / riseRounds l

/-- One round of the mode (R78, R89, R99, R104 to R107): the new agreed value and whether the request was accepted. A
timer started after the hold of R105 counts from the real fault; `since` holds those rounds.
DEDUCED, unsafe: log entry 25. -/
def Herd.modeStep (h : Herd) (l : List FolRec) (i : ModeIn) (since : Nat) : Herd × Bool :=
  let causes := h.stopCauses l i
  let base := h.baseMode l i
  let (m, ok) := h.reqMode i base (causes.contains 5)
  let cause :=
    if h.mode = 6 ∧ m ≠ 6 ∧ causes.isEmpty then 0
    else match causes.min? with
      | some k => if base = 5 then k else h.stopcause
      | none => h.stopcause
  let from_ := if base = h.mode then h.mode else if m = base then h.mode else base
  let brake := h.brakeFor m
  let run := if m = 5 ∧ h.mode = 5 then h.brakeRun + 1 else 0
  let h' := { h with
    mode := m, prev := if m = h.mode ∧ base = h.mode then h.prev else from_, stopcause := cause, brake := brake,
    brakeRun := run, causes := causes,
    demand := if brake = 1 then rampDemand l run else if brake = 2 then decelOf l else if brake = 0 then 0 else h.demand,
    planned := m == 3 && (h.planned || (i.grant && h.mode == 2)),
    simplex := if m ≠ 4 then none else if h.mode = 4 then h.simplex.map (· + 1) else some since,
    idegRun := if expired h.idegRun (idegRounds l) then none else h.idegRun.map (· + 1) }
  (h', ok)

/-- Remaining time of a timer in units of 10 ms (R110), rounded up. -/
def remaining (t : Option Nat) (limit : Nat) : Nat := match t with
  | some n => ceilDiv (limit - n) 100
  | none => 0

/-- Instances of this channel lost with severe status (R113, R405): bit 0 winding set, 1 pump, 2 motor encoder, 3
road-wheel-angle sensor, 4 ring, 5 to 8 coil drivers 0 to 3. A detector that failed the self-test keeps its instances
uncounted too (R490). -/
def Channel.health (c : Channel) : Nat :=
  let sev := (List.range 64).filter c.severe
  let gates := c.pow.stLock.toNat
  let chan := sev.any fun n => (removes n).channel
  let wind := chan || sev.any (fun n => (removes n).winding) || bitsOf gates 0 6 != 0
    || (c.severe 19 && !c.bit (FCE_STAT_OFSOK 0) 0)
  let pump := chan || sev.any (fun n => (removes n).pump) || bitsOf gates 6 6 != 0
    || (c.severe 19 && !c.bit (FCE_STAT_OFSOK 1) 1)
  let enc := chan || c.severe 21 || (c.severe 44 && c.is (ENC_USTAT_UFAULT c.encu))
  let rwa := chan || (c.severe 45 && c.rwaFault)
  let ring := chan || c.severe 50
  let all := chan || sev.any fun n => (removes n).coils
  let lost := fun n => match n with
    | 0 => c.f1.sol0.lost
    | 1 => c.f1.sol1.lost
    | 2 => c.f1.sol2.lost
    | _ => c.f1.sol3.lost
  let coil := fun n => all || gates.testBit (13 + n) || (c.severe 26 && lost n)
    || (c.severe 38 && c.bit GDR_LOCK_LOCK (13 + n))
  let b (p : Bool) (n : Nat) : Nat := if p then 2 ^ n else 0
  b wind 0 + b pump 1 + b enc 2 + b rwa 3 + b ring 4 + b (coil 0) 5 + b (coil 1) 6 + b (coil 2) 7 + b (coil 3) 8

/-- The steward's mode, timer, depth, limit and speed registers (R74, R83, R92, R95, R109, R110, R317, R331): the herd's
values in a voting member, the channel's own in any other. A split channel counts its own resources, so that its duties run
within the limits of its mode (R173). -/
def Channel.showMode (c : Channel) : Channel :=
  let h := c.hrd.cur
  let l := c.fol.recs
  if c.voting then
    let c := ((c.wr STW_MODE_STOPCAUSE h.stopcause).wr STW_MODE_MEMBER 1).flag STW_MODE_FAWN c.hrd.fawn
    let c := (c.flag STW_MODE_IDEG h.ideg).flag STW_MODE_PLANNED h.planned
    let c := (c.wr STW_MODE_PREV h.prev).wr STW_MODE_MODE h.mode
    let c := (c.wr STW_MODETMR_SIMPLEX_REM (remaining h.simplex (simplexRounds l))).wr STW_MODETMR_IDEG_REM
      (remaining h.idegRun (idegRounds l))
    let c := c.wrWord STW_DEPTH (BitVec.ofNat 32 h.depth)
    let c := (c.wr STW_LIMIT_TORQUE (min (limitField l h.mode 1 16 16) (c.rd STW_DEPTH_WIND * 333))).wr STW_LIMIT_RATE
      (limitField l h.mode 1 0 16)
    let spd := if h.mode = 5 || c.hrd.fawn then 0 else limitField l h.mode 2 0 16
    let spd := if h.ideg then min spd (limitField l 4 2 0 16) else spd
    let hold := c.reactActive h.votes 2
    ((c.flag STW_SPDREQ_IDEG h.ideg).flag STW_SPDREQ_HOLD hold).wr STW_SPDREQ_SPEED (if hold then 0 else spd)
  else
    let m := if c.lockstep then 1 else c.rd STW_MODE_MODE
    let reqref := c.rd STW_MODE_REQREF
    let prev := if c.lockstep then 0 else c.rd STW_MODE_PREV
    let c := (((c.wrWord STW_MODE 0).wr STW_MODE_REQREF reqref).wr STW_MODE_PREV prev).wr STW_MODE_MODE m
    let depth := if c.lockstep then 0 else (countLevel l (maskOf c.me.num) [(c.me.num, c.health)]).2
    let c := (c.wrWord STW_MODETMR 0).wrWord STW_DEPTH (BitVec.ofNat 32 depth)
    let c := (c.wr STW_LIMIT_TORQUE (min (limitField l m 1 16 16) (c.rd STW_DEPTH_WIND * 333))).wr STW_LIMIT_RATE
      (limitField l m 1 0 16)
    ((c.wrWord STW_SPDREQ 0).wr STW_SPDREQ_SPEED (limitField l m 2 0 16)).splitShow

end Sys2Proof.Machine
end

