-- ==== Sys2Proof/Machine/HerdOps.lean ====
section
/-! DEFINITION. The herd engine's packets, roles and registers (R112 to R118, R151 of 04_herd_placement.md). -/

namespace Sys2Proof.Machine

/-- Change the herd engine's part. -/
def Channel.hrdUp (c : Channel) (f : Hrd → Hrd) : Channel := { c with hrd := f c.hrd }

/-- Change the agreed value, the one in force and the one decided. -/
def Channel.herdUp (c : Channel) (f : Herd → Herd) : Channel :=
  c.hrdUp fun x => { x with cur := f x.cur, next := x.next.map fun n => (f n.1, n.2) }

/-- The role (R118, HRD_STAT.ROLE). -/
def Channel.role (c : Channel) : Nat := c.rd HRD_STAT_ROLE

/-- The channel is a shadow. -/
def Channel.isShadow (c : Channel) : Bool := c.role == 2

/-- Bits of LINKS that end at a channel (R113): bit 0 A–B, 1 B–C, 2 C–A. -/
def ownLinks : Chan → Nat
  | .A => 5
  | .B => 3
  | .C => 6

/-- Every PROOF_CONDITIONS record holds here (R149, R150). -/
def Channel.pcok (c : Channel) : Bool :=
  let h := c.hrd.cur
  (recsOf c.fol.recs 0x0902).all fun r =>
    let arg := r.w 1
    match bitsOf (r.w 0) 0 8 with
    | 1 => h.stationary
    | 2 => decide (c.hrd.speed ≤ arg)
    | 3 => decide (c.rd HRD_PROOFIN_RATE ≤ arg)
    | 4 => voteOf h.votes arg == 1
    | 5 => decide (c.rd HRD_PROOFIN_BRAKE ≤ arg)
    | _ => false

/-- The herd may take a single absence: FULL, no rotation, no absence (R118, R162, R396, R515). -/
def Herd.free (h : Herd) : Bool := h.mode == 2 && h.rotKind == 0 && h.absent == 0

/-- LCAUSE announced (R113, R118): 0 when the channel does not ask to leave. -/
def Channel.lcause (c : Channel) : Nat :=
  let h := c.hrd.cur
  if !c.voting then 0
  else if h.absent = c.me.num ∧ h.left = false then h.absKind
  else if c.hrd.repair then 2
  else if c.cmp.latent && h.free then 3
  else if c.hrd.relief && h.free && !h.relief then 4
  else if c.is STW_DBG_HPEND && (h.free || (h.mode == 6 && h.rotKind == 0 && h.absent == 0)) then 5
  else 0

/-- The role announced (R118): a member that leaves, or asks to, announces ROLE 5. -/
def Channel.announced (c : Channel) : Nat := if c.voting then (if c.lcause = 0 then 1 else 5) else c.role

/-- The own HB1 (R113). -/
def Channel.hb1 (c : Channel) : BitVec 64 :=
  let n := c.me.num
  let h := c.hrd.cur
  let inHerd := c.voting || c.isShadow
  BitVec.ofNat 64 (1 + n * 2 ^ 4 + n * 2 ^ 6 + c.announced * 2 ^ 8 + (if inHerd then h.view else 0) * 2 ^ 11
    + (c.hrd.links &&& ownLinks c.me) * 2 ^ 14 + c.health * 2 ^ 17 + c.rd HRD_ROUND_VALUE % 256 * 2 ^ 26
    + h.gen % 65536 * 2 ^ 34 + (if c.voting then c.hrd.mreq else 0) * 2 ^ 50
    + (if c.voting then c.hrd.hreq else 0) * 2 ^ 53 + c.lcause * 2 ^ 55 + (if c.voting && c.pcok then 2 ^ 58 else 0))

/-- An HB2: the HB1 with KIND and SENDER changed (R113). -/
def relayOf (me : Chan) (p : BitVec 64) : BitVec 64 := BitVec.ofNat 64 (p.toNat / 64 * 64 + 2 + me.num * 16)

/-- An SB2 of an SB1 (R325). -/
def relaySb (me : Chan) (p : BitVec 64) : BitVec 64 := BitVec.ofNat 64 (p.toNat / 64 * 64 + 6 + me.num * 16)

/-- Fields of a heartbeat (R113). -/
def hbRole (p : BitVec 64) : Nat := pktField p 8 3
def hbView (p : BitVec 64) : Nat := pktField p 11 3
def hbLinks (p : BitVec 64) : Nat := pktField p 14 3
def hbHealth (p : BitVec 64) : Nat := pktField p 17 9
def hbGen (p : BitVec 64) : Nat := pktField p 34 16
def hbMreq (p : BitVec 64) : Nat := pktField p 50 3
def hbHreq (p : BitVec 64) : Nat := pktField p 53 2
def hbLcause (p : BitVec 64) : Nat := pktField p 55 3
def hbPcok (p : BitVec 64) : Bool := pktField p 58 1 == 1

/-- A heartbeat whose ROLE is member: it votes, a leaving member included (R118, R138). -/
def hbMember (p : BitVec 64) : Bool := hbRole p == 1 || hbRole p == 5

/-- A packet of class 2 is taken (R112, R113, R23): the CRC good, the kind right, in time, from a peer, and a ROLE that
is not reserved (R118). An HB1 comes from its origin, an HB2 from the third channel. -/
def hbGood (me : Chan) (kind limit : Nat) (pkt : BitVec 64) (off : Nat) : Bool :=
  let o := pktField pkt 6 2
  let sender := pktField pkt 4 2
  pktField pkt 0 4 == kind && decide (off ≤ limit) && o != 0 && sender != 0 && o != me.num && sender != me.num
    && ((kind == 1) == (sender == o)) && decide (hbRole pkt ≤ 5)

/-- The heartbeats held at the decision point (R115): direct before relayed, the own one included. -/
def Channel.held (c : Channel) : List (Nat × BitVec 64) :=
  [Chan.A, Chan.B, Chan.C].filterMap fun ch =>
    let d := if ch = c.me then c.hrd.hb1Out
      else match kget none c.hrd.direct ch.idx with
        | some p => some p
        | none => kget none c.hrd.relayed ch.idx
    d.map fun p => (ch.num, p)

/-- Local states of the pairs held of the round (R325), by channel number; the own ones as sent. -/
def Channel.heldStates (c : Channel) : List (Nat × Nat) :=
  [Chan.A, Chan.B, Chan.C].filterMap fun ch =>
    let d := if ch = c.me then some (pktField c.sin.sb1Out 16 18)
      else match kget none c.sin.direct ch.idx with
        | some p => some p
        | none => kget none c.sin.relayed ch.idx
    d.map fun p => (ch.num, p)

/-- A channel's held heartbeat. -/
def hbOf (l : List (Nat × BitVec 64)) (n : Nat) : Option (BitVec 64) := (l.find? fun p => p.1 == n).map Prod.snd

/-- The link between two channels is up, as their heartbeats say (R113, R114). -/
def linkUp (l : List (Nat × BitVec 64)) (x y : Nat) : Bool :=
  let ok := fun n => match hbOf l n with
    | some p => (hbLinks p).testBit (linkBit x y)
    | none => false
  ok x && ok y

/-- Every pair of a set is joined by a link that is up. -/
def joined (l : List (Nat × BitVec 64)) (m : Nat) : Bool :=
  (chansOf m).all fun x => (chansOf m).all fun y => x == y || linkUp l x y

/-- The largest joined set of the candidates; of equally large ones, that whose letters come first (R115). -/
def largestSet (l : List (Nat × BitVec 64)) (cand : Nat) : Nat :=
  (([7, 3, 5, 6, 1, 2, 4].filter fun m => m &&& cand == m && joined l m).head?).getD 0

/-- The registers of the herd engine (R151); the carrier reference has no error of its own (R206). -/
def Channel.showHerd (c : Channel) : Channel :=
  let h := c.hrd.cur
  let inHerd := c.voting || c.isShadow
  let c := ((c.wr HRD_STAT_SHADOW (if inHerd then maskOf h.shadow else 0)).wr HRD_STAT_ABSENT
    (if inHerd then maskOf h.absent else 0)).wr HRD_STAT_VIEW (if inHerd then h.view else 0)
  let c := c.wr HRD_STAT_REF (if inHerd then (chansOf h.view).head?.getD 0 else 0)
  let c := if c.rd HRD_STAT_REF = c.me.num then (c.wr (FCE_CARR_ERR 0) 0).wr (FCE_CARR_ERR 1) 0 else c
  let c := (c.wr HRD_STAT_ROLE c.announced).wr HRD_GEN_VALUE h.gen
  let kind := if h.rotKind ≠ 0 then h.rotKind else if h.absent ≠ 0 then 3 else 0
  let step := if kind = 0 then 0 else if h.absent = 0 then 5 else if !h.left then 1 else h.absStep
  let c := ((c.wr HRD_ROT_KIND kind).wr HRD_ROT_STEP step).wr HRD_ROT_CH h.absent
  let c := ((c.wr HRD_ROT_DONE h.rotDone).wr HRD_ROT_CAUSE h.cause).wr HRD_ROT_ABORTS (min 255 h.aborts)
  let c := (c.flag HRD_ROT_COMMITPEND h.commitPend).wr HRD_SHADOW_MISMATCH (min 65535 h.mismatch)
  let c := (c.wr HRD_SHADOW_CYCLES (min 65535 h.shCycles)).wr HRD_RECOV_COUNT (min 255 h.recov.length)
  let c := (c.wr HRD_RECOV_REFUSED (min 65535 h.refused)).flag HRD_PROOF_PENDING h.proofDue
  let c := if h.overdue then c.wr HRD_PROOF_OVERDUE 1 else c
  c.wr HRD_PROOF_ELAPSED (min 65535 (h.proofBase + (c.hrd.round - h.proofFrom) / 600000))

/-- All of it after a change of the agreed value or of the role. -/
def Channel.showAll (c : Channel) : Channel :=
  let c := c.showHerd.showMode
  if c.voting || c.isShadow then c.showPlace c.hrd.cur else c

/-- Cause bit 8 of both bridges (R236): a granted absence after B2, PARK and P1 IDLE, a split channel outside SERVICE. -/
def Channel.showLeave (c : Channel) : Channel :=
  let h := c.hrd.cur
  let out := (c.voting && (h.mode == 7 || h.idle)) || c.role == 3 || (!c.lockstep && c.rd STW_MODE_MODE != 6)
  if out then
    if c.causes .P &&& 256 = 0 then c.pumpLeave.setCauses 8 true else c.setCauses 8 true
  else c.setCauses 8 false

/-- The resource id of the voice (R392); `none` without a TRANSPORT record. -/
def Channel.voiceId (c : Channel) : Option Nat := (recsOf c.fol.recs 0x0601).head?.map fun r => bitsOf (r.w 0) 16 8

/-- The voice's role follows HRD_RES at a switch (R393, R395): the channel that holds the resource leaves restricted
operation, and VOICE_TX_START starts its transmission; a former voice drops its queue, and its transmit sessions end
with RES 2 (R402). A split channel and one outside the herd are never the voice.
DEDUCED, unsafe: log entry 55. -/
def Channel.voiceRefresh (c : Channel) : Channel :=
  let holds := match c.voiceId with
    | some id => c.rd (HRD_RES_HOLDER id) == c.me.num
    | none => false
  let now := c.voting && c.lockstep && holds && c.blockOn 12
  let was := c.is CAN_ISTAT_VOICE
  if now == was then c
  else
    let c := (c.flag CAN_ISTAT_VOICE now).flag CAN_ISTAT_RESTRICT (!now)
    if now then { c with can := { c.can with on := false } }
    else
      let busy := c.can.tx0.isSome || c.can.tx1.isSome || c.can.pend0.isSome || c.can.pend1.isSome
      let c := { c with can := { c.can with on := false, queue := [], tx0 := none, tx1 := none, pend0 := none, pend1 := none } }
      if busy then (c.wr CAN_TXCTL_RES 2).wr CAN_TXCTL_BUSY 0 else c

/-- The channel leaves the herd without an absence (R115, R116): it listens and asks again. -/
def Channel.outOfHerd (c : Channel) (role : Nat) : Channel :=
  let c := { c with voting := false }.hrdUp fun x =>
    { x with
      cur := x.cur.kept, next := none, fawn := false, asking := false, mreq := 0, hreq := 0, repair := false, jobs := [],
      reportNow := [], report := [] }
  let c := (c.wr HRD_STAT_ROLE role).maskIn 0 c.tb.toNat
  (c.dropObjects.showPlace {}).showAll.voiceRefresh

end Sys2Proof.Machine
end

