-- ==== Sys2Proof/Machine/HerdDecide.lean ====
section
/-! DEFINITION. The membership decision (R115 to R123, R128 to R149 of 04_herd_placement.md, R99 to R108 of
03_modes_and_two_faults.md, R496 to R499 of 18_bring_up_and_power.md). -/

namespace Sys2Proof.Machine

/-- What a member knows of the others beside their heartbeats: voting members whose filtered key reads OFF (R499), P1
requests and new severe sources of the members (R496, R498), overrun reports (R132), the step of the absent channel (R151)
and the abort cause its bring-up gives (R145: 2 Folio load failed, 3 self-test failed, 0 neither), channels whose latest
reset the MP asked for (R29), and the members' BODY_HASHes (R121). -/
structure CrossIn where
  keysOff : List Nat
  p1In : List Nat
  p1Out : List Nat
  newSev : List Nat
  reports : List (Nat × Nat)
  absStep : Nat
  absFail : Nat
  mpResets : List Nat
  hashes : List (BitVec 256)
  deriving DecidableEq, Repr

/-- B1 and B2 of a decision that takes effect at round start `r1` (R133). -/
def boundary1 (r1 : Nat) : Nat := (r1 / 10 + 1) * 10
def boundary2 (r1 : Nat) : Nat := boundary1 r1 + 10

/-- The channels of a mask without one. -/
def without (m n : Nat) : Nat := if m.testBit (n - 1) then m - maskOf n else m

/-- The view before admissions and departures: the joined set of R115 among the members of the view, cut to the
intersection of R116 when a member of the same GEN reports another view. -/
def nextView (h : Herd) (hbs : List (Nat × BitVec 64)) : Nat × Bool :=
  let cand := hbs.foldl (fun m p => if hbMember p.2 && h.view.testBit (p.1 - 1) then m ||| maskOf p.1 else m) 0
  let v := largestSet hbs cand
  let same := (hbs.filter fun p => hbMember p.2 && hbGen p.2 == h.gen % 65536).map fun p => hbView p.2
  let split := same.any fun w => w != h.view
  (if split then same.foldl (fun m w => m &&& w) v else v, split)

/-- HEALTH of the held channels, by number. -/
def healthOf (hbs : List (Nat × BitVec 64)) : KMap Nat := hbs.foldl (fun m p => kset 0 m p.1 (hbHealth p.2)) []

/-- BODY_HASH of the loaded Folio (R71). -/
def Channel.bodyHash (c : Channel) : BitVec 256 :=
  (List.range 8).foldl (fun a n => a ||| (BitVec.setWidth 256 (c.regs.word (FOL_HASH n)) <<< (32 * n))) 0

/-- A planned absence is granted (R137, R138, R140, R162, R396, R515). `lw` is the level without the channel. -/
def Herd.grant (h : Herd) (n kind r1 : Nat) (health : KMap Nat) (lw : Int) : Herd :=
  { h with
    absent := n, absKind := kind, b2 := boundary2 r1, left := false, absHealth := health, absLevel := lw,
    absMode := h.mode, absStep := 1, gap := none, relief := h.relief || kind == 4 }

/-- A rotation ends by an abort (R145, R149).
DEDUCED, unsafe: log entry 31. -/
def Herd.endRot (h : Herd) (cause r : Nat) : Herd :=
  if h.rotKind = 0 then { h with cause := cause }
  else
    { h with
      cause := cause, aborts := h.aborts + 1, rotKind := 0, rotOrder := [], gap := none,
      proofRetry := if h.rotKind = 2 then r + 600000 else h.proofRetry }

/-- An abort of the absence in progress (R145, R146): a shadow of a proof test votes at the next boundary, a shadow of
an update rotation, which runs the TRIAL Folio, ends. `back` is the level that counts the returning channel (R105). -/
def Herd.abort (h : Herd) (cause r : Nat) (back : Int) : Herd :=
  let a := h.absent
  let shadowed := h.shadow == a
  let h' := { h.endRot cause r with absent := 0, absKind := 0, absStep := 0 }
  if !h.left || cause = 2 || cause = 3 then { h' with planned := false }
  else
    let h' := { h' with ret := a, hold := if cause = 1 ∧ 1 ≤ back then some 0 else none }
    if !shadowed then h'
    else if h.rotKind = 1 then { h' with shadow := 0, shDone := false }
    else { h' with shNeed := 0, shDone := true }

/-- The instances of a channel that the level counts (R75), as bits of HEALTH. -/
def countedBits (l : List FolRec) (n : Nat) : Nat :=
  let b (d k : Nat) : Nat := if d.testBit (n - 1) then 2 ^ k else 0
  let coil (k : Nat) : Nat := if (recsOf l 0x0201).any fun r => (coilEnds r).contains (n, k) then 2 ^ (5 + k) else 0
  b (windDecl l) 0 + b (pumpDecl l) 1 + b (encDecl l) 2 + b (rwaDecl l) 3 + b (ringDecl l) 4
    + coil 0 + coil 1 + coil 2 + coil 3

/-- A fault since the grant, or since the gap began, has removed a counted instance of a member (R105, R145): of every
member that still votes, the leaving channel before B2 included. -/
def Herd.memberFault (h : Herd) (l : List FolRec) (hbs : List (Nat × BitVec 64)) : Bool :=
  (chansOf h.view).any fun n => !(n == h.absent && h.left) && (match hbOf hbs n with
    | some p => !hbMember p || hbHealth p &&& (511 - kget 0 h.absHealth n % 512) &&& countedBits l n != 0
    | none => true)

/-- The cause that aborts the absence in progress, or the rotation in its gap, in this round, 0 if none (R145): a fault
of a member (for a repair absence one that lowers the level, R140), the bring-up of the absent channel, a mismatch of its
shadow (`mis`), the agreed abort request. A debug absence (R515) has no abort causes.
DEDUCED, unsafe: log entry 31. -/
def Herd.abortCause (h : Herd) (l : List FolRec) (hbs : List (Nat × BitVec 64)) (level : Int) (x : CrossIn) (agreed : Nat)
    (mis : Bool) : Nat :=
  if h.absent = 0 then (if h.rotKind ≠ 0 ∧ h.memberFault l hbs = true then 1 else 0)
  else if h.absKind = 5 then 0
  else
    let fault := if h.absKind = 2 then decide (level < h.absLevel) else h.memberFault l hbs
    if fault then 1 else if h.left = true ∧ x.absFail ≠ 0 then x.absFail else if mis then 4 else if agreed = 3 then 6 else 0

/-- The mode that a round gives ends the absence in progress (R145 cause 5): it leaves DUPLEX with PLANNED = 1, or for a
repair absence it changes by a mode request, a stop demand or key-off. A debug absence (R515) has no abort causes. -/
def Herd.leaves5 (h m : Herd) : Bool :=
  h.absent != 0 && h.absKind != 5 &&
    (if h.absKind = 2 then m.mode != h.absMode && (m.mode == 6 || m.mode == 7 ||
        (m.mode == 5 && (m.stopcause == 3 || m.stopcause == 5 || m.stopcause == 6)))
     else m.mode != 3 || !m.planned)

/-- A channel votes again (R141, R144, R148): its absence is over; the rotation goes on to its next channel after 10
control cycles, or is complete. -/
def Herd.voted (h : Herd) (n r1 : Nat) : Herd :=
  let h := if h.ret = n then { h with ret := 0, hold := none, planned := false } else h
  if h.absent = n ∧ n ≠ 0 then
    let rot := h.rotKind
    let single := rot = 0
    let h := { h with absent := 0, absKind := 0, absStep := 0, left := false, planned := false }
    if single then h
    else
      let h := { h with rotDone := h.rotDone ||| maskOf n, rotOrder := h.rotOrder.filter fun k => k != n }
      if h.rotOrder.isEmpty then
        if rot = 1 then { h with rotKind := 0, commitPend := true, newHash := none }
        else { h with rotKind := 0, proofBase := 0, proofFrom := r1, proofDue := false }
      else { h with gap := some (r1 + 100) }
  else h

/-- The request that every voting member holds, 0 if they differ. -/
def agreedOf (f : BitVec 64 → Nat) (hbs : List (Nat × BitVec 64)) (view : Nat) : Nat :=
  match (hbs.filter fun p => view.testBit (p.1 - 1) && hbMember p.2).map fun p => f p.2 with
  | [] => 0
  | x :: xs => if xs.all fun y => y == x then x else 0

/-- The grants of this round (R118, R137, R140, R141, R162, R396, R515). `news` are the channels that already run the
rotation's new Folio (R147); `lim` is RECOV_LIM. Answers the new value and whether a rotation began. -/
def Herd.grants (h : Herd) (l : List FolRec) (hbs : List (Nat × BitVec 64)) (v r1 : Nat) (health : KMap Nat)
    (level : Int) (agreed lim : Nat) (news : List Nat) : Herd × Bool :=
  let lw := fun n => (countLevel l (without v n) health).1
  let full := h.mode == 2 && decide (level = 2)
  if h.absent ≠ 0 then (h, false)
  else if h.rotKind ≠ 0 then
    match h.rotOrder, h.gap with
    | n :: _, some g =>
      if g ≤ r1 - 1 ∧ full = true ∧ lw n = 1 ∧ v.testBit (n - 1) = true then (h.grant n 1 r1 health (lw n), false)
      else (h, false)
    | _, _ => (h, false)
  else if (agreed = 1 ∨ agreed = 2) ∧ full = true then
    let order := (chansOf v).filter fun n => !(agreed == 1 && news.contains n)
    match order with
    | [] => ({ h with commitPend := agreed == 1 }, true)
    | n :: _ =>
      if lw n = 1 then
        (({ h with rotKind := agreed, rotOrder := order, rotDone := 0 } : Herd).grant n 1 r1 health (lw n), true)
      else (h, false)
  else
    let may := fun n => match hbOf hbs n with
      | some p =>
        if hbRole p ≠ 5 then 0
        else
          let k := hbLcause p
          if (k = 3 ∨ (k = 4 ∧ h.relief = false) ∨ k = 5) ∧ full = true ∧ lw n = 1 then k
          else if k = 5 ∧ h.mode = 6 then k
          else if k = 2 ∧ (h.mode = 3 ∨ h.mode = 4) ∧ h.planned = false ∧ lw n = level ∧ h.recov.length < lim
              ∧ hbHealth p ≠ 0 then k
          else 0
      | none => 0
    match (rotation v h.gen).find? fun n => may n != 0 with
    | some n => (h.grant n (may n) r1 health (lw n), false)
    | none => (h, false)

/-- Shadow cycles of an admission (R122, R146, R162, R517). -/
def Herd.shadowNeed (h : Herd) (n : Nat) : Nat :=
  if h.ret = n then 0 else if h.absent = n ∧ h.rotKind = 1 then 1000 else 200

/-- A BODY_HASH that the herd accepts (R63, R121, R147): one that its members hold, or from the absent channel of an update
rotation the rotation's new one, which the rotation's first channel brings.
DEDUCED, unsafe: log entry 31. -/
def Herd.accepts (h : Herd) (n : Nat) (hashes : List (BitVec 256)) (hash : BitVec 256) : Bool :=
  hashes.contains hash || (h.rotKind == 1 && h.absent == n && (match h.newHash with
    | some w => w == hash
    | none => true))

/-- The conditions of R121 on a join record; ROLE 4 says that the channel has passed its self-test (R120). -/
def Channel.mayJoin (c : Channel) (h : Herd) (hbs : List (Nat × BitVec 64)) (v : Nat) (hashes : List (BitVec 256))
    (rec : JoinRec) : Bool :=
  let n := rec.from_.num
  h.accepts n (c.bodyHash :: hashes) rec.bodyHash && rec.compat == c.regs.word FOL_COMPAT && rec.digest == c.fol.digest
    && (chansOf v).all (fun m => linkUp hbs m n) && !rec.severe && (h.mode == 1 || h.shadow == 0)
    && (1 ≤ h.mode && h.mode ≤ 6)

/-- The return of a channel counts against RECOV_LIM (R123, R140): its leave was unplanned, and no channel reset honoured
for the MP in SERVICE or PARK (R29; `mpResets`). -/
def Herd.counted (h : Herd) (mpResets : List Nat) (n : Nat) : Bool :=
  if h.absent = n then h.absKind == 2
  else h.ret != n && h.unplanned.testBit (n - 1) && !(h.svcLeft.testBit (n - 1) && mpResets.contains n)

/-- The admission of this round (R121, R122): the new view, the new value and the channels refused by the limit.
DEDUCED, unsafe: log entry 27. -/
def Channel.takesIn (c : Channel) (h : Herd) (hbs : List (Nat × BitVec 64)) (v lim r1 : Nat) (x : CrossIn) :
    Nat × Herd × Nat × List Nat :=
  let counted (r : JoinRec) : Bool := h.counted x.mpResets r.from_.num
  let asking : List JoinRec := (rotation 7 h.gen).filterMap fun n =>
    match hbOf hbs n with
    | some p => if hbRole p = 4 then kget none c.hrd.joins (n - 1) else none
    | none => none
  let ok := asking.filter fun r => c.mayJoin h hbs v x.hashes r
  let turned := (ok.filter fun r => counted r && decide (lim ≤ h.recov.length)).map fun r => r.from_.num
  match ok.find? fun r => !(counted r && decide (lim ≤ h.recov.length)) with
  | none => (v, { h with refused := h.refused + turned.length }, 0, turned)
  | some r =>
    let n := r.from_.num
    let h : Herd := { h with refused := h.refused + turned.length }
    if h.mode = 1 then
      (v ||| maskOf n, { h with recov := if counted r then h.recov ++ [(r1 : Int)] else h.recov }, n, turned)
    else (v, { h with shadow := n, shCycles := 0, shNeed := h.shadowNeed n, shCount := counted r, shDone := false,
                      shHash := if h.rotKind = 1 ∧ h.absent = n then some r.bodyHash else none }, n, turned)

/-- Votes of the six pairs (R325) over the members of the view in force that declare them. -/
def votesOf (h : Herd) (sts : List (Nat × Nat)) : Nat :=
  (List.range 6).foldl (fun acc p =>
    let l := ((sts.filter fun s => h.view.testBit (s.1 - 1)).map fun s => bitsOf s.2 (3 * p) 3).filter (· != 0)
    let prev := if voteOf h.votes p = 0 then 2 else voteOf h.votes p
    acc + votePair l prev * 4 ^ p) 0

/-- Class SI of the round (R91, R92): a pair newly voted INVALID sets IDEG and starts a timer that does not run.
DEDUCED, unsafe: log entry 48. -/
def Herd.siStep (h : Herd) (votes : Nat) : Herd :=
  if (List.range 6).any fun p => voteOf votes p == 3 && voteOf h.votes p != 3 then
    { h with ideg := true, idegRun := some (h.idegRun.getD 0) }
  else h

/-- The effective budgets after the overrun reports of the round (R132): the largest time of a task, capped at PERIOD. A
report never lowers a budget. -/
def Herd.overruns (h : Herd) (l : List FolRec) (reports : List (Nat × Nat)) : Herd × List (Nat × Nat) :=
  let worst := reports.foldl (fun m r => if kget 0 m r.1 < r.2 then kset 0 m r.1 r.2 else m) ([] : KMap Nat)
  let new := worst.filterMap fun w =>
    match (tasksOf l).find? fun t => t.id == w.1 with
    | some t =>
      let b := min w.2 t.period
      let old := if kget 0 h.budgets t.id = 0 then t.budget else kget 0 h.budgets t.id
      some (t.id, max old b)
    | none => none
  ({ h with budgets := new.foldl (fun m w => kset 0 m w.1 w.2) h.budgets }, new)

/-- P1 IDLE (R496, R498): an exit event is evaluated before an entry. -/
def Herd.idleStep (h : Herd) (v : Nat) (x : CrossIn) (p1en changed : Bool) : Bool :=
  let exit := !x.p1Out.isEmpty || !h.stationary || !x.newSev.isEmpty || changed
  let enter := (chansOf v).all (fun n => x.p1In.contains n) && p1en
  !exit && (h.idle || enter)

/-- What a decision answers beside the new value. -/
structure Decision where
  herd : Herd
  role : Nat
  admitted : Nat
  turned : List Nat
  split : Bool
  began : Bool
  overruns : List (Nat × Nat)
  shed : Bool
  reqOk : Bool
  deriving DecidableEq, Repr

/-- The decision of one member or shadow in one round (R112, R115).
DEDUCED, unsafe: log entry 27. -/
def Channel.decision (c : Channel) (env : Env) (x : CrossIn) (news : List Nat) : Decision :=
  let h := c.hrd.cur
  let l := c.fol.recs
  let r := c.hrd.round
  let r1 := r + 1
  let hbs := c.held
  let lim := c.rd HRD_RECOV_LIMIT
  let (v, split) := nextView h hbs
  -- stationary (R97) and the votes (R325)
  let votes := votesOf h c.heldStates
  let h1 := { h with
    stationary := h.stationary && decide (env.speed < 20) && (!c.reactDeclared 3 || c.reactActive votes 3),
    recov := h.recov.filter fun n => decide ((r : Int) < n + 36000000), absStep := if h.absent = 0 then 0 else x.absStep }
  let h1 := h1.siStep votes
  let h1 := { h1 with votes := votes }
  -- a leave at B2 (R138)
  let leaving := h1.absent != 0 && !h1.left && decide (h1.b2 ≤ r1)
  let v := if leaving then without v h1.absent else v
  let h1 := if leaving then { h1 with left := true } else h1
  let n := h1.shadow
  let mis := n != 0 && (match hbOf hbs n with
    | some p => hbRole p == 4
    | none => false)
  let h1 := if mis then { h1 with mismatch := h1.mismatch + 1 } else h1
  -- aborts, before the completion of any step (R145), and the mode hold (R105)
  let health := healthOf hbs
  let level0 := (countLevel l v health).1
  let agreed := agreedOf hbHreq hbs h.view
  let backOf := fun k => (countLevel l (v ||| maskOf k) (kset 0 health k (kget 0 h1.absHealth k))).1
  let since := match h1.hold with
    | some k => if 2000 ≤ k + 1 then k + 1 else 0
    | none => 0
  let h1 := match h1.hold with
    | some k => if 2000 ≤ k + 1 then { h1 with hold := none, ret := 0, planned := false }
      else if backOf h1.ret < 1 then { h1 with hold := none } else { h1 with hold := some (k + 1) }
    | none => h1
  let inp0 : ModeIn :=
    { level := level0, members := countMask v, stop := c.reactActive votes 1, req := agreedOf hbMreq hbs h.view,
      keyOff := c.pwr.awake && decide (min 2 (countMask v) ≤ x.keysOff.length), grant := false, wake := c.hrd.wake }
  let cause := h1.abortCause l hbs level0 x agreed (mis && n == h1.absent)
  let cause := if cause = 0 ∧ h1.leaves5 (h1.modeStep l inp0 since).1 = true then 5 else cause
  let h1 := if cause ≠ 0 then h1.abort cause r (backOf h1.absent) else h1
  let h1 := if agreed = 3 ∧ h1.rotKind ≠ 0 ∧ h1.absent = 0 then h1.endRot 6 r else h1
  -- the shadow votes or is gone (R122, R143)
  let shHere := match hbOf hbs h1.shadow with
    | some p => hbRole p == 2
    | none => false
  let votesNow := h1.shadow != 0 && shHere && h1.shDone && decide (r1 % 10 = 0)
    && (chansOf v).all (fun m => linkUp hbs m h1.shadow)
  let v := if votesNow then v ||| maskOf n else v
  let h1 := if votesNow then
      { h1 with shadow := 0, shDone := false, recov := if h1.shCount then h1.recov ++ [(r1 : Int)] else h1.recov,
                newHash := if h1.rotKind = 1 ∧ h1.absent = n ∧ h1.shHash.isSome = true then h1.shHash else h1.newHash }
    else if h1.shadow != 0 && !shHere then { h1 with shadow := 0, shDone := false } else h1
  let h1 := if votesNow then h1.voted n r1 else h1
  -- admission (R121)
  let (v, h1, adm, turned) := c.takesIn h1 hbs v lim r1 x
  let gen := (h1.gen + (if v = h.view then 0 else 1) + (if split then 1 else 0)) % 2 ^ 32
  let gone := (chansOf h.view).foldl (fun m k => if v.testBit (k - 1) || (leaving && h.absent == k) then m else m ||| maskOf k) 0
  let back := 7 - v
  let h1 := { h1 with
    gen := gen, view := v, ever := h1.ever ||| v, unplanned := (h1.unplanned ||| gone) &&& back,
    svcLeft := (if h.mode = 6 ∨ h.mode = 7 then h1.svcLeft ||| gone else h1.svcLeft &&& (7 - gone)) &&& back,
    absHealth := if h1.gap.isSome && h.gap.isNone then health else h1.absHealth }
  -- level (R75)
  let (level, depth) := countLevel l v health
  let h1 := { h1 with depth := depth }
  -- grants (R137 to R141)
  let was := h1.absent
  let (h1, began) := h1.grants l hbs v r1 health level agreed lim news
  let grant := was == 0 && h1.absent != 0 && h1.absKind != 2
  -- the mode (R99)
  let inp : ModeIn :=
    { inp0 with
      level := level, members := countMask v, grant := grant,
      keyOff := c.pwr.awake && decide (min 2 (countMask v) ≤ x.keysOff.length) }
  let h1 := { h1 with window := h1.window || decide (10000 ≤ r1) }
  let (h2, ok) := h1.modeStep l inp since
  -- a mode that leaves the planned DUPLEX aborts the absence (R145 cause 5)
  let h2 := if h2.leaves5 h2 then h2.abort 5 r (backOf h2.absent) else h2
  let h2 := if h.idegRun.isNone && h2.idegRun.isSome then { h2 with idegRun := some 0 } else h2
  let h2 := { h2 with idle := h2.idleStep v x ((c.rd (PWR_LDR_VALUE 1)).testBit 24) (h2.mode != h.mode) }
  -- placement (R129, R132)
  let (h2, raised) := h2.overruns l x.reports
  let onView := if h2.absent = 0 then v else without v h2.absent
  let (h2, shed) := if h2.placedFor = (onView, h2.gen) ∧ raised = [] then (h2, false) else h2.replace l r1 onView v
  let me := c.me.num
  let role :=
    if v.testBit (me - 1) then 1
    else if c.voting then (if leaving && h.absent == me then 3 else 4)
    else if h2.shadow = me then 2 else 4
  { herd := h2, role := role, admitted := adm, turned := turned, split := split, began := began, overruns := raised, shed := shed, reqOk := ok }

/-- TB of the next round start (R112): a round is 20,000 counts. -/
def Channel.nextRound (c : Channel) : Nat := (c.tb.toNat / 20000 + 1) * 20000

/-- The own requests that a decision consumes (R111, R137, R140, R162, R496); a re-synchronisation that waits outside FULL
or while a rotation runs is deferred (R163). -/
def Channel.consume (c : Channel) (d : Decision) : Channel :=
  let me := c.me.num
  let granted := if c.hrd.cur.absent = 0 ∧ d.herd.absent = me then d.herd.absKind else 0
  let c := if granted = 2 then c.hrdUp fun x => { x with repair := false } else c
  let c := if granted = 3 then { c.wr CMP_STAT_RESYNC 0 with cmp := { c.cmp with latent := false } } else c
  let c := if c.cmp.latent && !(d.herd.mode == 2 && d.herd.rotKind == 0) then c.wr CMP_STAT_RESYNC 1 else c
  let c := if granted = 4 then c.hrdUp fun x => { x with relief := false } else c
  let c := if d.began || d.herd.aborts != c.hrd.cur.aborts then c.hrdUp fun x => { x with hreq := 0 } else c
  let sent := match c.hrd.hb1Out with
    | some p => hbMreq p
    | none => 0
  let c := if sent != 0 && !d.reqOk then c.wr STW_MODE_REQREF 1 else c
  if c.hrd.p1Now = 1 ∧ d.herd.idle = false then c.wr PWR_REQ_REFUSED 1 else c

/-- The proof-test request of the schedule (R149): due, FULL, nothing running, every member's conditions holding. -/
def Channel.askProof (c : Channel) : Channel :=
  let h := c.hrd.cur
  let ok := c.held.all fun p => !(h.view.testBit (p.1 - 1) && hbMember p.2) || hbPcok p.2
  if c.voting && h.proofDue && h.free && decide (h.proofRetry ≤ c.hrd.round) && ok && c.hrd.hreq == 0 then
    c.hrdUp fun x => { x with hreq := 2 }
  else c

/-- The decision enters the channel: it takes effect at the next round start (R112); the member mask goes to CP-x at once
with that round's TB (R223). -/
def Channel.enterDecision (c : Channel) (env : Env) (x : CrossIn) (news : List Nat) : Channel :=
  let d := c.decision env x news
  let c := c.askProof.consume d
  let c := c.hrdUp fun y =>
    { y with
      next := some (d.herd, d.role), speed := env.speed, decel := env.decel, wake := 0,
      admitOut := if d.admitted = 0 then y.admitOut else some (d.admitted, d.herd.gen, (y.round + 1) % 2 ^ 32),
      joins := (d.admitted :: d.turned).foldl (fun m n => if n = 0 then m else kset none m (n - 1) none) y.joins }
  let c := if d.split then c.wr HRD_STAT_SPLITV 1 else c
  let c := c.flag PWR_STAT_KEYV (!decide (min 2 (countMask d.herd.view) ≤ x.keysOff.length))
  let c := c.maskIn (if d.role = 1 ∨ d.role = 2 then BitVec.ofNat 3 d.herd.view else 0) c.nextRound
  let c := match d.overruns.getLast? with
    | some w => (c.wr HRD_OVR_TASK w.1).wr HRD_OVR_EFFBUD w.2
    | none => c
  c.raiseAll ((if d.shed then [(15, 3)] else []) ++ d.overruns.map fun _ => (16, 3))

/-- What a member reads of the other channels.
DEDUCED, unsafe: log entry 26. -/
def State.crossIn (s : State) (c : Channel) : CrossIn :=
  let h := c.hrd.cur
  let of := fun (p : Channel → Bool) => (chansOf h.view).filter fun n =>
    match Chan.ofNum n with
    | some ch => p (s.chan ch)
    | none => false
  let reports := (chansOf h.view).flatMap fun n => ((Chan.ofNum n).map fun ch => (s.chan ch).hrd.reportNow).getD []
  let (step, fail) := match Chan.ofNum h.absent with
    | some ch =>
      let a := s.chan ch
      (if a.isShadow then 4 else if a.rd PWR_BOOT_STEP = 6 then 3 else 2,
       if a.is FOL_STAT_FAILED || a.severe 8 then 2
        else if a.severe 7 || a.severe 1 || a.cmp.swept || a.pow.stLock != 0 || a.rd STW_RSTCAUSE_CAUSE == 2 then 3 else 0)
    | none => (0, 0)
  { keysOff := of fun a => !a.is PWR_STAT_KEYL, p1In := of fun a => a.hrd.p1Now == 1, p1Out := of fun a => a.hrd.p1Now == 2,
    newSev := of fun a => a.hrd.sevNow, reports := reports, absStep := step, absFail := fail,
    mpResets := [Chan.A, Chan.B, Chan.C].filterMap fun ch => if (s.chan ch).rd STW_RSTCAUSE_CAUSE = 4 then some ch.num else none,
    hashes := (chansOf h.view).filterMap fun n => (Chan.ofNum n).map fun ch => (s.chan ch).bodyHash }

/-- Members that already run the rotation's new Folio (R147).
DEDUCED, unsafe: log entry 26. -/
def State.newsOf (s : State) (c : Channel) : List Nat :=
  (chansOf c.hrd.cur.view).filter fun n =>
    match Chan.ofNum n, c.hrd.cur.newHash with
    | some ch, some w => (s.chan ch).bodyHash == w
    | _, _ => false

/-- MEMBERSHIP_DECISION (R115), at 50 µs: members decide; a shadow follows the same packets, so that it holds the herd's
value when it votes. -/
def execMembershipDecision (ch : Chan) (env : Env) (s : State) : Out :=
  let c := s.chan ch
  .next (s.onLive ch fun x => if x.voting || x.isShadow then x.enterDecision env (s.crossIn c) (s.newsOf c) else x)

end Sys2Proof.Machine
end

