-- ==== Sys2Proof/Machine/FolioLoad.lean ====
section
/-! DEFINITION. The Folio loader: sources, their parts as they arrive, the peer load and the load's end (R55 to R71 of
02_folio.md, R464 of 17_security_and_update.md, R492 and R493 of 18_bring_up_and_power.md). -/

namespace Sys2Proof.Machine

/-- Change the loader's part. -/
def Channel.folUp (c : Channel) (f : Fol → Fol) : Channel := { c with fol := f c.fol }

/-- Number of a source (R71): 1 slot A, 2 slot B, 3 peer. -/
def srcNum : Src → Nat
  | .slotA => 1
  | .slotB => 2
  | .peer => 3

/-- The root slot state of R464: the union of two dies' fuses.
DEDUCED, unsafe: log entry 22. -/
def Otp.join (o p : Otp) : Otp :=
  { hash := (List.range 4).foldl (fun m k => if p.fused.getLsbD k then kset 0 m k (kget 0 o.hash k ||| kget 0 p.hash k) else m) o.hash
    fused := o.fused ||| p.fused
    revoked := o.revoked ||| p.revoked
    lc := max o.lc p.lc
    epoch := max o.epoch p.epoch }

/-- A channel that can serve a peer load (R61, R62): a retained copy held, its bring-up self-test passed, its link up.
DEDUCED, unsafe: log entry 21. -/
def State.serves (s : State) (ch requester : Chan) : Bool :=
  let c := s.chan ch
  ch != requester && c.live && c.is FOL_STAT_RETAINED && c.is STW_SEAL_SEAL && c.pwr.done7 && s.crossUp ch requester

/-- The channel that serves a requester: the peer named by SRC = 3, else the lowest letter that can.
DEDUCED, unsafe: log entry 21. -/
def State.server (s : State) (c : Channel) : Option Chan :=
  [Chan.A, Chan.B, Chan.C].find? fun ch => s.serves ch c.me && (c.fol.src != 3 || c.fol.peer == ch.num)

/-- The request to the peers goes out (R493); it stands when one of them can serve.
DEDUCED, unsafe: log entry 21. -/
def State.askPeers (s : State) (c : Channel) : Channel := c.folUp fun x => { x with peerAsked := (s.server c).isSome }

/-- The result of a source (R58), reported to the MSS for the event log.
DEDUCED, unsafe: log entry 19. -/
def Channel.rejectSrc (c : Channel) (src : Nat) (e : FErr) : Channel :=
  let n := src - 1
  let c := ((c.wrWord (FOL_RES n) 0).wr (FOL_RES_RECIDX n) e.index).wr (FOL_RES_QTYPE n) e.qtype
  let c := (c.wr (FOL_RES_CODE n) e.code).wr (FOL_POS_OFFSET n) e.offset
  c.log 0x0100 0 ((c.regs.word (FOL_RES n)).toNat + (c.regs.word (FOL_POS n)).toNat * 2 ^ 32 + src * 2 ^ 64)

/-- Every source has failed (R61): STAGE 0, FAILED, FOL_FAIL. -/
def Channel.loadFails (c : Channel) : Channel :=
  let c := c.folUp fun x => { x with cur := 0, todo := [], asked := false, waitPeer := false, peerAsked := false }
  ((c.wr FOL_STAT_STAGE 0).wr FOL_STAT_FAILED 1).raise 8

/-- Slots that have not been tried read 0x50 (R61). -/
def Channel.untried (c : Channel) : List Nat → Channel
  | [] => c
  | n :: ns => (if c.rd (FOL_RES_CODE (n - 1)) = 0xFF then c.rejectSrc n { code := 0x50 } else c).untried ns

/-- Step 3 of R61. -/
def State.toPeer (s : State) (c : Channel) : Channel :=
  let c := (c.wr FOL_STAT_STAGE 1).folUp fun x => { x with cur := 0, todo := [], asked := false, waitPeer := true }
  s.askPeers c

/-- The next source of R61; no source left fails the load. -/
def State.nextSrc (s : State) (c : Channel) : Channel :=
  match c.fol.todo with
  | [] => c.loadFails
  | 3 :: _ => s.toPeer c
  | n :: ns => (c.wr FOL_STAT_STAGE 1).folUp fun x => { x with cur := n, todo := ns }

/-- The management link is down or the MSS does not answer within 20 ms (R61). -/
def State.noMss (s : State) (c : Channel) : Channel :=
  if c.fol.src = 0 then s.toPeer (c.untried [1, 2])
  else (c.rejectSrc c.fol.src { code := 0x50 }).loadFails

/-- The source being read is rejected. -/
def State.rejected (s : State) (c : Channel) (e : FErr) : Channel := s.nextSrc (c.rejectSrc c.fol.cur e)

/-- The one honoured write of FOL_CTRL (R71): the load starts. With HRD_NEXTSRC.VALID = 1 the boot ROM writes its SRC and PEER
and clears VALID (R139). -/
def State.startLoad (s : State) (c : Channel) (v : Word) : Channel :=
  let named := c.is HRD_NEXTSRC_VALID
  let src := if named then c.rd HRD_NEXTSRC_SRC else v.toNat % 4
  let peer := if named then c.rd HRD_NEXTSRC_PEER else v.toNat / 16 % 4
  let c := ((c.wr FOL_CTRL_SRC src).wr FOL_CTRL_PEER peer).wr HRD_NEXTSRC_VALID 0
  let c := (c.wr FOL_STAT_STAGE 1).folUp fun x => { x with started := true, src := src, peer := peer }
  if src = 3 then
    if peer = 0 ∨ peer = c.me.num then (c.rejectSrc 3 { code := 0x50 }).loadFails else s.toPeer c
  else if s.mlinkUp c then c.folUp fun x => { x with asked := true }
  else s.noMss c

/-- A write of FOL_CTRL (R69, R71).
DEDUCED, unsafe: log entry 21. -/
def State.folCtrl (s : State) (c : Channel) (v : Word) : Channel :=
  if c.is STW_SEAL_SEAL then c.sealViolation FOL_CTRL
  else if c.fol.started then c
  else s.startLoad c v

/-- FOL_CTRL_WRITE (R71). -/
def execFolCtrlWrite (ch : Chan) (v : Word) (s : State) : Out := .next (s.onLive ch fun c => s.folCtrl c v)

/-- What the MSS answers (R61, R464, R492): the slot state and keys, ROLLBACK, and which slots come in which order. -/
def State.answerFolio (s : State) (c : Channel) : Channel :=
  let k := s.mss.key
  let act := s.mss.active
  let other := if s.mss.slot (1 - act) = 2 then [2 - act] else []
  let todo := if c.fol.src = 0 then [act + 1] ++ other ++ [3] else [c.fol.src]
  let c := { c with otp := c.otp.join k.otp }
  s.nextSrc (c.folUp fun x => { x with
    asked := false, active := act + 1, keys := k.keys, rollback := s.mss.rd KEY_ROLLBACK_VALUE, todo := todo })

/-- FOLIO_REQUEST (R492): the MSS answers a channel's request once it is ready to serve. -/
def execFolioRequest (ch : Chan) (s : State) : Out :=
  .next (s.onLive ch fun c =>
    if c.fol.asked && s.mlinkUp c && s.mss.on && s.mss.ready && s.mss.mpRuns then s.answerFolio c else c)

/-- MSS_FOLIO_TIMEOUT (R61): 20 ms without an answer. -/
def execMssFolioTimeout (ch : Chan) (s : State) : Out :=
  .next (s.onLive ch fun c => if c.fol.asked then s.noMss c else c)

/-- The herd's COMPAT (R121, code 0x52): in the channel's absence of an update rotation, COMPAT and the shared digest must
equal the herd's.
DEDUCED, unsafe: log entry 22. -/
def State.compatDiffers (s : State) (c : Channel) (recs : List FolRec) : Bool :=
  [Chan.A, Chan.B, Chan.C].any fun o =>
    let p := s.chan o
    o != c.me && p.live && p.voting && p.hrd.cur.rotKind == 1 && p.hrd.cur.absent == c.me.num &&
      (p.rd FOL_COMPAT_VALUE != coCompat c.fol.colophon || p.fol.digest != sharedDigest recs)

/-- Stages 5 and 6 on the body (R56, R57), then the check of 0x52. -/
def State.bodyErr (s : State) (c : Channel) (p : Parse) : Option FErr :=
  match p.err with
  | some e => some e
  | none =>
    match stage6 p.recs with
    | some e => some e
    | none => if s.compatDiffers c p.recs then some { code := 0x52, offset := spOfs c.fol.spine + 8 } else none

/-- The source is accepted (R58, R61): it is to be applied. -/
def Channel.acceptFolio (c : Channel) : Channel :=
  let n := c.fol.cur - 1
  let c := (c.wrWord (FOL_RES n) 0).wrWord (FOL_POS n) 0
  ((c.wr FOL_STAT_SOURCE c.fol.cur).wr FOL_STAT_STAGE 7).folUp fun x => { x with accepted := true, todo := [] }

/-- Stages 2 to 4 on the colophon (R56, R62). -/
def Channel.colophonErr (c : Channel) (co : List Byte) : Option FErr :=
  match stage2 c.fol.spine co with
  | some e => some e
  | none =>
    match stage3 c.otp c.fol.keys c.fol.spine co with
    | some e => some e
    | none => stage4 c.otp c.fol.rollback (if c.fol.cur = 3 then c.fol.peerHash else none) c.fol.spine co

/-- One part of the source in progress arrives (R539), in its order. FOL_STAT.IGNREC goes on counting from one source to
the next.
DESIGN CHOICE, unsafe: log entry 82. -/
def State.part (s : State) (c : Channel) (size : Nat) (part : FolPart) : Channel :=
  let stage := c.rd FOL_STAT_STAGE
  match part with
  | .unreadable =>
    if !c.mlink && c.fol.cur != 3 then
      let c := c.rejectSrc c.fol.cur { code := 0x50 }
      if c.fol.src = 0 then s.toPeer (c.untried [1, 2]) else c.loadFails
    else s.rejected c { code := 0x50 }
  | .emptySlot => if c.fol.cur = 3 then c else s.rejected c { code := 0x51 }
  | .spine bs =>
    if stage ≠ 1 then c
    else match stage1 (if c.fol.cur = 3 then size else 4194304) bs with
      | some e => s.rejected c e
      | none => (c.wr FOL_STAT_STAGE 2).folUp fun x => { x with spine := bs }
  | .colophon bs =>
    if stage ≠ 2 then c
    else match c.colophonErr bs with
      | some e => s.rejected c e
      | none => (c.wr FOL_STAT_STAGE 5).folUp fun x => { x with colophon := bs }
  | .body bs =>
    if stage ≠ 5 then c
    else
      let p := stage5 c.fol.spine c.fol.colophon bs
      let c := (c.wr FOL_STAT_IGNREC (min 65535 (c.rd FOL_STAT_IGNREC + p.ign))).folUp fun x => { x with body := bs }
      match s.bodyErr c p with
      | some e => s.rejected c e
      | none => c.acceptFolio

/-- FOLIO_PART_RECEIVED (R539): a part of the source that the loader reads. -/
def execFolioPartReceived (ch : Chan) (src : Src) (size : Nat) (part : FolPart) (s : State) : Out :=
  .next (s.onLive ch fun c => if c.fol.cur = srcNum src ∧ !c.fol.accepted then s.part c size part else c)

/-- PEER_LOAD_RETRY (R493): the request is repeated. -/
def execPeerLoadRetry (ch : Chan) (s : State) : Out :=
  .next (s.onLive ch fun c => if c.fol.waitPeer && c.fol.cur == 0 then s.askPeers c else c)

/-- PEER_LOAD_TIMEOUT (R493): 1,000 ms without a server; the source has failed. -/
def execPeerLoadTimeout (ch : Chan) (s : State) : Out :=
  .next (s.onLive ch fun c =>
    if c.fol.waitPeer && c.fol.cur == 0 then (c.rejectSrc 3 { code := 0x50 }).loadFails else c)

/-- The serving channel answers (R62, R463, R464): its hash, its keys and its slot state come with the copy. -/
def Channel.servedBy (c p : Channel) : Channel :=
  { c.folUp (fun x => { x with
      cur := 3, waitPeer := false, peerAsked := false, peerHash := some p.bodyHash, servedBy := p.me.num, keys := p.fol.keys }) with
    otp := c.otp.join p.otp }

/-- PEER_LOAD_SERVE (R62): the serving channel takes the requester's request.
DEDUCED, unsafe: log entry 21. -/
def execPeerLoadServe (ch requester : Chan) (s : State) : Out :=
  .next (s.onLive requester fun c =>
    if c.fol.waitPeer && c.fol.peerAsked && s.server c == some ch then c.servedBy (s.chan ch) else c)

/-- FOLIO_APPLY_DONE (R67): the accepted Folio is in force and sealed, and its hash goes to the MSS (R476). -/
def execFolioApplyDone (ch : Chan) (s : State) : Out :=
  let c := s.chan ch
  if c.live && c.fol.accepted then
    let c := c.applyFolio
    let s := s.setChan ch c
    .next (if s.mlinkUp c then s.onMss fun m => m.onPort ch fun p => { p with hash := some c.bodyHash } else s)
  else .next s

end Sys2Proof.Machine
end

