-- ==== Sys2Proof/Machine/MssLog.lean ====
section
/-! DEFINITION. The event log, the link ports and the supervisor: the commands of 16_management_and_log.md. -/

namespace Sys2Proof.Machine

/-- OPTIME_SAVE (R430): both copies take OPTIME. -/
def execOptimeSave (s : State) : Out :=
  .next (s.onMss fun m =>
    if m.on then m.onSup fun x => { x with optA := x.optime, optB := x.optime } else m)

/-- R432: the message's time against CALTIME.
DEDUCED, unsafe: log entry 56. -/
def Mss.calendar (m : Mss) (t : Nat) : Mss :=
  let cal := m.sup.cal
  let m := m.onSup fun x => { x with calSet := true }
  if t = cal then m
  else if cal < t then m.onSup fun x => { x with cal := t, calTrue := t }
  else if cal ≤ t + 2 then m.onSup fun x => { x with calTrue := t }
  else
    let m := m.onSup fun x => { x with cal := t, calTrue := t, calEpoch := satInc 16 x.calEpoch }
    m.record 0x201 0 (cal + t * 2 ^ 32)

/-- CALENDAR_UPDATE (R432): the write of MSS_CALIN. -/
def execCalendarUpdate (seconds : Word) (s : State) : Out :=
  .next (s.onMss fun m => if m.on then m.calendar seconds.toNat else m)

/-- Event limits of the sensors in their LSB (R434): least and greatest sample within limits. -/
def sensorLimits (n : Nat) : Nat × Nat :=
  if n ≤ 8 then (0, 203)
  else if n ≤ 12 then (24, 232)
  else if n ≤ 16 then (108, 132)
  else if n = 17 then (144, 176)
  else if n = 18 then (324, 396)
  else if n ≤ 20 then (216, 264)
  else if n ≤ 23 then (0, 150)
  else (0, 60)

/-- A sample beyond its event limit; VSUP_M has none while it is unused. -/
def Mss.beyondLimit (m : Mss) (n v : Nat) : Bool :=
  let (lo, hi) := sensorLimits n
  (decide (v < lo) || decide (hi < v)) && (n != 12 || m.sup.vsupM)

/-- The extreme of a sensor (R435): lowest of the rails, highest of the rest. -/
def extreme (n a b : Nat) : Nat := if 9 ≤ n ∧ n ≤ 20 then min a b else max a b

/-- One sensor's sample: MSS_SENS, and a SENS_LIMIT record for a limit newly passed; `back`: it has spent 10 s within its
limits since its latest record. -/
def Mss.sense (m : Mss) (n v : Nat) (back : Bool) : Mss :=
  let m := m.wr (MSS_SENS_VALUE n) v
  let was := m.sup.beyond.getLsbD n && !back
  let now := m.beyondLimit n v
  let m := m.onSup fun x => { x with beyond := if was || now then x.beyond ||| BitVec.ofNat 25 (2 ^ n)
                                               else x.beyond &&& ~~~BitVec.ofNat 25 (2 ^ n) }
  if now && !was then
    let m := m.record 0x203 0 (n % 256 + v % 2 ^ 16 * 256)
    if n ≤ 8 ∨ (21 ≤ n ∧ n ≤ 23) then m.errPulse else m
  else m

/-- The sensors from number `n` on. -/
def Mss.senseAll (m : Mss) (back : BitVec 25) : Nat → List Nat → Mss
  | _, [] => m
  | n, v :: vs => (m.sense n v (back.getLsbD n)).senseAll back (n + 1) vs

/-- SENSOR_SAMPLE (R434). -/
def execSensorSample (samples : SensorSet) (backTenSeconds : BitVec 25) (s : State) : Out :=
  .next (s.onMss fun m =>
    if m.mpRuns && samples.length == 25 then
      let m := m.senseAll backTenSeconds 0 samples
      m.onSup fun x =>
        { x with env := some (match x.env with
            | none => samples
            | some l => (l.zip samples).zipIdx.map fun p => extreme p.2 p.1.1 p.1.2) }
    else m)

/-- Nominal voltage of rails 17 to 20 in their LSB. -/
def railNominal (n : Nat) : Nat := if n = 17 then 160 else if n = 18 then 360 else 240

/-- The byte of a sensor in an ENV record (R435). Rails 17 to 20 as a deviation in 0.1 % plus 128: where the deviation is
no whole number, which of its two neighbours is shown is open (`up`). -/
def envByte (n v : Nat) (up : Bool) : Nat :=
  if 17 ≤ n ∧ n ≤ 20 then
    let d := railNominal n
    let q := (v * 1000 + (if up then d - 1 else 0)) / d
    min 255 (q + 128 - 1000)
  else min 255 v

/-- The ENV record (R435).
DEDUCED, unsafe: log entry 60. -/
def Mss.envRecord (m : Mss) : Mss :=
  match m.sup.env with
  | none => m.record 0x202 0 0
  | some l =>
    let (k, m) := m.draw 2
    let data := l.zipIdx.foldl (fun a p => a + envByte p.2 p.1 (k == 1) * 256 ^ p.2) 0
    (m.record 0x202 0 data).onSup fun x => { x with env := none }

/-- ENV_RECORD (R435). -/
def execEnvRecord (s : State) : Out := .next (s.onMss fun m => if m.mpRuns then m.envRecord else m)

/-- The oldest message moves to the intake (R436): DCNT counts the messages dropped before it. -/
def State.drain (s : State) (ch : Chan) : State :=
  let c := s.chan ch
  match c.logq with
  | [] => s
  | x :: rest =>
    if c.live && c.mlink && s.mss.on && (s.mss.port ch).up && s.mss.log.intake.length < 256 then
      let d := (c.dcnt - (s.mss.port ch).lastDcnt).toNat
      let s := s.on ch fun c => { c.wr MBX_QSTAT_FILL rest.length with logq := rest }
      s.onMss fun m =>
        let m := (m.hear c).onPort ch fun p => { p with lastDcnt := c.dcnt }
        let m := if d = 0 then m else m.lifeAdd (64 * ch.idx + 63) d
        m.onLog fun l => { l with intake := l.intake ++ [x] }
    else s

/-- The divergence report of a channel that has gone fail-silent reaches the MSS over the management link (R159), before the
reset discards the channel's queue. -/
def State.divergeReport (s : State) (ch : Chan) : State :=
  let c := s.chan ch
  match c.logq.find? fun x => x.src == 0x0101 with
  | some x =>
    if c.mlink && s.mss.on && (s.mss.port ch).up && s.mss.log.intake.length < 256 then
      s.onMss fun m => (m.hear c).onLog fun l => { l with intake := l.intake ++ [x] }
    else s
  | none => s

/-- FAIL_SILENT_RESET (R159): after the report, or 2 µs at the latest, the channel resets with cause 2.
DEDUCED, unsafe: log entry 32. -/
def execFailSilentReset (ch : Chan) (s : State) : Out :=
  .next (
    let c := s.chan ch
    if c.failSilent && !c.pwr.off then (s.divergeReport ch).on ch fun c => (c.reset 2 0).errRefresh else s)

/-- LOG_QUEUE_DRAIN (R436). -/
def execLogQueueDrain (ch : Chan) (s : State) : Out := .next (s.drain ch)

/-- A write of MBX_MSG7 (R438): the firmware message of MBX_MSG0 to MBX_MSG7 is queued, or discarded for its SRC. -/
def Channel.mailboxMsg (c : Channel) (v : Word) : Channel :=
  let w := fun n => (c.regs.word (MBX_MSG n)).toNat
  let src := w 0 % 2 ^ 16
  if src < 0x8000 then c.sat MBX_QSTAT_BADSRC
  else
    let data := (List.range 6).foldl (fun a i => a + w (i + 1) * 2 ^ (32 * i)) 0 + v.toNat % 2 ^ 16 * 2 ^ 192
    c.log src (w 0 / 2 ^ 16) data

/-- MAILBOX_MESSAGE (R438). -/
def execMailboxMessage (ch : Chan) (v : Word) (s : State) : Out := .next (s.onLive ch fun c => c.mailboxMsg v)

/-- The message that the MP records next: an MSS record before a channel's message (R453); its queue without it.
DEDUCED, unsafe: log entry 61. -/
def Log.next (l : Log) : Option (LogMsg × Log) :=
  match l.own, l.intake with
  | x :: r, _ => some (x, { l with own := r })
  | [], x :: r => some (x, { l with intake := r })
  | [], [] => none

/-- LOG_GO (R442, R444, R449): unless the MP has filled LOG_BODY itself, it takes the next waiting message. The record
takes the next SEQ; it is written unless the log is full or dead.
DEDUCED, unsafe: log entry 61. -/
def Mss.go (m : Mss) : Mss :=
  if m.is LOG_STAT_BUSY then m
  else
    let m := if m.log.body then m else
      match m.log.next with
      | some (x, l) => ({ m with log := l }).loadBody x
      | none => m
    let r := m.formed
    let m := m.onLog fun l => { l with body := false, last := keepLast l.last r }
    let m := m.count r
    if m.is LOG_STAT_FULL || m.is LOG_STAT_DEAD then (m.lifeAdd 1023 1).advance
    else (m.wr LOG_STAT_BUSY 1).onLog fun l => { l with now := some r }

/-- LOG_GO (R442). -/
def execLogGo (s : State) : Out := .next (s.onMss fun m => if m.mpRuns then m.go else m)

/-- The record in progress is written to the banks in service and LOG_NEXT advances (R442); a bank whose read-back does
not match is retired (R446). A record that no bank could take counts as not written.
DEDUCED, unsafe: log entry 62. -/
def Mss.written (m : Mss) (fail0 fail1 : Bool) : Mss :=
  match m.log.now with
  | none => m
  | some r =>
    let put0 := !fail0 && !m.is LOG_STAT_RET0
    let put1 := !fail1 && !m.is LOG_STAT_RET1
    let m := m.onLog fun l => { l with
      now := none, bank0 := if put0 then kset LogRecord.blank l.bank0 r.seq r else l.bank0,
      bank1 := if put1 then kset LogRecord.blank l.bank1 r.seq r else l.bank1 }
    let m := if put0 || put1 then m else m.lifeAdd 1023 1
    let m := (m.wr LOG_STAT_BUSY 0).advance
    let m := if fail0 then m.retire 0 1 else m
    if fail1 then m.retire 1 1 else m

/-- LOG_RECORD_WRITTEN (R442). The write engine completes a record whether or not the MP runs (R456). -/
def execLogRecordWritten (fail0 fail1 : Bool) (s : State) : Out :=
  .next (s.onMss fun m => if m.on then m.written fail0 fail1 else m)

/-- MANAGEMENT_LINK_DOWN (R30): the channel reports MLK_DOWN, the MSS forms an MLINK record; what the herd does is
unchanged. -/
def execManagementLinkDown (ch : Chan) (s : State) : Out :=
  let was := (s.mss.port ch).up
  let s := s.on ch fun c =>
    let c' := { c with mlink := false }
    if c.mlink && c.live then c'.raise 13 else c'
  let s := s.onMss fun m =>
    let m := (m.onPort ch fun p => { p with up := false, vote := false, read := none }).showPorts
    if was && m.on then m.record 0x206 0 ch.num else m
  .next s.showLost

/-- MANAGEMENT_LINK_UP (R436): after a channel reset or a recovery; the MSS takes 0 as the last DCNT, the token assembly
and the reported hash are gone (R479).
DEDUCED, unsafe: log entry 64. -/
def execManagementLinkUp (ch : Chan) (s : State) : Out :=
  if (s.chan ch).live && s.mss.on then
    let s := s.on ch fun c => { c with mlink := true }
    let s := s.onMss fun m =>
      let m := (m.onPort ch fun p => { p with
        up := true, lastDcnt := 0, vote := (s.chan ch).mssVote, assembly := [], hash := none }).showPorts
      (m.hear (s.chan ch)).record 0x206 1 ch.num
    .next s.showLost
  else .next s

/-- A write of MBX_RDCTL (R450, R454): the read starts, or is refused with ERR 1 (busy), 2 (AREA or COUNT), 3 (shed).
DEDUCED, unsafe: log entry 63. -/
def Port.readRequest (p : Port) (load : Nat) (v : Word) : Port :=
  let area := v.toNat / 2 ^ 8 % 4
  let count := v.toNat % 32
  if p.read.isSome then p.wr MBX_RDSTAT_ERR 1
  else
    let q := { p with regs := p.regs.setWord MBX_RDSTAT 0 }
    if area = 3 ∨ (area ≤ 1 ∧ (count = 0 ∨ 16 < count)) ∨ (area = 2 ∧ 4 ≤ count) then q.wr MBX_RDSTAT_ERR 2
    else if 1 ≤ area ∧ 1 ≤ load then q.wr MBX_RDSTAT_ERR 3
    else { q.wr MBX_RDSTAT_BUSY 1 with read := some (area, p.rd MBX_RDSTART_SEQ, count) }

/-- LOG_READ_REQUEST (R450). A write on a link that is down is lost. -/
def execLogReadRequest (ch : Chan) (v : Word) (s : State) : Out :=
  .next (s.onMss fun m =>
    if m.on && (m.port ch).up && (s.chan ch).live then m.onPort ch fun p => p.readRequest (m.rd MSS_STAT_LOAD) v else m)

/-- Words of a read result. -/
def Port.fill (p : Port) : Nat → List Word → Port
  | _, [] => p
  | n, w :: ws => ({ p with regs := p.regs.setWord (MBX_RDBUF n) w }).fill (n + 1) ws

/-- One slot of the log (R451): from bank 0 unless it is retired or the slot fails there, else from bank 1; zeros apart
from SEQ when it is good in neither. -/
def Mss.slotRead (m : Mss) (bad0 bad1 : List Nat) (n : Nat) : LogRecord × Bool :=
  let r0 := kget LogRecord.blank m.log.bank0 n
  let r1 := kget LogRecord.blank m.log.bank1 n
  if !m.is LOG_STAT_RET0 && !bad0.contains n && r0.good then (r0, true)
  else if !m.is LOG_STAT_RET1 && !bad1.contains n && r1.good then (r1, true)
  else ({ LogRecord.blank with seq := n }, false)

/-- The words of a record. -/
def LogRecord.words (r : LogRecord) : List Word :=
  let b := r.bytes
  (List.range 16).map fun i => BitVec.ofNat 32 (leNat ((b.drop (4 * i)).take 4))

/-- Fill the result registers: RET, BAD, DONE. -/
def Port.done (p : Port) (ret bad : Nat) (ws : List Word) : Port :=
  let p := { p with read := none, regs := p.regs.setWord MBX_RDSTAT 0 }.fill 0 ws
  ((p.wr MBX_RDSTAT_RET ret).wr MBX_RDSTAT_BAD (min 255 bad)).wr MBX_RDSTAT_DONE 1

/-- A read completes (R450, R451). An uncorrectable error of a slot that is read retires its bank (R446).
DEDUCED, unsafe: log entries 62, 63. -/
def Mss.readDone (m : Mss) (ch : Chan) (bad0 bad1 : List Nat) : Mss :=
  match (m.port ch).read with
  | none => m
  | some (area, start, count) =>
    if area = 0 then
      let stop := min (start + count) (min (m.rd LOG_NEXT_SEQ) bankSlots)
      let slots := (List.range (stop - start)).map fun i => start + i
      let rs := slots.map (m.slotRead bad0 bad1)
      let m' := m.onPort ch fun p =>
        p.done rs.length (rs.filter fun r => !r.2).length (rs.flatMap fun r => LogRecord.words r.1)
      let f0 := slots.any fun n => bad0.contains n
      let f1 := slots.any fun n => bad1.contains n && (m.is LOG_STAT_RET0 || bad0.contains n)
      let m' := if f0 then m'.retire 0 2 else m'
      if f1 then m'.retire 1 2 else m'
    else if area = 1 then
      let rs := (m.log.last.reverse.take count).reverse
      m.onPort ch fun p => p.done rs.length 0 (rs.flatMap LogRecord.words)
    else
      m.onPort ch fun p => p.done 16 0 ((List.range 256).map fun i => m.regs.word (LOG_LIFE (256 * (count % 4) + i)))

/-- LOG_READ_DONE (R451). -/
def execLogReadDone (ch : Chan) (bad0 bad1 : List Nat) (s : State) : Out :=
  .next (s.onMss fun m => if m.mpRuns then m.readDone ch bad0 bad1 else m)

/-- The shadows as the MP refreshes them (R452). -/
def Mss.refresh (m : Mss) : Mss :=
  let sh := m.shadow.put MBX_MSS_LOAD (m.rd MSS_STAT_LOAD)
  let sh := sh.put MBX_MSS_CALVALID (if m.sup.calSet then 1 else 0)
  let sh := (sh.put MBX_NEXT_VALUE (m.rd LOG_NEXT_SEQ)).put MBX_OPTIMEL_VALUE m.sup.optime
  let sh := (sh.put MBX_OPTIMEH_VALUE (m.sup.optime / 2 ^ 32)).put MBX_PCYC_VALUE m.sup.pcyc
  let sh := (sh.put MBX_CAL_VALUE m.sup.cal).put MBX_CALEP_VALUE m.sup.calEpoch
  { m with shadow := sh.put MBX_PROOF_VALUE m.proofMinutes }

/-- The operating minutes since the last completed proof test (R149, MBX_PROOF): the herd's count while a linked channel
votes, the MSS's own from OPTIME otherwise.
DEDUCED, unsafe: log entry 65. -/
def State.proofNow (s : State) : Nat :=
  match [Chan.A, Chan.B, Chan.C].find? fun ch => (s.chan ch).voting && (s.chan ch).mlink with
  | some ch => (s.chan ch).rd HRD_PROOF_ELAPSED
  | none => (s.mss.sup.optime - s.mss.proofAt) / 60000

/-- SHADOW_REFRESH (R452). -/
def execShadowRefresh (s : State) : Out :=
  .next (s.onMss fun m =>
    if m.mpRuns then
      { m with proofMinutes := s.proofNow, proofAt := m.sup.optime - 60000 * s.proofNow }.refresh
    else m)

/-- The load level after a frame (R454): the highest level whose threshold has been exceeded in 3 consecutive frames;
one level down after 10 consecutive frames below 60 %. -/
def Mss.loadFrame (m : Mss) (busy : Nat) : Mss :=
  let run := fun (p : Bool) n => if p then n + 1 else 0
  let m := m.onSup fun x => { x with
    above1 := run (decide (70 < busy)) x.above1, above2 := run (decide (80 < busy)) x.above2,
    above3 := run (decide (90 < busy)) x.above3, below := run (decide (busy < 60)) x.below }
  let old := m.rd MSS_STAT_LOAD
  let up := if 3 ≤ m.sup.above3 then 3 else if 3 ≤ m.sup.above2 then 2 else if 3 ≤ m.sup.above1 then 1 else 0
  let new := if old < up then up else if 10 ≤ m.sup.below then old - 1 else old
  let m := if 10 ≤ m.sup.below then m.onSup fun x => { x with below := 0 } else m
  let m := (m.wr MSS_STAT_LOAD new).flag UPD_STAT_PAUSED (new == 3)
  if new = old then m else m.record 0x205 0 (old + new * 256)

/-- LOAD_FRAME (R454). -/
def execLoadFrame (busyPercent : Nat) (s : State) : Out :=
  .next (s.onMss fun m => if m.mpRuns then m.loadFrame busyPercent else m)

/-- A heartbeat reaches every channel whose link is up: its watch restarts and its vote clears (R455, R520). -/
def State.heartbeat (s : State) : State :=
  let f (ch : Chan) (s : State) : State :=
    if (s.mss.port ch).up && (s.chan ch).live && (s.chan ch).mlink then
      (s.on ch fun c => { c with hbLost := false, mssVote := false }).onMss fun m =>
        (m.onPort ch fun p => { p with vote := false }).showPorts
    else s
  (f .C (f .B (f .A s))).showLost

/-- The supervisor counts unbroken heartbeats (R457): 60 s of them end the count of vote resets. -/
def Sup.beat (x : Sup) : Sup :=
  match x.hbFrom with
  | none => { x with hbFrom := some x.up }
  | some t => if 60000 ≤ x.up - t then { x with votes := 0 } else x

/-- MSS_HB_KICK (R455): the MP writes MSS_HB and the supervisor sends a heartbeat on every link. -/
def execMssHbKick (s : State) : Out :=
  .next (if s.mss.mpRuns then (s.onMss fun m => m.onSup Sup.beat).heartbeat else s)

/-- SUPERVISOR_HEARTBEAT (R455, R520): sent also while the MP is halted by its debug module. -/
def execSupervisorHeartbeat (s : State) : Out :=
  .next (if s.mss.on && s.mss.mp then (s.onMss fun m => m.onSup Sup.beat).heartbeat else s)

/-- MSS_HB_MISS (R455): 50 ms without a heartbeat raise MSS_HB and set the channel's reset vote. -/
def execMssHbMiss (ch : Chan) (s : State) : Out :=
  if (s.chan ch).live then
    let s := s.on ch fun c => { c with mssVote := true, hbLost := true }.raise 62
    let s := s.onMss fun m =>
      ((m.onPort ch fun p => { p with vote := p.up }).showPorts).onSup fun x => { x with hbFrom := none }
    .next s.showLost
  else .next s

/-- RESET_VOTE_END (R455): 1 s after the vote was set it is cleared. -/
def execResetVoteEnd (ch : Chan) (s : State) : Out :=
  .next ((s.onLive ch fun c => { c with mssVote := false }).onMss fun m =>
    if (s.chan ch).live then (m.onPort ch fun p => { p with vote := false }).showPorts else m)

/-- The votes suffice (R456): two channels, or every channel whose link is up when fewer than two are. -/
def Mss.voted (m : Mss) : Bool :=
  let v := (chanBits (m.rd MSS_STAT_VOTES)).length
  let u := (chanBits (m.rd MSS_STAT_LINKS)).length
  decide (2 ≤ v) || (decide (u < 2) && decide (1 ≤ v) && v == u)
where
  /-- The set bits of a mask of three channels. -/
  chanBits (n : Nat) : List Nat := (List.range 3).filter fun i => n.testBit i

/-- A reset of the MP (R456): the MP, its load measurement and its requests in progress; the log, the counters and the
session stay.
DEDUCED, unsafe: log entry 64. -/
def Mss.mpReset (m : Mss) (code : Nat) : Mss :=
  let m := { m with mp := false, ready := false, restart := some (code, m.rd MSS_STAT_VOTES) }
  let m := (m.wr MSS_STAT_LOAD 0).wr UPD_STAT_PAUSED 0
  m.onSup fun x => { x with above1 := 0, above2 := 0, above3 := 0, below := 0, hbFrom := none }

/-- The reset by vote; the third without 60 s of unbroken heartbeats holds the MP (R456, R457). -/
def Mss.voteReset (m : Mss) : Mss :=
  let n := m.sup.votes + 1
  let m := ((m.sat MSS_STAT_VOTERST).mpReset 1).onSup fun x => { x with votes := n }
  if 3 ≤ n then { m with held := true, restart := none } else m

/-- MP_VOTE_RESET (R456). -/
def execMpVoteReset (s : State) : Out :=
  .next (s.onMss fun m =>
    if m.on && !m.held && m.restart.isNone && m.voted then m.voteReset else m).showLost

/-- MP_WATCHDOG_RESET (R441): the MP's own watchdog. -/
def execMpWatchdogReset (s : State) : Out :=
  .next (s.onMss fun m => if m.mpRuns then m.mpReset 2 else m)

/-- MP_RESTART_DONE (R429, R456): the MP runs again from the ACTIVE slot's image, unless it is damaged (R492); forms MSS_PON and drives ERR_M (R458). -/
def execMpRestartDone (s : State) : Out :=
  .next (s.onMss fun m =>
    match m.restart with
    | some (code, votes) =>
      if !m.on || m.held then m
      else if m.imageGood true then
        ({ m.loadImage with mp := true, ready := true, restart := none, bus := .idle }.errPulse).record 0x200 code votes
      else { m with restart := none }
    | none => m)

end Sys2Proof.Machine
end

