-- ==== Sys2Proof/Machine/Tether.lean ====
section
/-! DEFINITION. The commands of the Tether node: ports, forwarding, stream contexts, slots, and link-delay exchanges
(12_tether_network.md, 13_network_time.md). -/

namespace Sys2Proof.Machine

/-- PORT_DOWN (R333, R355, R363): TT_LINK; BRK in a ring; a lead takes note for FOLD. -/
def execPortDown (ch : Chan) (port : Fin 2) (s : State) : Out :=
  .next (s.onLive ch fun c =>
    if c.tteOn && c.portUp port then
      let c := (c.wr (if port = 0 then TTE_STAT_LINK0 else TTE_STAT_LINK1) 0).brkRefresh
      (c.tteUp fun t => { t with brkSeen := true }).raise 51
    else c)

/-- PORT_UP (R333). -/
def execPortUp (ch : Chan) (port : Fin 2) (s : State) : Out :=
  .next (s.onLive ch fun c =>
    if c.tteOn then (c.wr (if port = 0 then TTE_STAT_LINK0 else TTE_STAT_LINK1) 1).brkRefresh else c)

/-- COUNT of an enumeration frame as this node sends it on (R358). -/
def Channel.countOn (c : Channel) (n : Nat) : Nat :=
  if c.addrT ≠ 0 then max n c.addrT else if n < 62 ∧ c.enumerated = true then n + 1 else n

/-- The forwarded copy of a frame (R335, R373): HOPS, CORR and the COUNT of an outgoing pass changed. -/
def Channel.copyOf (c : Channel) (f : Frame) (ttx : Int) : Frame :=
  let pay := if f.kind = 3 ∧ f.num 1 1 = 0 then BitVec.ofNat 8 (c.countOn (f.num 0 1)) :: f.payload.drop 1 else f.payload
  { f with
    port := f.port + 1, hops := f.hops - 1, corr := f.corr + (ttx - f.trx) + c.ldIn f.port, payload := pay, trx := ttx }

/-- A frame arrives on a port (R335): an own one is stripped; one of another EtherType, with HOPS = 0 or a bad FCS leaves
as a copy ended with a transmit-error symbol; every other is forwarded whole.
DEDUCED, unsafe: log entry 49. -/
def Channel.forward (c : Channel) (f : Frame) (ttx : Int) : Channel :=
  if !c.tteOn || !c.portUp f.port then c
  else if c.ownFrame f then (c.inc TTE_FWD_STRIPPED).tteUp fun t => { t with returned := true }
  else
    let c := if f.kind ≥ 7 then (c.rxForm f).1 else c
    let odd := f.etype != c.etypeOwn
    let c := if odd then c.sat TTE_ERR2_ETYPE else c
    let c := if f.hops = 0 && !odd then c.sat TTE_ERR2_HOPS0 else c
    if !c.portUp (f.port + 1 : Fin 2) then c
    else
      let whole := !odd && f.hops != 0 && f.fcsOk
      let g := { c.copyOf f ttx with fcsOk := whole }
      let c := c.tteUp fun t => { t with out := [((g.port : Nat), g)] }
      if whole then c.inc TTE_FWD_FWD else c

/-- FRAME_FORWARD (R335). -/
def execFrameForward (ch : Chan) (f : Frame) (ttx : Int) (s : State) : Out :=
  .next (s.onLive ch fun c => c.forward f ttx)

/-! Transmit contexts. -/

/-- The status payload (R351). -/
def Channel.statusPayload (c : Channel) : List Byte :=
  let o0 := c.rd STW_MODE_MODE + 8 * c.rd STW_MODE_IDEG + 16 * c.rd STW_MODE_PLANNED + 32 * c.rd STW_MODE_FAWN
  let o1 := c.rd STW_MODE_STOPCAUSE % 16 + 16 * c.me.num
  [BitVec.ofNat 8 o0, BitVec.ofNat 8 o1] ++ beBytes 2 (c.rd STW_SPDREQ_SPEED) ++ beBytes 2 (c.rd STW_LIMIT_RATE)
    ++ beBytes 2 (c.rd STW_LIMIT_TORQUE) ++ beBytes 4 ((c.regs.word STW_DEPTH).toNat % 2 ^ 22)
    ++ beBytes 4 (c.rd HRD_GEN_VALUE)

/-- The first `n` bytes of a FILL buffer. -/
def Channel.fillBytes (c : Channel) (id n : Nat) : List Byte := Memory.readBytes (kget [] c.tte.fill id) 0 n

/-- The fetch (R349, R351): committed buffers are swapped, COMMIT clears and SEQ counts; a status stream is refreshed and
committed by the hardware. -/
def Channel.fetch (c : Channel) (id : Nat) : Channel :=
  let fill := kget [] c.tte.fill id
  let clear (c : Channel) : Channel := (c.tteUp fun t => { t with commit := kset false t.commit id false }).showPorts
  if c.isStatus id then clear (c.swapBufs id (Memory.writeBytes fill 0 c.statusPayload) c.statusPayload)
  else if kget false c.tte.commit id then clear (c.swapBufs id fill (c.fillBytes id (kget 0 c.tte.fillLen id)))
  else c

/-- The stream has a slot in this cycle (R342, R346, R356). -/
def Channel.hasSlot (c : Channel) (id : Nat) : Bool :=
  if c.isClaimF id then (c.ownGrant id).isSome else !(c.rowSlots id).isEmpty

/-- STREAM_FETCH (R349): 2 µs before a slot of the stream in this cycle. -/
def execStreamFetch (ch : Chan) (id : Fin 128) (s : State) : Out :=
  .next (s.onLive ch fun c => if c.maySend && c.isTx id && !c.tte.enumFlag && c.hasSlot id then c.fetch id else c)

/-- Offset and ports of the stream's slot number `nth` in the row, none when it sends nothing there (R334, R343, R346,
R355, R356). -/
def Channel.slotOf (c : Channel) (id nth : Nat) (fold : Bool) : Option (Nat × List Nat) :=
  let pdir := if (c.ctx id 1).testBit 10 then 1 else 0
  let folded := c.is TTE_STAT_FOLD
  if c.isClaimF id then
    if fold || nth != 0 then none
    else (c.ownGrant id).map fun s => (s.2.1, if c.isRingTopo then [pdir] else [0, 1])
  else match (c.rowSlots id)[nth]? with
    | none => none
    | some e =>
      if fold then
        if c.isRingTopo && folded && c.isCrit id then (foldOfs e).map fun o => (o, [1 - pdir]) else none
      else if folded && e.1.testBit 7 && !c.isCrit id then none
      else some (bitsOf e.1 8 18, if c.isRingTopo then [pdir] else [0, 1])

/-- A slot of the node's own (R335, R343, R349, R354, R355). The guardian of a node that has not joined withholds
(R375). -/
def Channel.slot (c : Channel) (id nth : Nat) (fold : Bool) (w : SlotWait) : Channel :=
  if !c.hasSlots || !c.isTx id || c.tte.enumFlag then c
  else match c.slotOf id nth fold with
    | none => c
    | some (ofs, ports) =>
      if !(ports.any fun p => c.portUp p) then c
      else
        let (c, ok) := c.guardCheck
        if !ok then c
        else
          let (l, c) := c.slotPorts ports (c.slotAt ofs) w
          match l with
          | [] => c
          | p :: _ =>
            let seq := c.genOf id % 65536
            let c := c.sendAt l (c.ownFrameOf 1 id seq (c.ringWord 1 24 6) fold (c.curBuf id) (c.ctx id 2) 0)
            let c := (c.inc (TTE_CTXCNT_ACCEPT id)).wr (TTE_CTXSTAT_SEQ id) seq
            c.wr (TTE_CTXTIME_NS id) (p.2 / 65536).toNat

/-- STREAM_SLOT (R343): `nth` numbers the stream's entries in the row from 0. -/
def execStreamSlot (n : NodeSlot) (id : Fin 128) (nth : Nat) (fold : Bool) (s : State) : Out :=
  .next (s.onLive n.ch fun c => c.slot id nth fold n.wait)

/-- A write of TTE_PSTATk (R349, R364): LEN and COMMIT of the selected transmit context. A LEN above the buffer size is
given no meaning: a free length within it.
DEDUCED, unsafe: log entry 50. -/
def Channel.commitPort (c : Channel) (k : Nat) (v : Word) : Channel :=
  let id := c.rd (TTE_PSEL_CTX k)
  if c.isTx id then
    let want := bitsOf v.toNat 8 11
    let (len, c) := if want ≤ c.bufLen id then (want, c) else c.draw (c.bufLen id + 1)
    let set := kget false c.tte.commit id || v.toNat.testBit 23
    (c.tteUp fun t => { t with fillLen := kset 0 t.fillLen id len, commit := kset false t.commit id set }).showPorts
  else c

/-- TX_COMMIT (R349). -/
def execTxCommit (ch : Chan) (port : Fin 4) (v : Word) (s : State) : Out :=
  .next (s.onLive ch fun c =>
    if c.tteOn then { c.commitPort port v with bus := .ok 0 } else { c with bus := .error })

/-- A write of TTE_PSELk (R350): the context's buffer is mapped at the port.
DEDUCED, unsafe: log entry 50. -/
def Channel.selectPort (c : Channel) (k : Nat) (v : Word) : Channel := (c.wr (TTE_PSEL_CTX k) v.toNat).showPort k

/-- PORT_SELECT (R350). -/
def execPortSelect (ch : Chan) (port : Fin 4) (v : Word) (s : State) : Out :=
  .next (s.onLive ch fun c =>
    if c.tteOn then { c.selectPort port v with bus := .ok 0 } else { c with bus := .error })

/-! Receive contexts. -/

/-- Check 6 of R348 and the acceptance.
DEDUCED, unsafe: log entry 50. -/
def Channel.accept (c : Channel) (f : Frame) (id : Nat) : Channel :=
  let d := (f.seq + 65536 - c.rd (TTE_CTXSTAT_SEQ id)) % 65536
  if c.rd (TTE_CTXSTAT_STATE id) = 1 ∧ ¬(1 ≤ d ∧ d ≤ 32767) then
    if d = 0 then c.inc (TTE_CTXCNT_DUP id) else c.sat (TTE_CTXERR_OLD id)
  else
    let c := (c.runBreak f.src).swapBufs id (Memory.writeBytes (kget [] c.tte.fill id) 0 f.payload) f.payload
    let c := c.tteUp fun t => { t with got := kset false t.got id true }
    let c := ((c.wr (TTE_CTXSTAT_SEQ id) f.seq).wr (TTE_CTXSTAT_MISSRUN id) 0).wr (TTE_CTXSTAT_STATE id) 1
    ((c.wr (TTE_CTXTIME_NS id) (f.trx / 65536).toNat).inc (TTE_CTXCNT_ACCEPT id)).showPorts

/-- Checks 3 to 6 of R348, in their order. A frame of an unreliable source fails check 3 and still undergoes check 4
(R353); a frame without a slot in this cycle is outside every window. -/
def Channel.rxStream (c : Channel) (f : Frame) (id : Nat) : Channel :=
  let want := bitsOf (c.ctx id 3) 8 6
  let inWin := (c.dueOfs id f.fcopy).any fun o => c.inWindow f o
  if want ≠ 0 ∧ f.src ≠ want then c.sat (TTE_CTXERR_REJECT id)
  else if c.unreliable f.src then
    let c := c.sat (TTE_CTXERR_REJECT id)
    if inWin then c.windowPass f.src else c.tteUp fun t => { t with pass := kset 0 t.pass f.src 0 }
  else if !inWin then (c.sat (TTE_CTXERR_REJECT id)).windowReject f.src
  else if !f.codeOk (c.ctx id 2) then (c.sat (TTE_CTXERR_CODE id)).sat TTE_ERR_CODE
  else c.accept f id

/-- A stream frame arrives (R348): a lead hears the frames of its grants (R356); a node that has not joined has no
windows (R384). -/
def Channel.streamIn (c : Channel) (f : Frame) : Channel :=
  if !c.tteOn || !c.portUp f.port || f.kind ≠ 1 || c.ownFrame f then c
  else
    let (c, ok) := c.rxForm f
    if !ok then c
    else
      let c := match c.grantSlot (some f.src) f.stream with
        | some g => if c.roleT = 3 then c.tteUp fun t => { t with heard := kset false t.heard g.1 true } else c
        | none => c
      if c.isRx f.stream && c.joined && c.roleT != 0 then c.rxStream f f.stream else c

/-- STREAM_DATA_RECEIVED (R348). -/
def execStreamDataReceived (ch : Chan) (f : Frame) (s : State) : Out := .next (s.onLive ch fun c => c.streamIn f)

/-- A cycle missed for a context (R348, R362): STALE at STALEN; a critical one loses the ring at RLOSS.
DEDUCED, unsafe: log entry 50. -/
def Channel.missed (c : Channel) (id : Nat) : Channel :=
  let old := c.rd (TTE_CTXSTAT_MISSRUN id)
  let n := satInc 8 old
  let c := (c.sat (TTE_CTXCNT_MISS id)).wr (TTE_CTXSTAT_MISSRUN id) n
  let c := if c.rd (TTE_CTXSTAT_STATE id) = 1 ∧ bitsOf (c.ctx id 3) 0 8 ≤ n then c.wr (TTE_CTXSTAT_STATE id) 2 else c
  c.showPorts.raiseIf (c.isCrit id && decide (old < c.rloss) && decide (c.rloss ≤ n)) 50

/-- ACCEPTANCE_WINDOW_END (R348): the end of the last window of a stream in this cycle. -/
def execAcceptanceWindowEnd (ch : Chan) (id : Fin 128) (s : State) : Out :=
  .next (s.onLive ch fun c =>
    if c.tteOn && c.isRx id && c.joined && !(c.dueOfs id false).isEmpty && !kget false c.tte.got id then c.missed id
    else c)

/-! Link-delay exchanges (R370 to R372). -/

/-- A frame of a link-delay exchange (R370): HOPS = 0, so that the neighbour consumes it. It leaves whether or not the
port is up (R371). -/
def Channel.sendLd (c : Channel) (kind port : Nat) (payload : List Byte) (at_ : Int) : Channel :=
  let (seq, c) := c.drawSeq
  let f := { c.ownFrameOf kind 0 seq 0 false payload 0xFFFFFFFF at_ with port := Fin.ofNat 2 port }
  c.tteUp fun t => { t with out := [(port, f)] }

/-- LINK_DELAY_REQUEST_SEND (R371). -/
def execLinkDelayRequestSend (ch : Chan) (port : Fin 2) (t1 : Int) (s : State) : Out :=
  .next (s.onLive ch fun c =>
    if c.tteOn && c.ntcOn then
      let n := ((c.ntc.ld port).seq + 1) % 65536
      let c := c.ntcUp fun x => x.onLd port fun l => { l with seq := n, wait := some (n, t1) }
      c.sendLd 5 port (beBytes 2 n ++ List.replicate 6 0) t1
    else c)

/-- LINK_DELAY_REQUEST_RECEIVED (R370): answered on the port of arrival with the turnaround. -/
def execLinkDelayRequestReceived (ch : Chan) (f : Frame) (t3 : Int) (s : State) : Out :=
  .next (s.onLive ch fun c =>
    if c.tteOn then
      let (c, ok) := c.rxKind f 5
      if ok then c.sendLd 6 f.port (f.payload.take 2 ++ List.replicate 6 0 ++ beBytes 8 (ofSigned 64 (t3 - f.trx))) t3 else c
    else c)

/-- LINK_DELAY_RESPONSE_RECEIVED (R372). -/
def execLinkDelayResponseReceived (ch : Chan) (f : Frame) (s : State) : Out :=
  .next (s.onLive ch fun c =>
    if c.tteOn && c.ntcOn then
      let (c, ok) := c.rxKind f 6
      if ok then c.ldResponse f.port (f.num 0 2) (toSigned 64 (f.num 8 8)) f.trx else c
    else c)

end Sys2Proof.Machine
end

