-- ==== Sys2Proof/Machine/TetherLead.lean ====
section
/-! DEFINITION. The cycle, the lead, claims, enumeration and start-up of a Tether ring (12_tether_network.md). -/

namespace Sys2Proof.Machine

/-! The lead (R341, R355 to R358). -/

/-- FOLD as the lead sends it (R355); a port that is down at the start of a cycle makes the new cycle unclean too.
DEDUCED, unsafe: log entry 51. -/
def Channel.leadFoldStep (c : Channel) : Channel :=
  let down := !c.portUp 0 || !c.portUp 1
  c.tteUp fun t =>
    if !c.isRingTopo then { t with brkSeen := false, leadFold := false }
    else if t.brkSeen || down then { t with brkSeen := down, leadFold := true, clean := 0 }
    else { t with clean := t.clean + 1, leadFold := t.leadFold && decide (t.clean + 1 < c.ringWord 3 16 8) }

/-- A claim slot whose granted frame has been silent for 16 cycles is freed (R356).
DEDUCED, unsafe: log entry 51. -/
def Channel.silence (c : Channel) (slot : Nat) : Channel :=
  if kget 0 c.tte.grants slot = 0 then c
  else if kget false c.tte.heard slot then c.tteUp fun t => { t with silent := kset 0 t.silent slot 0 }
  else
    let n := kget 0 c.tte.silent slot + 1
    if 16 ≤ n then
      (c.sat TTE_CLAIM_REVOKES).tteUp fun t => { t with grants := kset 0 t.grants slot 0, silent := kset 0 t.silent slot 0 }
    else c.tteUp fun t => { t with silent := kset 0 t.silent slot n }

/-- A stream claim fits its slot (R356). A claim carries no LEN: the lead knows it only from a context of its own, and is
otherwise free to judge.
DEDUCED, unsafe: log entry 52. -/
def Channel.claimFits (c : Channel) (stream maxlen : Nat) : Bool × Channel :=
  if c.declared stream then (decide (c.bufLen stream ≤ maxlen), c)
  else
    let (k, c) := c.draw 2
    (k == 1, c)

/-- The claim accepted in a slot in the cycle before (R356): a stream is granted, an address request waits for its
answer. A grant's silence counts from the cycle after it.
DEDUCED, unsafe: log entry 52. -/
def Channel.grantStep (c : Channel) (s : Nat × Nat × Nat) : Channel :=
  match kget none c.tte.claims s.1 with
  | none => c
  | some (src, dev, req, stream) =>
    if req = 1 then
      if c.tte.asks.contains dev then c else c.tteUp fun t => { t with asks := t.asks ++ [dev] }
    else if req ≠ 0 ∨ src = 0 ∨ stream = 0 ∨ kget 0 c.tte.grants s.1 ≠ 0 then c
    else
      let (ok, c) := c.claimFits stream s.2.2
      if ok then
        (c.sat TTE_CLAIM_GRANTS).tteUp fun t => { t with
          grants := kset 0 t.grants s.1 (128 * src + stream), silent := kset 0 t.silent s.1 0,
          heard := kset false t.heard s.1 true }
      else c

/-- The highest address that the lead knows to be in use (R357, R358). -/
def Channel.topAddr (c : Channel) : Nat := c.tte.table.foldl (fun m p => max m p.2) (max c.addrT c.tte.enumCount)

/-- At most one address request is answered in a cycle (R357).
DEDUCED, unsafe: log entry 52. -/
def Channel.answerAsk (c : Channel) : Channel :=
  match c.tte.asks with
  | [] => c
  | dev :: r =>
    match c.tte.table.find? fun p => p.1 == dev with
    | some p => c.tteUp fun t => { t with asks := r, granted := p }
    | none =>
      let a := c.topAddr + 1
      if 62 < a then c.tteUp fun t => { t with asks := r }
      else c.tteUp fun t => { t with asks := r, granted := (dev, a), table := t.table ++ [(dev, a)] }

/-- A grant as the cycle frame carries it (R341). -/
def grantWord (g : Nat) : Nat := g / 128 * 1024 + g % 128

/-- The payload of the cycle frame (R341). -/
def Channel.cyclePayload (c : Channel) : List Byte :=
  beBytes 4 c.tte.cyc ++ [BitVec.ofNat 8 (c.rd TTE_ROLL_ROW)]
    ++ [BitVec.ofNat 8 ((if c.tte.leadFold then 1 else 0) + if c.tte.enumFlag then 2 else 0)]
    ++ beBytes 2 (c.rd NTC_EPOCH_EPOCH) ++ beBytes 8 (c.tte.grid / 65536).toNat ++ beBytes 2 (c.ringWord 1 0 14)
    ++ [BitVec.ofNat 8 c.addrT, 0] ++ (List.range 16).flatMap (fun i => beBytes 2 (grantWord (kget 0 c.tte.grants i)))
    ++ beBytes 6 c.tte.granted.1 ++ [BitVec.ofNat 8 c.tte.granted.2] ++ List.replicate 5 0

/-- An enumeration pass leaves at offset 300 (R358) on its port: the first on PORT0, the second of a line on PORT1. A
line's port without a link has no node behind it: its report counts as arrived. -/
def Channel.sendPass (c : Channel) (w : SlotWait) : Channel :=
  let c := if c.addrT = 0 then c.wr TTE_STAT_ADDR 1 else c
  let port := if c.tte.enumPass ≤ 1 then 0 else 1
  if !c.portUp port && !c.isRingTopo then
    c.tteUp fun t =>
      if t.enumPass ≤ 1 then { t with enumPass := 2, enumAge := 0 }
      else { t with enumPass := 0, enumFlag := false }
  else
    let c := c.tteUp fun t => { t with enumPass := if t.enumPass ≤ 1 then 1 else 3, enumAge := 0 }
    let (l, c) := c.slotPorts [port] (c.slotAt 300) w
    c.sendKindAt 3 l ([BitVec.ofNat 8 c.tte.enumCount, 0] ++ List.replicate 6 0)

/-- Enumeration at a cycle start of the lead (R358).
DEDUCED, unsafe: log entry 52. -/
def Channel.enumStep (c : Channel) (w : SlotWait) : Channel :=
  if !c.tte.enumFlag then c
  else if c.tte.enumPass = 0 then (c.tteUp fun t => { t with enumCount := max c.topAddr 1 }).sendPass w
  else if c.tte.enumPass = 2 then c.sendPass w
  else c.tteUp fun t => { t with enumAge := t.enumAge + 1 }

/-- The lead's cycle start (R341): FOLD, grants and addresses of the cycle before, the cycle frame on both ports, and an
enumeration pass where one is due. -/
def Channel.leadCycle (c : Channel) (w : SlotWait) : Channel :=
  let c := c.leadFoldStep
  let slots := c.claimSlots
  let c := slots.foldl (fun c s => c.silence s.1) c
  let c := c.tteUp fun t => { t with heard := [] }
  let c := (slots.foldl Channel.grantStep c).answerAsk
  let c := (c.wr TTE_CYCLE_CYCLE c.tte.cyc).wr TTE_ROLL_LEAD c.addrT
  let c := c.tteUp fun t => { t with fold := t.leadFold, framed := true, claims := [], fresh := [] }
  (c.sendKind 0 [0, 1] c.cyclePayload c.tte.grid).enumStep w

/-! The cycle of every node (R341, R342, R355, R361, R362, R384). -/

/-- The end of the cycle before: frames that did not return, cycle frames that did not come.
DEDUCED, unsafe: log entry 51. -/
def Channel.cycleEnd (c : Channel) : Channel :=
  let old := c.tte.missing
  let c := c.tteUp fun t => { t with
    lonely := if t.returned then 0 else if t.sent then t.lonely + 1 else t.lonely,
    missing := if c.roleT = 3 ∨ t.framed = true then 0 else t.missing + 1,
    returned := false, sent := false, got := [], framed := false }
  c.brkRefresh.raiseIf (decide (old < c.rloss) && c.tte.missing == c.rloss) 50

/-- The grid of a joined node goes on by one cycle and its ROW by one, which at the lead is k mod NROWS (R342, R384); the
node folds or unfolds (R355). -/
def Channel.nextCycle (c : Channel) : Channel :=
  let c := c.tteUp fun t => { t with
    grid := t.grid + (c.cycleNs * 65536 : Nat), cyc := (t.cyc + 1) % 2 ^ 32 }
  let n := c.rd TTE_ROLL_NROWS
  let row := if n = 0 then 0 else (c.rd TTE_ROLL_ROW + 1) % n
  let c := (c.wr TTE_ROLL_ROW row).wr NTC_CSTART_NS (c.tte.grid / 65536).toNat
  (c.flag TTE_STAT_FOLD (c.isRingTopo && (c.brkNow || c.tte.fold))).ntCycle

/-- The report that an end node of a line owes (R358). -/
def Channel.sendOwed (c : Channel) (w : SlotWait) : Channel :=
  match c.tte.owed with
  | none => c
  | some n =>
    let (c, ok) := (c.tteUp fun t => { t with owed := none }).guardCheck
    if ok then
      let (l, c) := c.slotPorts [0, 1] (c.slotAt 300) w
      c.sendKindAt 3 l ([BitVec.ofNat 8 n, 1] ++ List.replicate 6 0)
    else c

/-- CYCLE_START (R341): a node that has not joined has no grid (R384). -/
def execCycleStart (n : NodeSlot) (s : State) : Out :=
  .next (s.onLive n.ch fun c =>
    if !c.tteOn || c.roleT = 0 || !c.joined then c
    else
      let c := c.cycleEnd.nextCycle
      if c.roleT = 3 then c.leadCycle n.wait else c.sendOwed n.wait)

/-! Own claims (R356). -/

/-- What the node claims next: 0 an address, otherwise a stream without a grant. -/
def Channel.claimDue (c : Channel) : Option Nat :=
  if c.addrT = 0 then some 0
  else (List.range 128).find? fun id => c.isTx id && c.isClaimF id && (c.grantSlot (some c.addrT) id).isNone

/-- Send a claim in the free claim slot at or after the device ID modulo the number of slots, counting round. -/
def Channel.sendClaim (c : Channel) (w : SlotWait) : Channel :=
  match c.claimDue with
  | none => if c.rd TTE_CLAIM_STATE = 2 then c else c.wr TTE_CLAIM_STATE 0
  | some what =>
    let slots := c.claimSlots
    let free := slots.filter fun s => kget 0 c.tte.grants s.1 == 0
    let from_ := if slots.isEmpty then 0 else c.devId % slots.length
    match (free.filter fun s => decide (from_ ≤ s.1)) ++ free with
    | [] => c.wr TTE_CLAIM_STATE 3
    | s :: _ =>
      let (c, ok) := (c.tteUp fun t => { t with claimFor := what }).guardCheck
      if !ok then c.wr TTE_CLAIM_STATE 3
      else
        let (l, c) := c.slotPorts [0, 1] (c.slotAt s.2.1) w
        if l.isEmpty then c.wr TTE_CLAIM_STATE 3
        else (c.wr TTE_CLAIM_STATE 1).sendKindAt 2 l
          (beBytes 6 c.devId ++ [if what = 0 then 1 else 0, BitVec.ofNat 8 what])

/-- The own claim at a cycle frame: granted, refused, lost, or to be made. -/
def Channel.claimStep (c : Channel) (agdev agaddr : Nat) (w : SlotWait) : Channel :=
  let c := if c.addrT = 0 ∧ agdev = c.devId ∧ agaddr ≠ 0 then c.wr TTE_STAT_ADDR agaddr else c
  let st := c.rd TTE_CLAIM_STATE
  let got := c.grantSlot (some c.addrT) c.tte.claimFor
  let c :=
    if c.tte.claimFor = 0 then
      if st = 0 then c else c.wr TTE_CLAIM_STATE (if c.addrT ≠ 0 then 0 else if st = 1 then 3 else st)
    else match got with
      | some g => (c.wr TTE_CLAIM_STATE 2).wr TTE_CLAIM_SLOT g.1
      | none => if st = 1 then c.wr TTE_CLAIM_STATE 3 else if st = 2 then c.wr TTE_CLAIM_STATE 0 else c
  let st := c.rd TTE_CLAIM_STATE
  if (st = 0 ∨ st = 2) ∧ c.maySend = true ∧ c.tte.enumFlag = false ∧ c.claimDue.isSome = true then c.sendClaim w
  else c

/-! Cycle frames received (R341, R361, R375, R384). -/

/-- Rank of two nodes by address and device ID (R360): the first ranks before the second. -/
def ranksBefore (a da b db : Nat) : Bool :=
  if a ≠ 0 ∧ b ≠ 0 then decide (a < b) else if a ≠ 0 then true else if b ≠ 0 then false else decide (da < db)

/-- A cycle frame of another lead (R361): the own lead withdraws if the other ranks before it. Between two unaddressed
leads the frame tells no device ID: a free value decides. -/
def Channel.yieldTo (c : Channel) (lead : Nat) : Bool × Channel :=
  if lead = 0 ∧ c.addrT = 0 then
    let (k, c) := c.draw 2
    (k == 1, c)
  else (ranksBefore lead 0 c.addrT 1, c)

/-- GRANT0 to GRANT15 of a cycle frame. -/
def grantsOf (f : Frame) : KMap Nat :=
  (List.range 16).foldl (fun m i =>
    let w := f.num (20 + 2 * i) 2
    kset 0 m i (if w / 1024 = 0 then 0 else w / 1024 * 128 + w % 128)) []

/-- What a follower takes from the first copy of a cycle's frame. -/
def Channel.takeFrame (c : Channel) (f : Frame) : Channel :=
  let flags := f.num 5 1
  let c := (c.wr TTE_CYCLE_CYCLE (f.num 0 4)).wr TTE_ROLL_LEAD (f.num 18 1)
  let c := c.wr TTE_ROLL_ROW (f.num 4 1)
  let new := grantsOf f
  c.tteUp fun t => { t with
    cyc := f.num 0 4, framed := true, missing := 0, fold := flags.testBit 0, enumFlag := flags.testBit 1,
    grants := new, fresh := (List.range 16).filter fun i => kget 0 new i != kget 0 t.grants i }

/-- A follower's cycle frame: network time, the grid, and on the first copy of the cycle its contents. A node that joins
on it marks and sends nothing before the next cycle start (R379); one that has not joined withholds the report it owes
(R354, R375). -/
def Channel.followFrame (c : Channel) (f : Frame) (w : SlotWait) : Channel :=
  let first := !c.tte.framed || c.tte.cyc != f.num 0 4
  let c := if first then (c.takeFrame f).ntcUp fun n => { n with used := none, justJoined := false } else c
  let was := c.joined
  let c := c.sync f.port f.hops (f.num 6 2) ⟨f.num 0 4, f.num 18 1, f.num 8 8, f.corr, f.trx⟩ true
  let c :=
    if c.joined && (c.ntc.ld f.port).valid && c.ntcOn then
      (c.tteUp fun t => { t with grid := (f.num 8 8 * 65536 : Nat) }).wr NTC_CSTART_NS (f.num 8 8)
    else c
  let c :=
    if c.joined && !was then
      c.ntcUp fun n => { n with fired := (List.range 8).foldl (fun m i => kset 0 m i (f.num 0 4 + 1)) n.fired }
    else c
  if !first then c
  else (if c.joined then c else c.sendOwed w).claimStep (f.num 52 6) (f.num 58 1) w

/-- A cycle frame (R341, R359 to R361). -/
def Channel.cycleFrame (c : Channel) (f : Frame) (w : SlotWait) : Channel :=
  if !c.tteOn || !c.portUp f.port || c.roleT = 0 || c.ownFrame f then c
  else
    let (c, ok) := c.rxKind f 0
    if !ok then c
    else if f.num 16 2 ≠ c.ringWord 1 0 14 then c.sat TTE_ERR_FORM
    else if c.roleT = 3 then
      let (yields, c) := c.yieldTo (f.num 18 1)
      if yields then ((c.wr TTE_STAT_ROLE 4).wr NTC_STAT_LEAD 0).followFrame f w else c
    else if c.roleT = 2 then c.wr TTE_STAT_ROLE 1
    else (c.wr TTE_STAT_ROLE 4).followFrame f w

/-- CYCLE_FRAME_RECEIVED (R341). -/
def execCycleFrameReceived (n : NodeSlot) (f : Frame) (s : State) : Out :=
  .next (s.onLive n.ch fun c => c.cycleFrame f n.wait)

/-! Claims at the lead (R356). -/

/-- A claim frame at the lead: the first one accepted in a slot in a cycle counts; a release frees its slot. -/
def Channel.claimIn (c : Channel) (f : Frame) (slot : Nat) : Channel :=
  match c.claimSlots.find? fun s => s.1 == slot with
  | none => c
  | some s =>
    if !c.tteOn || !c.portUp f.port || c.roleT ≠ 3 || c.ownFrame f || f.kind ≠ 2 then c
    else
      let (c, ok) := c.rxForm f
      if !ok then c
      else
        let (c, ok) := c.windowCheck f s.2.1
        if !ok then c
        else if !f.codeOk 0xFFFFFFFF then c.sat TTE_ERR_CODE
        else
          let c := c.runBreak f.src
          let req := f.num 6 1
          let stream := f.num 7 1
          if req = 2 then
            match c.grantSlot (some f.src) stream with
            | some g => c.tteUp fun t => { t with grants := kset 0 t.grants g.1 0, silent := kset 0 t.silent g.1 0 }
            | none => c
          else if 2 < req ∨ kget 0 c.tte.grants slot ≠ 0 then c
          else match kget none c.tte.claims slot with
            | some _ => c
            | none => c.tteUp fun t => { t with claims := kset none t.claims slot (some (f.src, f.num 0 6, req, stream)) }

/-- CLAIM_RECEIVED (R356). -/
def execClaimReceived (ch : Chan) (f : Frame) (slot : Fin 16) (s : State) : Out :=
  .next (s.onLive ch fun c => c.claimIn f slot)

/-- CLAIM_RETRY (R356): (device ID mod 8) + 1 cycles after a claim without a grant. -/
def execClaimRetry (n : NodeSlot) (s : State) : Out :=
  .next (s.onLive n.ch fun c =>
    if c.maySend && !c.tte.enumFlag && c.rd TTE_CLAIM_STATE == 3 then c.sendClaim n.wait else c)

/-! Enumeration (R358). -/

/-- An outgoing pass at a node: an unaddressed one takes COUNT + 1, an end node of a line owes its report. -/
def Channel.passSeen (c : Channel) (f : Frame) : Channel :=
  let n := c.countOn (f.num 0 1)
  let c := if c.addrT = 0 ∧ c.enumerated = true ∧ f.num 0 1 < 62 then c.wr TTE_STAT_ADDR n else c
  if !c.isRingTopo && !c.portUp (f.port + 1 : Fin 2) then c.tteUp fun t => { t with owed := some n } else c

/-- A pass is complete at the lead with a final COUNT. At COUNT = 62 the lead cannot tell whether a node was left over
from the frame: a free value says whether ENUMOVF is set. -/
def Channel.passDone (c : Channel) (n : Nat) (last : Bool) : Channel :=
  let c := c.tteUp fun t => { t with
    enumCount := max t.enumCount n, enumAge := 0, enumPass := if last then 0 else 2, enumFlag := !last }
  if 62 ≤ n then
    let (k, c) := c.draw 2
    if k = 1 then c.wr TTE_STAT_ENUMOVF 1 else c
  else c

/-- An enumeration frame.
DEDUCED, unsafe: log entry 52. -/
def Channel.enumIn (c : Channel) (f : Frame) : Channel :=
  if !c.tteOn || !c.portUp f.port || c.roleT = 0 || f.kind ≠ 3 then c
  else
    let (c, ok) := c.rxForm f
    if !ok then c
    else
      let (c, ok) := c.windowCheck f 300
      if !ok then c
      else if !f.codeOk 0xFFFFFFFF then c.sat TTE_ERR_CODE
      else
        let c := c.runBreak f.src
        if c.roleT = 3 then
          let pass := c.tte.enumPass
          if f.num 1 1 = 0 then
            if c.isRingTopo && c.ownFrame f && pass == 1 then c.passDone (f.num 0 1) true else c
          else if !c.isRingTopo && pass == 1 && f.port == 0 then c.passDone (f.num 0 1) false
          else if !c.isRingTopo && pass == 3 && f.port == 1 then c.passDone (f.num 0 1) true
          else c
        else if f.num 1 1 = 0 then c.passSeen f
        else c

/-- ENUMERATION_FRAME (R358). -/
def execEnumerationFrame (ch : Chan) (f : Frame) (s : State) : Out := .next (s.onLive ch fun c => c.enumIn f)

/-- ENUMERATION_RESEND (R358): a pass without its return or report within 2 cycles is sent again. -/
def execEnumerationResend (n : NodeSlot) (s : State) : Out :=
  .next (s.onLive n.ch fun c =>
    if c.tteOn && c.roleT == 3 && c.tte.enumFlag && (c.tte.enumPass == 1 || c.tte.enumPass == 3)
        && decide (2 ≤ c.tte.enumAge) then c.sendPass n.wait
    else c)

/-! Start-up and takeover (R359 to R361). -/

/-- LISTEN_TIMEOUT (R359, R360): a lead-capable node that listens starts the ring. -/
def execListenTimeout (ch : Chan) (s : State) : Out :=
  .next (s.onLive ch fun c =>
    if c.tteOn && c.roleT == 1 && c.leadCap then
      (c.wr TTE_STAT_ROLE 2).sendKind 4 [0, 1] (beBytes 6 c.devId ++ [BitVec.ofNat 8 c.addrT, 0]) c.nt16
    else c)

/-- STARTUP_FRAME (R360): a starting node withdraws for one that ranks before it. -/
def execStartupFrame (ch : Chan) (f : Frame) (s : State) : Out :=
  .next (s.onLive ch fun c =>
    if !c.tteOn || !c.portUp f.port || c.roleT = 0 || c.ownFrame f then c
    else
      let (c, ok) := c.rxKind f 4
      if ok && c.roleT == 2 && ranksBefore (f.num 6 1) (f.num 0 6) c.addrT c.devId then c.wr TTE_STAT_ROLE 1 else c)

/-- The node becomes lead (R360, R361, R377, R378): at a cold start T0 is its own time in whole ns, EPOCH counts, cycle
frame 0 leaves and an enumerated ring is enumerated; at a takeover the grid goes on and the next cycle start sends. -/
def Channel.becomeLead (c : Channel) (w : SlotWait) : Channel :=
  let c := (c.wr TTE_STAT_ROLE 3).wr NTC_STAT_LEAD 1
  let c := (c.wr TTE_ROLL_LEAD c.addrT).wr NTC_STAT_HOLD 0
  let c := c.tteUp fun t => { t with
    missing := 0, claims := [], asks := [], silent := [], heard := [], leadFold := t.fold, clean := 0, brkSeen := false }
  if c.joined then c
  else
    let t0 : Nat := (c.ntc.nt + 2 ^ 23) / 2 ^ 24
    let c := (c.inc NTC_EPOCH_EPOCH).wr NTC_STAT_JOINED 1
    let c := c.ntcUp fun n => { n with first := none, clampRun := 0, used := none, justJoined := false }
    let c := c.tteUp fun t => { t with grid := (t0 * 65536 : Nat), cyc := 0, enumFlag := c.enumerated }
    ((c.wr TTE_ROLL_ROW 0).wr NTC_CSTART_NS t0).leadCycle w

/-- STARTUP_WAIT_END (R360). -/
def execStartupWaitEnd (n : NodeSlot) (s : State) : Out :=
  .next (s.onLive n.ch fun c => if c.tteOn && c.roleT == 2 then c.becomeLead n.wait else c)

/-- CYCLE_FRAME_LOSS (R361): the third cycle start in a row without a valid cycle frame.
DEDUCED, unsafe: log entry 51. -/
def execCycleFrameLoss (ch : Chan) (s : State) : Out :=
  .next (s.onLive ch fun c =>
    if c.tteOn && c.roleT == 4 && !c.tte.framed
        && (c.tte.missing == 2 || (c.leadCap && decide (2 ≤ c.tte.missing))) then
      (if c.leadCap then c.wr TTE_STAT_ROLE 1 else c).raise 52
    else c)

end Sys2Proof.Machine
end

