-- ==== Sys2Proof/Machine/Isobus.lean ====
section
/-! DEFINITION. The ISOBUS attachment (14_isobus.md): address claim, the voice, messages and transport sessions. Functions
are numbered 0 steering, 1 brake. Frame contents that the spec takes from ISO 11783 are PRESUMED as that standard gives
them. -/

namespace Sys2Proof.Machine

/-- Change the attachment's part. -/
def Channel.canUp (c : Channel) (f : Can → Can) : Channel := { c with can := f c.can }

/-- The controller receives: enabled, out of reset, integrated and not bus-off. -/
def Channel.canRx (c : Channel) : Bool := c.canOn && c.can.up && !c.is CAN_ISTAT_OFF

/-- The voice, and the voice that transmits (R393, R395). -/
def Channel.voice (c : Channel) : Bool := c.is CAN_ISTAT_VOICE
def Channel.speaks (c : Channel) : Bool := c.canRx && c.voice && c.can.on

/-- A channel transmits on the bus. -/
def State.spoken (s : State) : Bool := [Chan.A, Chan.B, Chan.C].any fun ch => (s.chan ch).live && (s.chan ch).speaks

/-! Control functions (R391, R394). -/

/-- The record of a function, its NAME, its preferred address, whether it may configure its address. -/
def Channel.cfRec (c : Channel) (f : Nat) : Option FolRec := (recsOf c.fol.recs 0x0600).find? fun r => bitsOf (r.w 0) 0 1 == f
def cfName (r : FolRec) : Nat := r.w 1 + r.w 2 * 2 ^ 32
def cfPref (r : FolRec) : Nat := bitsOf (r.w 0) 8 8
def cfSelf (r : FolRec) : Bool := (r.w 2).testBit 31

/-- Address and claim state of a function. -/
def Channel.saOf (c : Channel) (f : Nat) : Nat := c.rd (CAN_CLAIM_SA f)
def Channel.claimState (c : Channel) (f : Nat) : Nat := c.rd (CAN_CLAIM_STATE f)

/-- Hold-off of a function (R394). -/
def Can.hold (x : Can) (f : Nat) : Bool := if f = 0 then x.hold0 else x.hold1
def Can.setHold (x : Can) (f : Nat) (v : Bool) : Can := if f = 0 then { x with hold0 := v } else { x with hold1 := v }

/-- Transmit session and waiting frame of a function. -/
def Can.tx (x : Can) (f : Nat) : Option TxSession := if f = 0 then x.tx0 else x.tx1
def Can.setTx (x : Can) (f : Nat) (v : Option TxSession) : Can := if f = 0 then { x with tx0 := v } else { x with tx1 := v }
def Can.pend (x : Can) (f : Nat) : Option CanFrame := if f = 0 then x.pend0 else x.pend1
def Can.setPend (x : Can) (f : Nat) (v : Option CanFrame) : Can :=
  if f = 0 then { x with pend0 := v } else { x with pend1 := v }

/-- BUSY of the function that CAN_TXCTL names (R404). -/
def Channel.showBusy (c : Channel) : Channel := c.flag CAN_TXCTL_BUSY (c.can.tx (c.rd CAN_TXCTL_CF)).isSome

/-- The function that holds an address, claimed or being claimed. -/
def Channel.funcOf (c : Channel) (a : Nat) : Option Nat :=
  [0, 1].find? fun f => (c.claimState f == 1 || c.claimState f == 2) && c.saOf f == a

/-- A frame is for the device: to one of its functions, or global (R397). -/
def Channel.canForMe (c : Channel) (f : CanFrame) : Bool := f.da == 255 || (c.funcOf f.da).isSome

/-- A frame joins the voice's queue; Connection Aborts are counted by their reason (R401). -/
def Channel.enqueue (c : Channel) (f : CanFrame) : Channel :=
  let c := if f.pgn = 0xEC00 ∧ f.data.head? = some 255 then
      (match (f.data.getD 1 0).toNat with
        | 1 => c.sat CAN_TP_ABBUSY
        | 2 => c.sat CAN_TP_ABRES
        | _ => c)
    else c
  c.canUp fun x => { x with queue := x.queue ++ [f] }

/-- A frame that only the voice sends: while no channel speaks, every channel keeps it as owed (R395). -/
def Channel.say (c : Channel) (gap : Bool) (f : CanFrame) : Channel :=
  if c.speaks then c.enqueue f
  else if gap then c.canUp fun x => { x with owed := x.owed ++ [f] } else c

/-! Frames (ISO 11783-3 and -5). -/

/-- Address Claimed, or Cannot Claim from address 254 (R394).
PRESUMED, unsafe: log entry 54. -/
def claimFrame (sa name : Nat) : CanFrame := ⟨0xEE00, sa, 255, leBytes 8 name⟩

/-- A TP.CM frame: control byte, four bytes of its own, the PGN.
PRESUMED, unsafe: log entry 54. -/
def tpCm (sa da control b1 b2 b3 b4 pgn : Nat) : CanFrame :=
  ⟨0xEC00, sa, da, ([control, b1, b2, b3, b4].map (BitVec.ofNat 8 ·)) ++ leBytes 3 pgn⟩
/-- PRESUMED, unsafe: log entry 54. -/
def tpCts (sa da n next pgn : Nat) : CanFrame := tpCm sa da 17 n next 255 255 pgn
/-- PRESUMED, unsafe: log entry 54. -/
def tpEnd (sa da size packets pgn : Nat) : CanFrame := tpCm sa da 19 (size % 256) (size / 256) packets 255 pgn
/-- PRESUMED, unsafe: log entry 54. -/
def tpAbort (sa da reason pgn : Nat) : CanFrame := tpCm sa da 255 reason 255 255 255 pgn

/-- A TP.DT frame: sequence number and seven bytes, filled with 0xFF. -/
def tpDt (sa da n : Nat) (data : List Byte) : CanFrame :=
  let p := slice data (7 * (n - 1)) 7
  ⟨0xEB00, sa, da, BitVec.ofNat 8 n :: (p ++ List.replicate (7 - p.length) 255)⟩

/-- PGN in a TP.CM frame, and packets of a size. -/
def tpPgnOf (f : CanFrame) : Nat := leNat (slice f.data 5 3)
def packetsOf (size : Nat) : Nat := (size + 6) / 7

/-! The receive queue (R397, R399, R404). -/

/-- The head entry, COUNT and VALID. -/
def Channel.showRx (c : Channel) : Channel :=
  let q := c.can.rxq
  let c := c.wr CAN_RXCTL_COUNT (min 15 q.length)
  match q with
  | [] => (c.wrWord CAN_RXINFO 0).wrWord CAN_RXMETA 0
  | e :: _ =>
    let c := (c.wr CAN_RXINFO_SA e.sa).wr CAN_RXINFO_PGN e.pgn
    ((c.wr CAN_RXMETA_SEQ e.seq).wr CAN_RXMETA_VALID 1).wr CAN_RXMETA_LEN e.data.length

/-- A message enters the queue with its SEQ (R399), or is dropped and counted on a full one. -/
def Channel.rxPush (c : Channel) (pgn sa : Nat) (data : List Byte) : Channel :=
  if 16 ≤ c.can.rxq.length then c.sat CAN_RXCTL_DROP
  else (c.canUp fun x => { x with rxq := x.rxq ++ [⟨pgn, sa, c.tb.toNat / 2000 % 65536, data⟩] }).showRx

/-- CAN_RX_POP (R404). -/
def execCanRxPop (ch : Chan) (s : State) : Out :=
  .next (s.onLive ch fun c =>
    if c.canOn then { (c.canUp fun x => { x with rxq := x.rxq.drop 1 }).showRx with bus := .ok 0 } else { c with bus := .error })

/-- The receive handler of a channel whose controller receives; the flag says that no channel speaks. -/
def State.onCan (s : State) (ch : Chan) (f : Bool → Channel → Channel) : State :=
  s.onLive ch fun c => if c.canRx then f (!s.spoken) c else c

/-- GUIDANCE_COMMAND_RECEIVED (R397). -/
def execGuidanceCommandReceived (ch : Chan) (f : CanFrame) (s : State) : Out :=
  .next (s.onCan ch fun _ c =>
    if f.pgn = 0xAC00 ∧ (f.da = 255 ∨ c.funcOf f.da = some 0) then c.rxPush f.pgn f.sa f.data else c)

/-- SPEED_MESSAGE_RECEIVED (R397). -/
def execSpeedMessageReceived (ch : Chan) (f : CanFrame) (s : State) : Out :=
  .next (s.onCan ch fun _ c =>
    if (f.pgn = 0xFE48 ∨ f.pgn = 0xFE49) ∧ f.da = 255 then c.rxPush f.pgn f.sa f.data else c)

/-- CAN_FRAME_RECEIVED (R397): any message that has no handling of its own. -/
def execCanFrameReceived (ch : Chan) (f : CanFrame) (s : State) : Out :=
  .next (s.onCan ch fun _ c =>
    if c.canForMe f ∧ ¬[0xAC00, 0xFE48, 0xFE49, 0xFEE6, 0xEA00, 0xEC00, 0xEB00, 0xEE00].contains f.pgn then
      c.rxPush f.pgn f.sa f.data
    else c)

/-- Days before a year, since year 0. -/
def daysTo (y : Nat) : Nat := 365 * y + ((y - 1) / 4 - (y - 1) / 100 + (y - 1) / 400)

/-- Leap year. -/
def isLeap (y : Nat) : Bool := y % 4 == 0 && (y % 100 != 0 || y % 400 == 0)

/-- Days before a month of a year. -/
def monthDays (y m : Nat) : Nat :=
  [0, 31, 59, 90, 120, 151, 181, 212, 243, 273, 304, 334].getD (m - 1) 0 + if isLeap y && decide (2 < m) then 1 else 0

/-- The time of a Time/Date message in seconds since 1985-01-01 (R432), the fields as SAE J1939-71 gives them: seconds in
0.25 s, minutes, hours, month, day in 0.25 days, year from 1985.
PRESUMED, unsafe: log entry 54; DEDUCED, unsafe: log entry 56. -/
def timeOf (d : List Byte) : Option Nat :=
  let b := fun n => (d.getD n 255).toNat
  if b 0 ≤ 239 ∧ b 1 ≤ 59 ∧ b 2 ≤ 23 ∧ 1 ≤ b 3 ∧ b 3 ≤ 12 ∧ 1 ≤ b 4 ∧ b 4 ≤ 124 ∧ b 5 ≤ 250 then
    let y := 1985 + b 5
    let day := daysTo y - daysTo 1985 + monthDays y (b 3) + (b 4 + 3) / 4 - 1
    some (((day * 24 + b 2) * 60 + b 1) * 60 + b 0 / 4)
  else none

/-- TIME_DATE_RECEIVED (R397, R432): queued; the voice passes it to the MSS over its management link.
DEDUCED, unsafe: log entry 56. -/
def execTimeDateReceived (ch : Chan) (f : CanFrame) (s : State) : Out :=
  let c := s.chan ch
  if !c.live || !c.canRx || f.pgn ≠ 0xFEE6 || !c.canForMe f then .next s
  else
    let t := s.onCan ch fun _ c => c.rxPush f.pgn f.sa f.data
    let passes := c.voice && c.mlink && (s.mss.port ch).up && s.mss.mpRuns
    match timeOf f.data with
    | some n => .next (if passes then t.onMss fun m => m.calendar (n % 2 ^ 32) else t)
    | none => .next t

/-! Address claim (R394). -/

/-- A function claims an address: CLAIMING with its hold-off; the voice sends the claim. -/
def Channel.claimAddr (c : Channel) (gap : Bool) (f sa name : Nat) : Channel :=
  let c := ((c.wr (CAN_CLAIM_SA f) sa).wr (CAN_CLAIM_STATE f) 1).canUp fun x => x.setHold f true
  c.say gap (claimFrame sa name)

/-- A function has no address (R394): Cannot Claim from 254, ISO_CLAIM. -/
def Channel.cannotClaim (c : Channel) (gap : Bool) (f name : Nat) : Channel :=
  let c := (c.wr (CAN_CLAIM_SA f) 0xFE).wr (CAN_CLAIM_STATE f) 3
  (c.say gap (claimFrame 254 name)).raise 58

/-- The lowest free address in 128 to 247. -/
def Channel.freeAddr (c : Channel) (f : Nat) : Option Nat :=
  (List.range 120).map (· + 128) |>.find? fun a => kget 0 c.can.names a == 0 && c.saOf (1 - f) != a

/-- A claim of another node for an address that a function holds: a smaller NAME takes it, against a larger one the voice
defends it.
DEDUCED, unsafe: log entry 55. -/
def Channel.contest (c : Channel) (gap : Bool) (f name : Nat) (r : FolRec) : Channel :=
  let own := cfName r
  if name < own then
    let c := c.sat (CAN_CLAIM_LOSSES f)
    if cfSelf r then
      match c.freeAddr f with
      | some a => c.claimAddr gap f a own
      | none => c.cannotClaim gap f own
    else c.cannotClaim gap f own
  else c.say gap (claimFrame (c.saOf f) own)

/-- An Address Claimed frame: a function's own claim, sent by the voice, sets its state in every channel; another node's
is entered and contested. -/
def Channel.claimSeen (c : Channel) (gap : Bool) (f : CanFrame) : Channel :=
  let name := leNat (f.data.take 8)
  match [0, 1].find? fun n => (c.cfRec n).any fun r => cfName r == name with
  | some n =>
    if f.sa = 254 then (c.wr (CAN_CLAIM_SA n) 0xFE).wr (CAN_CLAIM_STATE n) 3
    else if c.saOf n = f.sa ∧ c.claimState n ≠ 0 then c
    else ((c.wr (CAN_CLAIM_SA n) f.sa).wr (CAN_CLAIM_STATE n) 1).canUp fun x => x.setHold n true
  | none =>
    let c := c.canUp fun x =>
      let m := (x.names.filter fun p => p.2 != name)
      { x with names := if f.sa ≤ 253 then kset 0 m f.sa name else m }
    match c.funcOf f.sa with
    | none => c
    | some n => match c.cfRec n with
      | some r => c.contest gap n name r
      | none => c

/-- ADDRESS_CLAIM_RECEIVED (R394). -/
def execAddressClaimReceived (ch : Chan) (f : CanFrame) (s : State) : Out :=
  .next (s.onCan ch fun gap c => if f.pgn = 0xEE00 then c.claimSeen gap f else c)

/-- CLAIM_HOLD_OFF_END (R394): 250 ms after the claim the address is held. -/
def execClaimHoldOffEnd (ch : Chan) (func : Fin 2) (s : State) : Out :=
  .next (s.onLive ch fun c =>
    let n : Nat := func
    if c.canOn && c.can.hold n then
      let c := c.canUp fun x => x.setHold n false
      if c.claimState n = 1 then c.wr (CAN_CLAIM_STATE n) 2 else c
    else c)

/-! Requests (R395, R397). -/

/-- The answer of a function to a request for a PGN: the message where its content is the block's own, a NACK for one it
does not send (none to a global request). A message whose content is firmware's is left to firmware: the request is
queued for it. -/
def Channel.answer (c : Channel) (gap : Bool) (f : CanFrame) (n : Nat) : Channel :=
  let pgn := leNat (f.data.take 3)
  let sa := c.saOf n
  if pgn = 0xEE00 then
    match c.cfRec n with
    | some r => c.say gap (claimFrame (if c.claimState n = 3 then 254 else sa) (cfName r))
    | none => c
  else if c.claimState n ≠ 2 then c
  else if pgn = 0xFF5A ∧ n = 0 then c.say gap ⟨0xFF5A, sa, 255, c.statusPayload.take 8⟩
  else if pgn = 0xFECA ∨ (pgn = 0xAD00 ∧ n = 0) then c.rxPush f.pgn f.sa f.data
  else if f.da = 255 then c
  else c.say gap ⟨0xE800, sa, 255, ([1, 255, 255, 255, f.sa].map (BitVec.ofNat 8 ·)) ++ leBytes 3 pgn⟩

/-- REQUEST_RECEIVED (R397): of the functions it is addressed to; only the voice answers a request for Address Claimed. -/
def execRequestReceived (ch : Chan) (f : CanFrame) (s : State) : Out :=
  .next (s.onCan ch fun gap c =>
    if f.pgn ≠ 0xEA00 then c
    else
      [0, 1].foldl (fun c n =>
        if f.da = 255 ∧ c.claimState n ≠ 0 ∨ c.funcOf f.da = some n then c.answer gap f n else c) c)

/-! Receive sessions (R400, R401). -/

/-- The largest message accepted (R392). -/
def Channel.rxBuf (c : Channel) : Nat := ((recsOf c.fol.recs 0x0601).head?.map fun r => bitsOf (r.w 0) 0 11).getD 1785

/-- A session of a pair of addresses. -/
def Can.session (x : Can) (sa da : Nat) : Option RxSession := x.rx.find? fun r => r.sa == sa && r.da == da
def Can.dropSession (x : Can) (sa da : Nat) : Can := { x with rx := x.rx.filter fun r => !(r.sa == sa && r.da == da) }

/-- Ask for the next packets of a session, as many as the sender allows in one CTS. -/
def Channel.askMore (c : Channel) (gap : Bool) (r : RxSession) : Channel :=
  let n := min (r.packets - (r.next - 1)) r.limit
  let c := c.canUp fun x => { x.dropSession r.sa r.da with
    rx := (x.dropSession r.sa r.da).rx ++ [{ r with upTo := r.next - 1 + n }] }
  c.say gap (tpCts r.da r.sa n r.next r.pgn)

/-- An RTS to a function (R401).
DEDUCED, unsafe: log entry 55. -/
def Channel.rts (c : Channel) (gap : Bool) (f : CanFrame) : Channel :=
  let b := fun n => (f.data.getD n 0).toNat
  let size := b 1 + 256 * b 2
  let pgn := (tpPgnOf f)
  if c.rxBuf < size then c.say gap (tpAbort f.da f.sa 2 pgn)
  else
    let c := c.canUp fun x => x.dropSession f.sa f.da
    if 4 ≤ c.can.rx.length then c.say gap (tpAbort f.da f.sa 1 pgn)
    else c.askMore gap { sa := f.sa, da := f.da, pgn := pgn, size := size, packets := b 3, bam := false,
                         limit := if b 4 = 0 then 255 else b 4 }

/-- TP_RTS_RECEIVED (R401). -/
def execTpRtsReceived (ch : Chan) (f : CanFrame) (s : State) : Out :=
  .next (s.onCan ch fun gap c =>
    if f.pgn = 0xEC00 ∧ f.data.head? = some 16 ∧ (c.funcOf f.da).isSome then c.rts gap f else c)

/-- A BAM (R401): ignored and counted above RXBUF, and where four sessions are open. -/
def Channel.bam (c : Channel) (f : CanFrame) : Channel :=
  let b := fun n => (f.data.getD n 0).toNat
  let size := b 1 + 256 * b 2
  if c.rxBuf < size then c.sat CAN_TP_BAMOVR
  else
    let c := c.canUp fun x => x.dropSession f.sa 255
    if 4 ≤ c.can.rx.length then c.sat CAN_TP_BAMOVR
    else c.canUp fun x => { x with
      rx := x.rx ++ [{ sa := f.sa, da := 255, pgn := (tpPgnOf f), size := size, packets := b 3, bam := true, upTo := b 3 }] }

/-- TP_BAM_RECEIVED (R401). -/
def execTpBamReceived (ch : Chan) (f : CanFrame) (s : State) : Out :=
  .next (s.onCan ch fun _ c => if f.pgn = 0xEC00 ∧ f.data.head? = some 32 ∧ f.da = 255 then c.bam f else c)

/-- A session is complete: the message is queued, and the voice acknowledges an RTS session. -/
def Channel.complete (c : Channel) (gap : Bool) (r : RxSession) : Channel :=
  let c := (c.canUp fun x => x.dropSession r.sa r.da).rxPush r.pgn r.sa (r.data.take r.size)
  if r.bam then c else c.say gap (tpEnd r.da r.sa r.size r.packets r.pgn)

/-- A data packet (R400): the one expected adds to the session; after a missed one the voice asks for it again, any other
channel abandons its copy, as every channel does in a BAM. A packet already held is ignored. -/
def Channel.dt (c : Channel) (gap : Bool) (r : RxSession) (f : CanFrame) : Channel :=
  let n := (f.data.getD 0 0).toNat
  if n < r.next then c
  else if n = r.next then
    let r := { r with data := r.data ++ (f.data.drop 1).take 7, next := n + 1 }
    if r.packets < r.next then c.complete gap r
    else if r.upTo < r.next ∧ r.bam = false then c.askMore gap r
    else c.canUp fun x => { x.dropSession r.sa r.da with rx := (x.dropSession r.sa r.da).rx ++ [r] }
  else if r.bam = false ∧ c.speaks = true then c.askMore gap r
  else (c.canUp fun x => x.dropSession r.sa r.da).sat CAN_TP_TOUT

/-- TP_DT_RECEIVED (R400). -/
def execTpDtReceived (ch : Chan) (f : CanFrame) (s : State) : Out :=
  .next (s.onCan ch fun gap c =>
    match c.can.session f.sa f.da with
    | some r => if f.pgn = 0xEB00 then c.dt gap r f else c
    | none => c)

/-! Transmit sessions (R402, R404). -/

/-- The transmit sessions of the voice become known to every channel (R402). -/
def State.hearTx (s : State) (ch : Chan) : State :=
  let c := s.chan ch
  if !c.speaks then s
  else
    let l := [0, 1].filterMap fun n => (c.can.tx n).map fun t => (n, t.da, t.pgn)
    let f (k : Chan) (s : State) : State := s.on k fun x => if x.live then x.canUp fun y => { y with theirs := l } else x
    f .C (f .B (f .A s))

/-- The end of a transmit session of a function: RES 1 sent, 2 aborted.
DEDUCED, unsafe: log entry 55. -/
def Channel.endTx (c : Channel) (n res : Nat) : Channel :=
  let c := c.canUp fun x => x.setTx n none
  (if c.rd CAN_TXCTL_CF = n then c.wr CAN_TXCTL_RES res else c).showBusy

/-- TP_TIMEOUT (R400): the session of a pair of addresses ends; the voice sends Connection Abort, reason 3.
DEDUCED, unsafe: log entry 55. -/
def execTpTimeout (ch : Chan) (sa da : Nat) (s : State) : Out :=
  .next ((s.onCan ch fun gap c =>
    match c.can.session sa da with
    | some r =>
      let c := (c.canUp fun x => x.dropSession sa da).sat CAN_TP_TOUT
      if r.bam then c else c.say gap (tpAbort da sa 3 r.pgn)
    | none =>
      match c.funcOf sa with
      | none => c
      | some n => match c.can.tx n with
        | some t =>
          if t.da = da ∧ da ≠ 255 then ((c.endTx n 2).sat CAN_TP_TOUT).say gap (tpAbort sa da 3 t.pgn) else c
        | none => c).hearTx ch)

/-- The data packets that a CTS allows join the queue. -/
def Channel.sendAllowed (c : Channel) (n : Nat) (t : TxSession) : Nat → Channel
  | 0 => c.canUp fun x => x.setTx n (some t)
  | k + 1 =>
    if packetsOf t.data.length < t.next then c.canUp fun x => x.setTx n (some t)
    else (c.enqueue (tpDt (c.saOf n) t.da t.next t.data)).sendAllowed n { t with next := t.next + 1 } k

/-- A TP.CM answer of the receiver of an own session: CTS (17), End of Message Acknowledgment (19), Connection Abort (255).
An abort also ends a receive session of the pair. -/
def Channel.tpAnswer (c : Channel) (f : CanFrame) (n : Nat) : Channel :=
  let b := fun k => (f.data.getD k 0).toNat
  let c := if b 0 = 255 ∧ (c.can.session f.sa f.da).any (fun r => r.pgn == (tpPgnOf f)) then
      c.canUp fun x => x.dropSession f.sa f.da else c
  match c.can.tx n with
  | none => c
  | some t =>
    if t.da ≠ f.sa ∨ t.pgn ≠ (tpPgnOf f) then c
    else match b 0 with
      | 17 => if c.speaks && 1 ≤ b 2 then c.sendAllowed n { t with next := b 2 } (b 1) else c
      | 19 => c.endTx n 1
      | 255 => c.endTx n 2
      | _ => c

/-- TP_CTS_RECEIVED (R389). -/
def execTpCtsReceived (ch : Chan) (f : CanFrame) (s : State) : Out :=
  .next ((s.onCan ch fun _ c =>
    match c.funcOf f.da with
    | some n => if f.pgn = 0xEC00 then c.tpAnswer f n else c
    | none => c).hearTx ch)

/-- The DTC that LOG_DEAD adds to DM1 (R447): SPN 520,192, FMI 12, amber warning lamp on; the layout of SAE J1939-73.
PRESUMED, unsafe: log entry 54. -/
def dm1Dead (d : List Byte) : List Byte :=
  let dtc : List Byte := [BitVec.ofNat 8 520192, BitVec.ofNat 8 (520192 / 256), BitVec.ofNat 8 (520192 / 65536 * 32 + 12), 1]
  let lamps := [BitVec.ofNat 8 ((d.getD 0 0).toNat / 16 * 16 + 4 + (d.getD 0 0).toNat % 4), d.getD 1 255]
  let rest := if d.length ≤ 8 then slice d 2 4 else d.drop 2
  let rest := if rest.all (· == 0) then [] else rest
  let m := lamps ++ rest ++ dtc
  m ++ List.replicate (8 - m.length) 255

/-- The message of the transmit window: its first LEN bytes, DM1 with the DTC of a dead log. -/
def Channel.txMessage (c : Channel) (dead : Bool) : List Byte :=
  let d := Memory.readBytes c.can.txBuf 0 (c.rd CAN_TXCTL_LEN)
  if dead && c.rd CAN_TXPGN_PGN == 0xFECA then dm1Dead d else d

/-- A transmit request (R393, R404): discarded on a channel that is not the voice, ignored while the function is busy, both
counted; sent as one frame, as BAM or by RTS/CTS. A function without an address sends nothing: discarded. -/
def Channel.txGo (c : Channel) (dead : Bool) : Channel :=
  let n := c.rd CAN_TXCTL_CF
  let pgn := c.rd CAN_TXPGN_PGN
  let da := c.rd CAN_TXCTL_DA
  let data := c.txMessage dead
  if !c.voice then (c.sat CAN_ERR_TXDISC).wr CAN_TXCTL_RES 3
  else if (c.can.tx n).isSome then c.sat CAN_ERR_TXDISC
  else if 1785 < c.rd CAN_TXCTL_LEN ∨ (c.funcOf (c.saOf n) ≠ some n) then (c.sat CAN_ERR_TXDISC).wr CAN_TXCTL_RES 3
  else
    let c := c.wr CAN_TXCTL_RES 0
    let sa := c.saOf n
    if data.length ≤ 8 then
      let f : CanFrame := ⟨pgn, sa, da, data⟩
      (c.enqueue f).canUp fun x => x.setPend n (some f)
    else
      let len := data.length
      let f := tpCm sa da (if da = 255 then 32 else 16) (len % 256) (len / 256) (packetsOf len) 255 pgn
      ((c.enqueue f).canUp fun x => x.setTx n (some { da := da, pgn := pgn, data := data })).showBusy

/-- CAN_TX_GO (R404): a write of CAN_TXCTL. -/
def execCanTxGo (ch : Chan) (v : Word) (s : State) : Out :=
  .next ((s.onLive ch fun c =>
    if !c.canOn then { c with bus := .error }
    else
      let c := (c.wr CAN_TXCTL_CF (v.toNat / 2 ^ 27)).wr CAN_TXCTL_PRIO (v.toNat / 2 ^ 24)
      let c := ((c.wr CAN_TXCTL_DA (v.toNat / 2 ^ 16)).wr CAN_TXCTL_LEN v.toNat).showBusy
      let c := if v.toNat.testBit 31 then c.txGo (s.mss.is LOG_STAT_DEAD) else c
      { c with bus := .ok 0 }).hearTx ch)

/-- BAM_PACKET_SEND (R402): the next packet of a broadcast, 50 ms after the one before. -/
def execBamPacketSend (ch : Chan) (func : Fin 2) (s : State) : Out :=
  .next ((s.onLive ch fun c =>
    let n : Nat := func
    match c.can.tx n with
    | some t => if t.da = 255 ∧ c.speaks = true then c.sendAllowed n t 1 else c
    | none => c).hearTx ch)

/-- The first frame of a function that may leave (R394): during its hold-off only claims do. -/
def Channel.nextFrame (c : Channel) (n : Nat) : Option CanFrame :=
  c.can.queue.find? fun f =>
    (f.sa == c.saOf n || (f.sa == 254 && (c.cfRec n).any fun r => f.data == leBytes 8 (cfName r)))
      && (f.pgn == 0xEE00 || !c.can.hold n)

/-- Remove the first occurrence of a frame. -/
def dropFirst (f : CanFrame) : List CanFrame → List CanFrame
  | [] => []
  | g :: r => if g = f then r else g :: dropFirst f r

/-- CAN_FRAME_SENT (R404): the frame is on the bus and acknowledged; RES 1 for a message of one frame and for the last
packet of a broadcast. -/
def execCanFrameSent (ch : Chan) (func : Fin 2) (s : State) : Out :=
  .next ((s.onLive ch fun c =>
    let n : Nat := func
    if !c.speaks then c
    else match c.nextFrame n with
      | none => c
      | some f =>
        let c := c.canUp fun x => { x with queue := dropFirst f x.queue, out := [f] }
        let c := if c.can.pend n = some f then
            let c := c.canUp fun x => x.setPend n none
            if c.rd CAN_TXCTL_CF = n then c.wr CAN_TXCTL_RES 1 else c
          else c
        match c.can.tx n with
        | some t =>
          if f.pgn = 0xEB00 ∧ f.da = 255 ∧ t.da = 255 ∧ (f.data.getD 0 0).toNat = packetsOf t.data.length then c.endTx n 1
          else c
        | none => c).hearTx ch)

/-! The voice (R393 to R398). -/

/-- The first claim of a herd's first voice (R394): a function that no channel has claimed yet. -/
def Channel.firstClaim (c : Channel) (n : Nat) : Channel :=
  match c.cfRec n with
  | some r => if c.claimState n = 0 then c.claimAddr false n (cfPref r) (cfName r) else c
  | none => c

/-- VOICE_TX_START (R394, R395, R402): the owed answers first, then aborts of the former voice's transmit sessions and the
first claim; no other channel owes them any more. -/
def execVoiceTxStart (ch : Chan) (s : State) : Out :=
  let c := s.chan ch
  if c.live && c.canRx && c.voice && !c.can.on then
    let f := fun (c : Channel) =>
      let c := c.canUp fun x => { x with on := true }
      let owed := c.can.owed
      let theirs := c.can.theirs
      let c := owed.foldl Channel.enqueue (c.canUp fun x => { x with owed := [] })
      let c := theirs.foldl (fun c t => c.enqueue (tpAbort (c.saOf t.1) t.2.1 2 t.2.2)) c
      (c.firstClaim 0).firstClaim 1
    let clr (k : Chan) (s : State) : State :=
      s.on k fun x => if x.live then x.canUp fun y => { y with owed := [], theirs := [] } else x
    .next (clr .C (clr .B (clr .A (s.on ch f))))
  else .next s

/-- ISO_VOICE (R396): the voice reports; in FULL with no rotation it asks for its relief, which the herd allows once. -/
def execIsoVoice (ch : Chan) (s : State) : Out :=
  .next (s.onLive ch fun c =>
    if c.canOn && c.voice then
      let c := c.raise 59
      let h := c.hrd.cur
      if h.free && !h.relief then { c with hrd := { c.hrd with relief := true } } else c
    else c)

/-- ISO_BUSOFF (R396, R403): a channel in restricted operation sends nothing that could take it off the bus. The value of
TEC is the controller's: free.
DEDUCED, unsafe: log entry 55. -/
def execIsoBusoff (ch : Chan) (s : State) : Out :=
  .next (s.onLive ch fun c =>
    if c.canRx && !c.is CAN_ISTAT_RESTRICT then
      let (t, c) := c.draw 256
      (((c.sat CAN_ISTAT_BUSOFF).wr CAN_ISTAT_OFF 1).wr CAN_ERR_TEC t).raise 60
    else c)

/-- BUS_INTEGRATION_DONE (R396, R425): the controller resumes, its error counters at zero. -/
def execBusIntegrationDone (ch : Chan) (s : State) : Out :=
  .next (s.onLive ch fun c =>
    if c.canOn then
      let c := ((c.wr CAN_ISTAT_OFF 0).wr CAN_ISTAT_ERRPASS 0).wr CAN_ERR_TEC 0
      (c.wr CAN_ERR_REC 0).canUp fun x => { x with up := true }
    else c)

/-- STATUS_MESSAGE_SEND (R398): octets 0 to 7 of the status payload from the steering function. -/
def execStatusMessageSend (ch : Chan) (s : State) : Out :=
  .next (s.onLive ch fun c =>
    if c.speaks && c.claimState 0 == 2 then c.enqueue ⟨0xFF5A, c.saOf 0, 255, c.statusPayload.take 8⟩ else c)

end Sys2Proof.Machine
end

