-- ==== Sys2Proof/Machine/Herd.lean ====
section
/-! DEFINITION. Membership rounds, joining, shadows, placement switches and rotations: the commands of
03_modes_and_two_faults.md and 04_herd_placement.md. -/

namespace Sys2Proof.Machine

/-- A channel that votes for the first time in its life (R86, R122, R418, R490): bring-up ends, FCC_SEVPRE clears, and
with the absence over STPASS falls (R139).
DEDUCED, unsafe: log entries 28, 71. -/
def Channel.beginVoting (c : Channel) : Channel :=
  let c := { c with voting := true, voted := true }.wr HRD_NEXTSRC_STPASS 0
  let c := (c.wr (FCC_SEVPRE_SRC 0) 0).wr (FCC_SEVPRE_SRC 1) 0
  if c.rd PWR_BOOT_STEP = 9 then c else (c.wr PWR_BOOT_STEP 9).wr PWR_BOOT_TDONE (min 65534 (c.pwr.boot / 200000))

/-- FAWN = 0 when the herd leaves BRING-UP (R86, R99), with the end of the 10 kHz carrier at the next valley (R184). -/
def Channel.endFawn (c : Channel) : Channel :=
  if c.hrd.fawn && c.hrd.cur.mode != 1 then
    { c with hrd := { c.hrd with fawn := false }, f0 := { c.f0 with fawnStep := c.is (FCE_STAT_FAWN10 0) } }
  else c

/-- HRD_NEXTSRC at a planned leave (R64, R138, R140, R162): an update rotation names the TRIAL slot, every other absence
the order of R61; STPASS is 0, so that the BIST runs. -/
def Channel.leaveSrc (c : Channel) (trial : Nat) : Channel :=
  let h := c.hrd.cur
  let c := c.wrWord HRD_NEXTSRC 0
  if h.absKind = 1 ∧ h.rotKind = 1 ∧ trial ≠ 0 then (c.wr HRD_NEXTSRC_VALID 1).wr HRD_NEXTSRC_SRC trial else c

/-- The channel leaves at B2 (R138): its bridges leave service, HRD_NEXTSRC is written and the steward resets it; a
channel that leaves for debug halts instead and stays in ROLE 3 until a channel reset (R515 to R517). -/
def Channel.leaveNow (c : Channel) (trial : Nat) : Channel :=
  let kind := c.hrd.cur.absKind
  let c := c.leaveSrc trial
  let c := ({ c with voting := false }.wr HRD_STAT_ROLE 3).maskIn 0 c.tb.toNat
  if kind = 5 then
    let c := { c with hrd := { c.hrd with cur := {}, next := none } }
    let c := { c.haltHarts c.dbg.want with dbg := { c.dbg with want := 0 } }
    (((c.wr STW_DBG_ABSENT 1).wr STW_DBG_HPEND 0).showLeave).showAll.voiceRefresh
  else ((c.setCauses 8 true).reset 5 0).errRefresh

/-- A severe source that removes the channel (R407): it stops voting at this round start, announces ROLE 0, its bridges
take cause bit 9; its reset comes at the first boundary after the herd's decision has taken effect. -/
def Channel.dropNow (c : Channel) : Channel :=
  let r := c.hrd.round
  let was := c.voting
  let c := (c.outOfHerd 0).setCauses 9 true
  if was then c.hrdUp fun x => { x with dropAt := boundary1 (r + 1) } else c

/-- A critical receive context that has accepted no frame by the end of BRING-UP counts as having missed RLOSS cycles:
the ring is lost (R362). -/
def Channel.ringAtEnd (c : Channel) : Channel :=
  c.raiseIf ((recsFor c.fol.recs 0x0501 c.me).any fun r =>
    !(r.w 1).testBit 8 && (r.w 1).testBit 9 && c.rd (TTE_CTXSTAT_STATE (bitsOf (r.w 1) 0 7)) == 0) 50

/-- An object is run or kept here (R126, R143): on a host; a shadow runs a replica of every task whose need is 2 or more,
and a channel that voted from it keeps one that a pending switch brings to it. -/
def Channel.wants (c : Channel) (isTask : Bool) (o : PObj) : Bool :=
  let h := c.hrd.cur
  let p := kget noPlace (if isTask then h.tasks else h.homes) o.id
  if c.isShadow then isTask && decide (2 ≤ min o.repl (countMask h.view))
  else p.hosts.testBit c.me.idx
    || (c.addrOf isTask o.id != 0 && p.b1 != 0 && (p.atB1 ||| p.atB2).testBit c.me.idx)

/-- This channel ceases to run an object (R127, R133, R134): its address goes. The state of a task that moves on stays until
it has been sent, and a home's content until its new host has copied it. -/
def Channel.giveUp (c : Channel) (isTask : Bool) (o : PObj) : Channel :=
  let a := c.addrOf isTask o.id
  let p := kget noPlace c.hrd.cur.tasks o.id
  let c := c.hrdUp fun x =>
    if isTask then
      { x with lastAddr := if p.moved then kset 0 x.lastAddr o.id a else x.lastAddr,
               jobs := kset {} x.jobs o.id { starts := (kget {} x.jobs o.id).starts } }
    else { x with gone := kset [] x.gone o.id (c.sram.readBytes a o.size) }
  c.wrWord (addrReg isTask o.id) 0

/-- This channel begins to run a task (R127, R133, R134, R143): it takes an address, and the task starts from the initial
state of its image, or with the state that has been copied, or waits for it. -/
def Channel.takeTask (c : Channel) (o : PObj) : Channel :=
  let c := c.allocate true o.id o.size
  let a := c.addrOf true o.id
  let came := kget [] c.hrd.arrived o.id
  let copied := c.isShadow || (kget noPlace c.hrd.cur.tasks o.id).moved
  let init := (List.range o.size).map (Config.taskInit o.id)
  let c := c.hrdUp fun x => { x with
    arrived := kset [] x.arrived o.id [], jobs := kset {} x.jobs o.id { awaiting := copied && came.isEmpty && o.size != 0 } }
  if a = 0 ∨ (copied = true ∧ came.isEmpty = true) then c
  else { c with sram := c.sram.writeBytes a (if copied then came.take o.size else init) }

/-- The objects that this channel ceases to run are given up before it begins to run others (R127). -/
def Channel.releaseAll (c : Channel) : Channel :=
  let c := (tasksOf c.fol.recs).foldl (fun c o =>
    if c.addrOf true o.id != 0 && !c.wants true o then c.giveUp true o else c) c
  (homesOf c.fol.recs).foldl (fun c o => if c.addrOf false o.id != 0 && !c.wants false o then c.giveUp false o else c) c

/-- The tasks that this channel begins to run. -/
def Channel.takeTasks (c : Channel) : Channel :=
  (tasksOf c.fol.recs).foldl (fun c o => if c.addrOf true o.id == 0 && c.wants true o then c.takeTask o else c) c

/-- Every cause of SAFE-STOP in the round is logged (R107). The spec gives these messages no SRC: the member's herd engine
sends them as firmware messages (R440) with a free SRC and CODE.
DESIGN CHOICE, unsafe: log entry 83. -/
def Channel.logCauses (c : Channel) : List Nat → Channel
  | [] => c
  | k :: ks =>
    (c.logUnnamed k).logCauses ks

/-- The decided value takes effect (R112): votes, mode, view and role. -/
def Channel.takeEffect (c : Channel) (h : Herd) (role trial : Nat) : Channel :=
  let old := c.hrd.cur.votes
  let idle := c.hrd.cur.idle
  let mode := c.rd STW_MODE_MODE
  if role = 4 then c.outOfHerd 4
  else
    let c := c.hrdUp fun x => { x with cur := h, next := none }
    if role = 3 then c.leaveNow trial
    else if role = 2 then ((c.wr HRD_STAT_ROLE 2).releaseAll.takeTasks).showAll
    else
      let c := if c.voting then c else c.beginVoting
      let c := c.endFawn.showVotes h.votes
      let c := if h.idle && !idle then (c.wr PWR_STAT_RUNG 1).sat PWR_CNT_P1ENT
        else if !h.idle && idle then c.wr PWR_STAT_RUNG 0 else c
      let c := (c.showLeave.showAll).logCauses h.causes
      let c := if mode = 1 ∧ c.rd STW_MODE_MODE ≠ 1 then c.ringAtEnd else c
      c.voteEvents old h.votes

/-- The start of a round (R112, R183, R325, R407, R496): the count, the decision of the round before, the marker with the
own TB, the packets and the snapshots of the new round. -/
def Channel.roundStart (c : Channel) (trial : Nat) : Channel :=
  let c := if c.voting || c.isShadow || c.hrd.dropAt != 0 then
      (c.inc HRD_ROUND_VALUE).hrdUp fun x => { x with round := x.round + 1 } else c
  let c :=
    if c.fcc.leave && (c.voting || c.role != 0) then c.dropNow
    else match c.hrd.next with
      | some (h, role) => c.takeEffect h role trial
      | none => c
  if c.resetting then c
  else
    let c := if c.voting || c.isShadow || c.xlk.mask == 0 || !c.lockstep then c else c.maskIn 0 c.tb.toNat
    let n := c.me.num
    let sb := sbPacket 5 n n (c.rd HRD_ROUND_VALUE) (c.rd SIN_LOCAL_STATE)
    let c := { c with sin := { c.sin with sb1Out := sb, direct := [], relayed := [], sb2Out := [] },
                      xlk := { c.xlk with markOut := some c.tb } }
    let p1 := c.pwr.p1Req
    let sev := c.fcc.newSev
    let c := { c with pwr := { c.pwr with p1Req := 0 }, fcc := { c.fcc with newSev := false } }
    c.hrdUp fun x => { x with direct := [], relayed := [], hb1Out := none, hb2Out := [], p1Now := p1, sevNow := sev,
                              reportNow := [] }

/-- The slot in state TRIAL: 1 A, 2 B, 0 none (R60, R64). -/
def Mss.trialSlot (m : Mss) : Nat := if m.slotA = 1 then 1 else if m.slotB = 1 then 2 else 0

/-- The herd takes an absence of this channel as aborted (R146): a voting member that it reaches names it as returning. -/
def State.recalled (s : State) (c : Channel) : Bool :=
  !c.voting && [Chan.A, Chan.B, Chan.C].any fun o =>
    let p := s.chan o
    p.live && p.voting && p.hrd.cur.ret == c.me.num && p.hrd.links.testBit (linkBit o.num c.me.num)

/-- The return after an abort (R146): a channel that holds or loads the TRIAL Folio takes a channel reset, after which the
boot ROM starts with the ACTIVE slot; one that has not begun to load forgets the TRIAL slot. STPASS stays. A slot named
outright in an absence is the TRIAL slot (R64).
DEDUCED, unsafe: log entry 31. -/
def Channel.recall (c : Channel) : Channel :=
  let clear (c : Channel) : Channel := ((c.wr HRD_NEXTSRC_VALID 0).wr HRD_NEXTSRC_SRC 0).wr HRD_NEXTSRC_PEER 0
  let slot (n : Nat) : Bool := n == 1 || n == 2
  if c.fol.started && slot c.fol.src then ((clear c).reset 5 0).errRefresh
  else if c.is HRD_NEXTSRC_VALID && slot (c.rd HRD_NEXTSRC_SRC) then clear c
  else c

/-- The TRIAL slot as a channel learns it (R20, R60): from the MP, over its management link. -/
def State.trialHeard (s : State) (c : Channel) : Nat := if s.mlinkUp c && s.mss.mpRuns then s.mss.trialSlot else 0

/-- ROUND_START (R112). -/
def execRoundStart (ch : Chan) (s : State) : Out :=
  .next ((s.onLive ch fun c =>
    let n := c.roundStart (s.trialHeard c)
    if !n.resetting && s.recalled n then n.recall else n).closePorts false)

/-- The join record of this channel (R121, R142). -/
def Channel.joinRec (c : Channel) : JoinRec :=
  { from_ := c.me, bodyHash := c.bodyHash, compat := c.regs.word FOL_COMPAT, digest := c.fol.digest,
    severe := c.rd (FCC_SEV_SRC 0) != 0 || c.rd (FCC_SEV_SRC 1) != 0 }

/-- The HB1 of the round is formed and sent (R112, R120): none before the seal; with it the SB1 (R325), the mode request
(R111) and the overrun reports (R132) of the round; a channel that asks to join sends its join record (R121). -/
def Channel.sendHb (c : Channel) : Channel :=
  let p := c.hb1
  let c := c.wr HRD_STAT_ROLE c.announced
  c.hrdUp fun x => { x with hb1Out := some p, mreq := 0, reportNow := x.report, report := [],
                            joinOut := if x.asking then some c.joinRec else none }

/-- HB1_SEND (R112): the second packet of a round repeats the first. -/
def execHb1Send (ch : Chan) (second : Bool) (s : State) : Out :=
  .next (s.onLive ch fun c => if c.is STW_SEAL_SEAL && (!second || c.hrd.hb1Out.isNone) then c.sendHb else c)

/-- A heartbeat packet arrives (R23, R25, R112, R113). -/
def Channel.hbIn (c : Channel) (kind limit : Nat) (pkt : BitVec 64) (crcOk : Bool) (off : Nat) : Channel :=
  if !crcOk then c.badCrc
  else if !hbGood c.me kind limit pkt off || !c.hearsN (pktField pkt 4 2) then c
  else
    let i := pktField pkt 6 2 - 1
    if kind = 1 then c.hrdUp fun x => { x with direct := kset none x.direct i (some pkt) }
    else c.hrdUp fun x => { x with relayed := kset none x.relayed i (some pkt) }

/-- HB1_RECEIVED (R113): later than 20 µs after round start it counts as absent (R112). -/
def execHb1Received (ch : Chan) (pkt : BitVec 64) (crcOk : Bool) (off : Nat) (s : State) : Out :=
  .next (s.onLive ch fun c => c.hbIn 1 20000 pkt crcOk off)

/-- HB2_RECEIVED (R113): later than 45 µs after round start it counts as absent (R112). -/
def execHb2Received (ch : Chan) (pkt : BitVec 64) (crcOk : Bool) (off : Nat) (s : State) : Out :=
  .next (s.onLive ch fun c => c.hbIn 2 45000 pkt crcOk off)

/-- HB2_RELAY (R112, R325): at 25 µs every HB1 and SB1 received of a peer goes to the other peer. -/
def execHb2Relay (ch : Chan) (s : State) : Out :=
  .next (s.onLive ch fun c =>
    let hb := c.me.peers.filterMap fun p => (kget none c.hrd.direct p.idx).map (relayOf c.me)
    let sb := c.me.peers.filterMap fun p => (kget none c.sin.direct p.idx).map fun st =>
      sbPacket 6 c.me.num p.num (c.rd (SIN_PEER_ROUND p.idx)) st
    { c.hrdUp fun x => { x with hb2Out := hb } with sin := { c.sin with sb2Out := sb } })

/-- SIMPLEX_TIMER_EXPIRY (R89): the timer has reached SIMPLEX_T; the next decision enters SAFE-STOP.
DEDUCED, unsafe: log entry 25. -/
def execSimplexTimerExpiry (ch : Chan) (s : State) : Out :=
  .next (s.onLive ch fun c =>
    if c.voting && c.hrd.cur.mode == 4 then
      (c.herdUp fun h => { h with simplex := some (simplexRounds c.fol.recs) }).showMode
    else c)

/-- IDEG_TIMER_EXPIRY (R92): the timer has reached IDEG_T and IDEG stays set; in FULL, DUPLEX and SIMPLEX the next
decision enters SAFE-STOP.
DEDUCED, unsafe: log entry 25. -/
def execIdegTimerExpiry (ch : Chan) (s : State) : Out :=
  .next (s.onLive ch fun c =>
    if c.voting && c.hrd.cur.idegRun.isSome then
      (c.herdUp fun h => { h with idegRun := some (idegRounds c.fol.recs) }).showMode
    else c)

/-- No pair is voted INVALID. -/
def votesValid (votes : Nat) : Bool := (List.range 6).all fun p => voteOf votes p != 3

/-- IDEG_CLEAR (R93): the faulty pair's vote has been valid for its discrepancy time. With several faulty pairs IDEG clears
once none of them is INVALID. A shadow follows the agreed value.
DESIGN CHOICE, unsafe: log entry 83. -/
def execIdegClear (ch : Chan) (s : State) : Out :=
  .next (s.onLive ch fun c =>
    if (c.voting || c.isShadow) && votesValid c.hrd.cur.votes then
      (c.herdUp fun h => { h with ideg := false, idegRun := none }).showMode
    else c)

/-- BRINGUP_WINDOW_END (R87): 1,000 ms after fawn service began; the next decision leaves BRING-UP.
DEDUCED, unsafe: log entry 28. -/
def execBringupWindowEnd (ch : Chan) (s : State) : Out :=
  .next (s.onLive ch fun c =>
    if c.voting && c.hrd.cur.mode == 1 then c.herdUp fun h => { h with window := true } else c)

/-- A firmware mode request (R111): taken into the next round by a voting member, refused in any other channel. -/
def Channel.requestMode (c : Channel) (req : Nat) : Channel :=
  if c.voting then c.hrdUp fun x => { x with mreq := req } else c.wr STW_MODE_REQREF 1

/-- A split channel's SERVICE (R173): granted while the STATIONARY-type input is asserted; the block reset ends and the
single-input rule runs. -/
def Channel.splitService (c : Channel) : Channel :=
  if c.localActive 3 && c.rd STW_MODE_MODE == 1 then
    let c := (c.wr STW_MODE_PREV 1).wr STW_MODE_MODE 6
    let c := (c.setBit STW_BLKSTAT_BLK blkGDR false).wr GDR_STAT_INRST 0
    ((c.gdRefresh.maskIn (BitVec.ofNat 3 (2 ^ c.me.idx)) c.tb.toNat).showMode).setCauses 8 false
  else c.wr STW_MODE_REQREF 1

/-- SPLIT_STATIONARY_LOST (R173): a split channel in SERVICE returns to BRING-UP, its limits with it, and its gate drive
goes into block reset. -/
def execSplitStationaryLost (ch : Chan) (s : State) : Out :=
  .next (s.onLive ch fun c =>
    if !c.lockstep && c.rd STW_MODE_MODE == 6 then
      (((((c.wr STW_MODE_PREV 6).wr STW_MODE_MODE 1).showMode).blockReset blkGDR).gdrAtDie).setCauses 8 true
    else c)

/-- MODE_REQ_LEAVE_SERVICE (R111): REQ = 2. -/
def execModeReqLeaveService (ch : Chan) (s : State) : Out := .next (s.onLive ch fun c => c.requestMode 2)

/-- MODE_REQ_SAFE_STOP (R111): REQ = 5. -/
def execModeReqSafeStop (ch : Chan) (s : State) : Out := .next (s.onLive ch fun c => c.requestMode 5)

/-- MODE_REQ_SERVICE (R111, R173): REQ = 6. -/
def execModeReqService (ch : Chan) (s : State) : Out :=
  .next (s.onLive ch fun c => if c.lockstep then c.requestMode 6 else c.splitService)

/-- MODE_REQ_PARK (R111): REQ = 7. -/
def execModeReqPark (ch : Chan) (s : State) : Out := .next (s.onLive ch fun c => c.requestMode 7)

/-- SAFE_STOP_RAMP_END (R95): after RISE the demand holds at DECEL. -/
def execSafeStopRampEnd (ch : Chan) (s : State) : Out :=
  .next (s.onLive ch fun c =>
    if c.voting && c.hrd.cur.mode == 5 && c.hrd.cur.brake == 1 then
      c.herdUp fun h => { h with brake := 2, demand := decelOf c.fol.recs } else c)

/-- SAFE_STOP_FULL_BRAKE (R95): achieved deceleration below 0.5 × DECEL for 1 s. -/
def execSafeStopFullBrake (ch : Chan) (s : State) : Out :=
  .next (s.onLive ch fun c =>
    if c.voting && c.hrd.cur.mode == 5 && !c.hrd.cur.stationary && decide (2 * c.hrd.decel < decelOf c.fol.recs) then
      c.herdUp fun h => { h with brake := 3 } else c)

/-- STATIONARY_DECLARED (R97): the voted ground speed has been below 0.2 km/h for 1 s, and an assigned STATIONARY-type
input is asserted; in SAFE-STOP the brake holds from here (R95). -/
def execStationaryDeclared (ch : Chan) (s : State) : Out :=
  .next (s.onLive ch fun c =>
    if (c.voting || c.isShadow) && decide (c.hrd.speed < 20)
        && (!c.reactDeclared 3 || c.reactActive c.hrd.cur.votes 3) then
      c.herdUp fun h => { h with stationary := true, brake := if h.mode = 5 then 4 else h.brake }
    else c)

/-- JOIN_RECORD (R121): a member holds the record of a channel that asks to join. -/
def execJoinRecord (ch : Chan) (rec : Packet JoinRec) (s : State) : Out :=
  let from_ := rec.val.from_
  .next (s.onLive ch fun c =>
    if !rec.crcOk then c.badCrc
    else if c.voting && from_ != c.me && c.hears from_ then
      c.hrdUp fun x => { x with joins := kset none x.joins from_.idx (some rec.val) }
    else c)

/-- The admission reply (R117, R121): full GEN and ROUND (`full` is the member's own count), the herd's value, and TB stepped once to the reference (R183).
In BRING-UP the channel votes at the next round start, otherwise it becomes a shadow (R122).
DEDUCED, unsafe: log entry 27. -/
def Channel.admitted (c : Channel) (h : Herd) (gen round full tb : Nat) : Channel :=
  let me := c.me.num
  let votes := h.view.testBit (me - 1)
  if c.role = 4 ∧ c.hrd.asking = true ∧ c.voting = false ∧ (votes = true ∨ h.shadow = me) then
    let c := { c.wr HRD_ROUND_VALUE round with tb := BitVec.ofNat 48 tb }
    let c := c.hrdUp fun x => { x with
      next := some ({ h with gen := gen }, if votes then 1 else 2), asking := false, joinOut := none,
      round := full / 2 ^ 32 * 2 ^ 32 + round }
    c.maskIn (BitVec.ofNat 3 h.view) c.nextRound
  else c

/-- ADMISSION_REPLY (R121). -/
def execAdmissionReply (ch from_ : Chan) (gen round : Word) (tb : Packet (BitVec 48)) (s : State) : Out :=
  let m := s.chan from_
  let h := (m.hrd.next.map Prod.fst).getD m.hrd.cur
  .next (s.onLive ch fun c =>
    if !tb.crcOk then c.badCrc
    else if m.voting && c.hears from_ then c.admitted h gen.toNat round.toNat m.hrd.round tb.val.toNat else c)

/-- A herd of one forms (R120, R86): GEN = 1, round 0, BRING-UP with fawn service at 10 kHz; every vote starts ACTIVE. An own
encoder that is still unaligned is aligned by rotor lock (R196). -/
def Channel.form (c : Channel) (pbase : Nat) : Channel :=
  let v := 2 ^ c.me.idx
  let l := c.fol.recs
  let health := kset 0 [] c.me.num c.health
  let votes := (List.range 6).foldl (fun a p => a + (if c.pairOn p then 2 * 4 ^ p else 0)) 0
  let k := c.hrd.cur.kept
  let h : Herd := { k with
    recov := k.recov.map (· - (c.hrd.round : Int)), view := v, gen := 1, ever := v, depth := (countLevel l v health).2,
    votes := votes, proofBase := pbase }
  let (h, shed) := h.replace l 0 v v
  let c := { c.wr HRD_ROUND_VALUE 0 with
    hrd := { c.hrd with cur := h, next := none, round := 0, fawn := true, asking := false, joinOut := none } }
  let c := c.f0up fun f => { f with rotorLock := c.encOn c.encu && !c.is (FCE_STAT_ALIGNED 0) }
  let c := (((c.beginVoting.wr (FCE_STAT_FAWN10 0) 1).showDeadl).maskIn (BitVec.ofNat 3 v) c.tb.toNat).showVotes votes
  (c.showLeave.showAll).raiseIf shed 15

/-- The channel asks to join (R120, R121): its join record goes to each member. -/
def Channel.ask (c : Channel) : Channel := c.hrdUp fun x => { x with asking := true, joinOut := some c.joinRec }

/-- A peer load replaces the loaded Folio (R63): the load is discarded by a channel reset with HRD_NEXTSRC naming the
peer. -/
def Channel.peerLoad (c : Channel) (peer : Nat) : Channel :=
  let c := ((c.wrWord HRD_NEXTSRC 0).wr HRD_NEXTSRC_VALID 1).wr HRD_NEXTSRC_SRC 3
  ((c.wr HRD_NEXTSRC_PEER peer).reset 3 0).errRefresh

/-- The channels that hold a loaded Folio now and whose announcement reaches a channel (R63, R120): itself, and those
whose cross-link to it is up.
DEDUCED, unsafe: log entry 27. -/
def State.loaded (s : State) (me : Chan) : List Chan :=
  [Chan.A, Chan.B, Chan.C].filter fun ch =>
    (s.chan ch).live && (s.chan ch).is STW_SEAL_SEAL && (ch == me || s.crossUp me ch)

/-- The channel whose hash is taken as the herd's while no channel is in a herd (R63). -/
def State.hashOwner (s : State) (me : Chan) : Chan :=
  let l := s.loaded me
  let hash := fun ch => (s.chan ch).bodyHash
  match l.find? fun ch => l.length < 2 * (l.filter fun x => hash x == hash ch).length with
  | some ch => ch
  | none =>
    match l.find? fun ch => (s.chan ch).fol.active != 0 && (s.chan ch).rd FOL_STAT_SOURCE == (s.chan ch).fol.active with
    | some ch => ch
    | none => l.head?.getD me

/-- The listen round ends (R120): a member heard, or a lower letter in ROLE 4, makes the channel ask to join, after a peer
load where its hash differs from the herd's (R63); otherwise it forms a herd of one. -/
def State.listenEnd (s : State) (c : Channel) : Channel :=
  let hbs := c.held.filter fun p => p.1 != c.me.num
  let members := hbs.filter fun p => hbMember p.2
  let lower := hbs.any fun p => hbRole p.2 == 4 && decide (p.1 < c.me.num)
  if c.role ≠ 4 ∨ c.pwr.done7 = false ∨ c.fcc.stayOut = true ∨ c.cmp.swept = true ∨ c.lockstep = false then c
  else match members with
    | p :: _ =>
      let m := s.chan ((Chan.ofNum p.1).getD c.me)
      let hashes := members.map fun q => (s.chan ((Chan.ofNum q.1).getD c.me)).bodyHash
      let accepted := m.hrd.cur.accepts c.me.num hashes c.bodyHash
      if accepted then c.ask else c.peerLoad p.1
    | [] =>
      let o := s.hashOwner c.me
      if (s.chan o).bodyHash != c.bodyHash && o != c.me then c.peerLoad o.num
      else if lower then c.ask else c.form (if s.mlinkUp c && s.mss.mpRuns then s.mss.proofMinutes else 0)

/-- LISTEN_ROUND_END (R120). -/
def execListenRoundEnd (ch : Chan) (s : State) : Out := .next (s.onLive ch fun c => s.listenEnd c)

/-- SHADOW_COMPLETE (R122): the shadow cycles are complete; it votes at the next boundary. -/
def execShadowComplete (ch : Chan) (s : State) : Out :=
  .next (s.onLive ch fun c =>
    if (c.voting || c.isShadow) && c.hrd.cur.shadow != 0 && decide (c.hrd.cur.shNeed ≤ c.hrd.cur.shCycles) then
      c.herdUp fun h => { h with shDone := true }
    else c)

/-- What a home holds when this channel begins to host it (R133): a copy from the host, before the switch, that comes first
in the rotation order, else zeros. A former host has kept the content it gave up.
DEDUCED, unsafe: log entry 30. -/
def State.homeBytes (s : State) (c : Channel) (o : PObj) : List Byte :=
  let p := kget noPlace c.hrd.cur.homes o.id
  let zeros := List.replicate o.size 0
  if !p.moved then zeros
  else match (rotation (p.from_ &&& c.hrd.cur.view) c.hrd.cur.gen).head?.bind Chan.ofNum with
    | some ch =>
      let q := s.chan ch
      if q.addrOf false o.id ≠ 0 then q.sram.readBytes (q.addrOf false o.id) o.size
      else if (kget [] q.hrd.gone o.id).isEmpty then zeros else kget [] q.hrd.gone o.id
    | none => zeros

/-- This channel begins to host a home. -/
def State.takeHome (s : State) (c : Channel) (o : PObj) : Channel :=
  let c := c.allocate false o.id o.size
  let a := c.addrOf false o.id
  if a = 0 then c else { c with sram := c.sram.writeBytes a (s.homeBytes c o) }

/-- Switches performed at round `r` with a copy of state (R133, R151).
DEDUCED, unsafe: log entry 30. -/
def movesAt (m : KMap Placed) (r : Nat) : Nat := (m.filter fun p => p.2.moved && p.2.at_ == r).length

/-- The agreed value at a control-cycle boundary (R133, R135): the switches due are performed and counted. -/
def Herd.atBoundary (h : Herd) (r : Nat) : Herd :=
  let tasks := h.tasks.map fun p => (p.1, p.2.at r)
  let homes := h.homes.map fun p => (p.1, p.2.at r)
  { h with tasks := tasks, homes := homes, moves := h.moves + movesAt tasks r + movesAt homes r,
           shCycles := if h.shadow = 0 then h.shCycles else h.shCycles + 1 }

/-- What is left of an earlier switch at a boundary (R134, R135): a task state still to be sent while its last job runs;
states that arrived for a switch that is still pending. -/
def Channel.dropStale (c : Channel) : Channel :=
  c.hrdUp fun x => { x with
    lastAddr := x.lastAddr.filter fun p => !(kget {} x.jobs p.1).starts.isEmpty
    arrived := x.arrived.filter fun p =>
      let q := kget noPlace x.cur.tasks p.1
      q.b1 != 0 && q.copy && q.atB2.testBit c.me.idx }

/-- A control-cycle boundary (R133 to R135, R143, R407): the switches due, the shadow's cycle count, the reset of a
channel that a severe source removed.
DEDUCED, unsafe: log entry 30. -/
def State.boundary (s : State) (c : Channel) : Channel :=
  let r := c.hrd.round
  if r % 10 ≠ 0 then c
  else if c.hrd.dropAt ≠ 0 ∧ c.hrd.dropAt ≤ r then (c.reset 6 0).errRefresh
  else if c.voting || c.isShadow then
    let c := (c.herdUp fun h => h.atBoundary r).dropStale
    let c := (c.releaseAll).takeTasks
    let c := (homesOf c.fol.recs).foldl (fun c o =>
      if c.addrOf false o.id == 0 && c.wants false o then s.takeHome c o else c) c
    c.showAll.voiceRefresh
  else c

/-- CONTROL_CYCLE_BOUNDARY (R133). -/
def execControlCycleBoundary (ch : Chan) (s : State) : Out := .next (s.onLive ch fun c => s.boundary c)

/-- A declared task or home. -/
def Channel.taskDecl (c : Channel) (id : Nat) : Option PObj := (tasksOf c.fol.recs).find? fun o => o.id == id
def Channel.homeDecl (c : Channel) (id : Nat) : Option PObj := (homesOf c.fol.recs).find? fun o => o.id == id

/-- This channel sends the state of a task (R134, R143): as the source of a switch that copies it, pending or performed, or
as the first member of the rotation order to a shadow. -/
def Channel.sendsState (c : Channel) (o : PObj) : Bool :=
  let h := c.hrd.cur
  let p := kget noPlace h.tasks o.id
  (p.b1 != 0 && p.copy) || p.moved ||
    (h.shadow != 0 && (rotation h.view h.gen).head? == some c.me.num && decide (2 ≤ min o.repl (countMask h.view)))

/-- MIGRATION_STATE_SEND (R134): the state goes out after the last job that this channel runs.
DEDUCED, unsafe: log entry 30. -/
def execMigrationStateSend (ch : Chan) (task : Fin 256) (s : State) : Out :=
  .next (s.onLive ch fun c =>
    match c.taskDecl task with
    | some o =>
      let a := if c.addrOf true task = 0 then kget 0 c.hrd.lastAddr task else c.addrOf true task
      if a ≠ 0 ∧ c.sendsState o = true then
        c.hrdUp fun x => { x with
          stateOut := x.stateOut ++ [(task.val, c.sram.readBytes a o.size)], lastAddr := kset 0 x.lastAddr task 0 }
      else c
    | none => c)

/-- MIGRATION_STATE_ARRIVED (R134): from here on the new host runs the task's releases; a state that comes before B2 is kept
for the switch. -/
def execMigrationStateArrived (ch : Chan) (task : Fin 256) (bytes : Packet (List Byte)) (s : State) : Out :=
  .next (s.onLive ch fun c =>
    let j := kget {} c.hrd.jobs task
    let p := kget noPlace c.hrd.cur.tasks task
    match c.taskDecl task with
    | some o =>
      if !bytes.crcOk then c.badCrc
      else if c.hrd.links &&& ownLinks c.me = 0 then c
      else if c.addrOf true task ≠ 0 ∧ j.awaiting = true then
        { c.hrdUp fun x => { x with jobs := kset {} x.jobs task { j with awaiting := false } } with
          sram := c.sram.writeBytes (c.addrOf true task) (bytes.val.take o.size) }
      else if c.addrOf true task = 0 ∧ p.b1 ≠ 0 ∧ p.copy = true ∧ p.atB2.testBit ch.idx = true then
        c.hrdUp fun x => { x with arrived := kset [] x.arrived task (bytes.val.take o.size) }
      else c
    | none => c)

/-- A word of the local replica of a home is written. -/
def Channel.homeWrite (c : Channel) (home off : Nat) (v : Word) : Channel :=
  { c with sram := c.sram.writeWord (c.addrOf false home + off) v }

/-- A word offset lies in a home that this channel hosts. -/
def Channel.homeHas (c : Channel) (home off : Nat) : Bool :=
  match c.homeDecl home with
  | some o => c.addrOf false home != 0 && off % 4 == 0 && off + 4 ≤ o.size
  | none => false

/-- DATA_HOME_WRITE (R136): the local replica is written and the words go to the other replicas. -/
def execDataHomeWrite (ch : Chan) (home : Fin 256) (off : Nat) (v : Word) (s : State) : Out :=
  .next (s.onLive ch fun c =>
    if c.homeHas home off then
      (c.homeWrite home off v).hrdUp fun x => { x with homeOut := x.homeOut ++ [(home.val, off, v)] }
    else c)

/-- DATA_HOME_UPDATE_RECEIVED (R136). -/
def execDataHomeUpdateReceived (ch : Chan) (home : Fin 256) (off : Nat) (v : Packet Word) (s : State) : Out :=
  .next (s.onLive ch fun c =>
    if !v.crcOk then c.badCrc
    else if c.homeHas home off && c.hrd.links &&& ownLinks c.me != 0 then c.homeWrite home off v.val else c)

/-- The channel runs jobs of a task: it hosts it, or it is a shadow with a replica of its own (R143). -/
def Channel.runs (c : Channel) (task : Nat) : Bool := c.addrOf true task != 0

/-- JOB_RELEASE (R132, R134): a release before the migrated state has arrived is not run and is counted. -/
def execJobRelease (ch : Chan) (task : Fin 256) (s : State) : Out :=
  .next (s.onLive ch fun c =>
    let j := kget {} c.hrd.jobs task
    if !c.runs task then c
    else if j.awaiting then c.sat HRD_MIG_SKIP
    else c.hrdUp fun x => { x with jobs := kset {} x.jobs task { j with starts := j.starts ++ [c.tb.toNat] } })

/-- EFFBUD in force in µs (R132). -/
def Channel.effbud (c : Channel) (o : PObj) : Nat :=
  if kget 0 c.hrd.cur.budgets o.id = 0 then o.budget else kget 0 c.hrd.cur.budgets o.id

/-- The end of the oldest job (R132): its time in µs, rounded up; 8 consecutive overruns are reported with the largest time. -/
def Channel.jobEnd (c : Channel) (o : PObj) (crc : Nat) : Channel :=
  let j := kget {} c.hrd.jobs o.id
  match j.starts with
  | [] => c
  | t0 :: later =>
    let t := ceilDiv (c.tb.toNat - t0) 200
    let j := { j with starts := later, crc := crc }
    if c.effbud o < t then
      let run := j.run + 1
      let most := max j.most t
      if 8 ≤ run then
        c.hrdUp fun x => { x with jobs := kset {} x.jobs o.id { j with run := 0, most := 0 }, report := x.report ++ [(o.id, most)] }
      else c.hrdUp fun x => { x with jobs := kset {} x.jobs o.id { j with run := run, most := most } }
    else c.hrdUp fun x => { x with jobs := kset {} x.jobs o.id { j with run := 0, most := 0 } }

/-- The members' CRC-32C of a task's output (R143): of every host that has finished its job. -/
def State.hostCrcs (s : State) (c : Channel) (task : Nat) : List Nat :=
  let h := c.hrd.cur
  (chansOf ((kget noPlace h.tasks task).hosts &&& h.view)).filterMap fun n => (Chan.ofNum n).bind fun ch =>
    let j : Job := kget {} (s.chan ch).hrd.jobs task
    if j.starts.isEmpty then some j.crc else none

/-- HRD_DONE (R132, R143): a job has ended; a shadow compares the CRC of its output with the members'. -/
def execHrdDone (ch : Chan) (task : Fin 256) (crc : Word) (s : State) : Out :=
  .next (s.onLive ch fun c =>
    match c.taskDecl task with
    | some o =>
      let c := c.jobEnd o crc.toNat
      if c.isShadow && c.runs task && (s.hostCrcs c task).any (· != crc.toNat) then c.shadowMismatch else c
    | none => c)

/-- A rotation request of firmware (R137).
DEDUCED, unsafe: log entry 31. -/
def Channel.request (c : Channel) (hreq : Nat) : Channel :=
  if c.voting then c.hrdUp fun x => { x with hreq := hreq } else c.wr HRD_REQ_REFUSED 1

/-- HREQ_UPDATE_ROTATION (R137). -/
def execHreqUpdateRotation (ch : Chan) (s : State) : Out := .next (s.onLive ch fun c => c.request 1)

/-- HREQ_PROOF_TEST (R137). -/
def execHreqProofTest (ch : Chan) (s : State) : Out := .next (s.onLive ch fun c => c.request 2)

/-- HREQ_ABORT (R145).
DEDUCED, unsafe: log entry 31. -/
def execHreqAbort (ch : Chan) (s : State) : Out := .next (s.onLive ch fun c => c.request 3)

/-- REPAIR_REQUEST (R140): a voting member that has lost an instance announces ROLE 5 with LCAUSE 2. -/
def execRepairRequest (ch : Chan) (s : State) : Out :=
  .next (s.onLive ch fun c =>
    if c.voting && c.health != 0 then c.hrdUp fun x => { x with repair := true } else c.wr HRD_REQ_REFUSED 1)

/-- ABSENCE_REQUEST_DROPPED (R137, R140): not granted within 10 rounds. -/
def execAbsenceRequestDropped (ch : Chan) (s : State) : Out :=
  .next (s.onLive ch fun c =>
    if c.hrd.hreq != 0 || c.hrd.repair then
      (c.hrdUp fun x => { x with hreq := 0, repair := false }).wr HRD_REQ_REFUSED 1
    else c)

/-- ROTATION_NEXT_REQUEST (R141): 10 control cycles after the previous channel votes again. -/
def execRotationNextRequest (ch : Chan) (s : State) : Out :=
  .next (s.onLive ch fun c =>
    if c.voting && c.hrd.cur.gap.isSome then c.herdUp fun h => { h with gap := some c.hrd.round } else c)

/-- RETURN_DEADLINE (R105): 200 ms after the abort the mode of R78 applies. -/
def execReturnDeadline (ch : Chan) (s : State) : Out :=
  .next (s.onLive ch fun c =>
    if c.voting && c.hrd.cur.hold.isSome then c.herdUp fun h => { h with hold := some 2000 } else c)

/-- PROOF_TEST_DUE (R149): PROOF_H operating hours after the last completed proof test. -/
def execProofTestDue (ch : Chan) (s : State) : Out :=
  .next (s.onLive ch fun c => if c.voting then (c.herdUp fun h => { h with proofDue := true }).showHerd else c)

/-- PROOF_OVERDUE (R149): raised once, at 2 × PROOF_H; the mode does not change. -/
def execProofOverdue (ch : Chan) (s : State) : Out :=
  .next (s.onLive ch fun c =>
    if c.voting && !c.hrd.cur.overdue then ((c.herdUp fun h => { h with overdue := true }).showHerd).raise 17 else c)

/-- RECOVERY_WINDOW_EXPIRY (R123): the oldest counted return leaves the window of 3,600 s. -/
def execRecoveryWindowExpiry (ch : Chan) (s : State) : Out :=
  .next (s.onLive ch fun c =>
    if c.voting || c.isShadow then (c.herdUp fun h => { h with recov := h.recov.tail }).showHerd else c)

end Sys2Proof.Machine
end

