-- ==== Sys2Proof/Machine/Keys.lean ====
section
/-! DEFINITION. Keys, life cycle, identity and attestation: the key commands of 17_security_and_update.md (R461 to R479,
R485 to R487). -/

namespace Sys2Proof.Machine

/-- Size of the token assembly (R479). -/
def assemblyMax : Nat := 40960

/-- `n` bytes of a channel's key buffer. -/
def Port.buf (p : Port) (n : Nat) : List Byte := p.keyBuf.readBytes 0 n

/-- KEY_STAT.BUSY. -/
def Mss.keyBusy (m : Mss) : Mss :=
  m.flag KEY_STAT_BUSY (m.portA.keyCmd != 0 || m.portB.keyCmd != 0 || m.portC.keyCmd != 0)

/-- The result of a key command (R485, R487): KEY_RES, and a KEY_EVENT record with the command, the error, the token's
KIND and the slot. -/
def Mss.keyResult (m : Mss) (ch : Chan) (cmd err len kind slot : Nat) : Mss :=
  let m := m.onPort ch fun p =>
    { (((p.wr KEY_RES_DONE 1).wr KEY_RES_ERR err).wr KEY_RES_LEN len) with keyCmd := 0 }
  m.keyBusy.record 0x20A cmd (err + kind % 256 * 256 + slot % 256 * 65536)

/-- A key command starts (R487): busy with another of this channel, or LEN out of range for the two that take a part,
ends it at once; a part is appended to the channel's assembly (R479).
DEDUCED, unsafe: log entry 66. -/
def Mss.keyStart (m : Mss) (ch : Chan) (cmd : Nat) : Mss :=
  let p := m.port ch
  let len := p.rd KEY_PART_LEN
  if p.keyCmd ≠ 0 then m.onPort ch fun p => (p.wr KEY_RES_DONE 1).wr KEY_RES_ERR 1
  else if (cmd = 2 ∨ cmd = 5) ∧ (len = 0 ∨ 8192 < len) then m.keyResult ch cmd 3 0 0 0
  else if (cmd = 2 ∨ cmd = 5) ∧ assemblyMax < p.assembly.length + len then
    (m.onPort ch fun p => { p with assembly := [] }).keyResult ch cmd 3 0 0 0
  else
    let m := m.onPort ch fun p =>
      { p with
        keyCmd := cmd, regs := p.regs.setWord KEY_RES 0,
        assembly := if cmd = 2 ∨ cmd = 5 then p.assembly ++ p.buf len else p.assembly }
    let m := if cmd = 3 then m.onKey fun k => { k with queue := k.queue ++ [ch] } else m
    m.wr KEY_STAT_BUSY 1

/-- A command of a channel reaches the KEY and UPD blocks: the management link is up and the MSS serves. -/
def State.served (s : State) (ch : Chan) : Bool :=
  (s.chan ch).live && (s.chan ch).mlink && (s.mss.port ch).up && s.mss.mpRuns

/-- KEY_CHALLENGE (R477). -/
def execKeyChallenge (ch : Chan) (s : State) : Out :=
  .next (if s.served ch then s.onMss fun m => m.keyStart ch 1 else s)

/-- KEY_SUBMIT_TOKEN (R479). -/
def execKeySubmitToken (ch : Chan) (s : State) : Out :=
  .next (if s.served ch then s.onMss fun m => m.keyStart ch 2 else s)

/-- KEY_ATTEST (R476). -/
def execKeyAttest (ch : Chan) (s : State) : Out :=
  .next (if s.served ch then s.onMss fun m => m.keyStart ch 3 else s)

/-- KEY_FUSE_ROOT_SLOT (R465). -/
def execKeyFuseRootSlot (ch : Chan) (s : State) : Out :=
  .next (if s.served ch then s.onMss fun m => m.keyStart ch 4 else s)

/-- KEY_APPEND_PART (R479). -/
def execKeyAppendPart (ch : Chan) (s : State) : Out :=
  .next (if s.served ch then s.onMss fun m => m.keyStart ch 5 else s)

/-! Tokens (R477). -/

/-- Fields of a token. -/
def tkKind (t : List Byte) : Nat := leAt t 4 1
def tkRef (t : List Byte) : Nat := leAt t 6 1
def tkArg (t : List Byte) : Nat := leAt t 7 1
def tkBind (t : List Byte) : Nat := leAt t 0x10 16
def tkPub (t : List Byte) : List Byte := slice t 0x40 60
def tkSigLen (t : List Byte) : Nat := leAt t 0x7C 4

/-- The token's form (error 11). `key` bytes follow a token of kind 4 (R465). -/
def tokenForm (t : List Byte) : Bool :=
  let k := tkKind t
  let n := tkSigLen t
  leAt t 0 4 == 0x4E4B4F54 && decide (1 ≤ k) && decide (k ≤ 6) && leAt t 5 1 == 1 && leAt t 0xF 1 == 0
    && (if k ≤ 2 then tkRef t == 0xFF else if k = 6 then decide (tkRef t ≤ 1) else decide (tkRef t ≤ 3))
    && (if k = 5 then decide (tkArg t ≤ 3) else if k = 6 then decide (tkArg t < 16) else tkArg t == 0)
    && (k == 4 || leAt t 0x20 32 == 0) && decide (1 ≤ n) && decide (n ≤ 32768)
    && t.length == 0x80 + n + (if k = 4 then 60 else 0)

/-- The PUBKEY is the key that KIND requires (error 12). -/
def Mss.tokenKey (m : Mss) (t : List Byte) : Bool :=
  let k := tkKind t
  let h := keyHash (tkPub t)
  if k ≤ 2 then h == Config.vendorKeyHash
  else if k = 6 then
    (recsOf m.activeRecs 0x0C01).any fun r =>
      bitsOf (r.w 0) 0 1 == tkRef t && BitVec.ofNat 256 (leNat (wordBytes (r.body.drop 1))) == h
  else m.key.otp.fused.getLsbD (tkRef t) && !m.key.otp.revoked.getLsbD (tkRef t) && kget 0 m.key.otp.hash (tkRef t) == h

/-- The signature over bytes 0x00 to 0x7B (error 13). -/
def tokenSigned (t : List Byte) : Bool := hssOk (tkPub t) (t.take 0x7C) (slice t 0x80 (tkSigLen t))

/-- Every outstanding challenge. -/
def Mss.challenges (m : Mss) : List (BitVec 128) := m.portA.chals ++ m.portB.chals ++ m.portC.chals

/-- The binding (error 14): device, state, challenge or PCYC. -/
def Mss.tokenBound (m : Mss) (t : List Byte) : Bool :=
  leAt t 8 6 != 0 && leAt t 8 6 == Config.deviceId.toNat && leAt t 0xE 1 == m.key.otp.lc &&
    (if tkKind t = 6 then tkBind t == m.sup.pcyc else m.challenges.contains (BitVec.ofNat 128 (tkBind t)))

/-- A challenge lapses at its use (R477). -/
def Mss.useChallenge (m : Mss) (t : List Byte) : Mss :=
  let f := fun (p : Port) => { p with chals := p.chals.filter fun x => x != BitVec.ofNat 128 (tkBind t) }
  if tkKind t = 6 then m else { m with portA := f m.portA, portB := f m.portB, portC := f m.portC }

/-- The lowest slot that is not fused. -/
def Otp.emptySlot (o : Otp) : Option Nat := (List.range 4).find? fun n => !o.fused.getLsbD n

/-- A root slot is fused (R465): hash and FUSED in OTP, the key in the key and state area. -/
def Mss.fuse (m : Mss) (slot : Nat) (key : List Byte) : Mss :=
  (m.onKey fun k => { k with
    keys := kset [] k.keys slot key,
    otp := { k.otp with hash := kset 0 k.otp.hash slot (keyHash key),
                        fused := k.otp.fused ||| BitVec.ofNat 4 (2 ^ slot) } }).showKeys

/-- Some fused, unrevoked slot other than `n`. -/
def Otp.another (o : Otp) (n : Nat) : Bool :=
  (List.range 4).any fun i => i != n && o.fused.getLsbD i && !o.revoked.getLsbD i

/-- A slot is revoked (R466): a GOOD slot whose Folio names it is marked EMPTY in the same step. -/
def Mss.revoke (m : Mss) (n : Nat) : Mss :=
  let m := (m.onKey fun k => { k with otp := { k.otp with revoked := k.otp.revoked ||| BitVec.ofNat 4 (2 ^ n) } }).showKeys
  let drop (i : Nat) (m : Mss) : Mss := if m.slot i = 2 ∧ coSlot (folioCo (m.slotBytes i)) = n then m.mark i 0 else m
  drop 1 (drop 0 m)

/-- No channel reports a mode other than BRING-UP or SERVICE on a link that is up (R468). -/
def State.lcAllowed (s : State) : Bool :=
  [Chan.A, Chan.B, Chan.C].all fun ch =>
    !(s.mss.port ch).up || !(s.chan ch).live || (s.chan ch).rd STW_MODE_MODE == 1 || (s.chan ch).rd STW_MODE_MODE == 6

/-- The life-cycle state that a token leads to (R468); 0 when its condition is not met. -/
def State.lcNext (s : State) (kind : Nat) : Nat :=
  let m := s.mss
  let lc := m.key.otp.lc
  if !s.lcAllowed then 0
  else if kind = 3 ∧ lc = 1 ∧ m.key.otp.fused.getLsbD 0 = true then 2
  else if kind = 3 ∧ lc = 2 ∧ m.is KEY_STAT_DV = false then 3
  else if kind = 1 ∧ lc = 3 then 4
  else if kind = 2 ∧ lc = 4 then 5
  else 0

/-! Attestation (R472 to R476). -/

/-- The 60-byte public key and the key hash of the identity (R461, R472).
DESIGN CHOICE, safe: log entry 68. -/
def idPub (n : Nat) : List Byte := leBytes 60 (Config.identityPub n).toNat
def idHash (n : Nat) : BitVec 256 := keyHash (idPub n)

/-- The leaf index at hand (R473): the larger copy; `none` when both are unreadable. -/
def KeyStore.leaf (k : KeyStore) : Option Nat :=
  match k.leafA, k.leafB with
  | some a, some b => some (max a b)
  | some a, none => some a
  | none, some b => some b
  | none, none => none

/-- Number of signatures of an identity (R472). -/
def leafMax : Nat := 1048576

/-- KEY_STAT.IDSTATE, CREDIT stays, KEY_LEAF (R473, R487). -/
def Mss.showId (m : Mss) : Mss :=
  match m.key.leaf with
  | none => m.wr KEY_STAT_IDSTATE 3
  | some n => (m.wr KEY_STAT_IDSTATE (if m.key.gen ≠ 0 then 1 else if leafMax ≤ n then 2 else 0)).wr KEY_LEAF_VALUE n

/-- A leaf is reserved (R473): both copies take the index + 1 before the signature. -/
def Mss.reserveLeaf (m : Mss) (n : Nat) : Mss :=
  (m.onKey fun k => { k with leafA := some (n + 1), leafB := some (n + 1) }).showId

/-- Bytes that the report signs (R476). -/
def Mss.reportBody (m : Mss) (flags : Nat) (nonce : List Byte) (leaf : Nat) : List Byte :=
  let imgs := (recsOf m.activeRecs 0x0B00).take 16
  let co := m.activeCo
  let hash := fun (p : Port) => leBytes 32 (p.hash.getD 0).toNat
  let rep := fun (p : Port) (b : Nat) => if p.hash.isSome then b else 0
  leBytes 4 0x54535441 ++ leBytes 2 1 ++ leBytes 1 m.key.otp.lc ++ leBytes 1 flags
    ++ leBytes 6 Config.deviceId.toNat ++ leBytes 2 0 ++ nonce
    ++ leBytes 6 m.sup.optime ++ leBytes 3 m.sup.pcyc
    ++ leBytes 1 (m.key.otp.fused.toNat + m.key.otp.revoked.toNat * 16) ++ leBytes 2 m.key.otp.epoch
    ++ leBytes 4 (m.rd KEY_ROLLBACK_VALUE) ++ leBytes 4 (m.rd LOG_NEXT_SEQ) ++ leBytes 4 leaf
    ++ leBytes 1 (m.slotA + m.slotB * 4 + m.active * 16)
    ++ leBytes 1 (rep m.portA 1 + rep m.portB 2 + rep m.portC 4) ++ leBytes 1 0 ++ leBytes 1 imgs.length
    ++ leBytes 4 (coVersion co) ++ leBytes 32 (coHash co).toNat
    ++ hash m.portA ++ hash m.portB ++ hash m.portC
    ++ leBytes 4 m.sup.cal ++ leBytes 2 m.sup.calEpoch ++ leBytes 2 0
    ++ imgs.flatMap (fun r =>
        leBytes 1 (imgId r) ++ leBytes 1 (imgTarget r) ++ leBytes 1 r.scope ++ leBytes 1 0 ++ wordBytes (r.body.drop 4))
    ++ idPub m.key.id

/-- FLAGS of a report (R476). -/
def Mss.reportFlags (m : Mss) (pend handover : Bool) : Nat :=
  let b := fun (p : Bool) n => if p then 2 ^ n else 0
  b (m.is LOG_STAT_FULL) 0 + b (m.is LOG_STAT_DEAD) 1 + b (m.is LOG_STAT_RET0) 2 + b (m.is LOG_STAT_RET1) 3
    + b (m.is KEY_STAT_DV) 4 + b pend 5 + b handover 6

/-- The signed report: body, SIG_LEN, the 5,076 bytes of the signature.
DESIGN CHOICE, safe: log entry 68. -/
def signed (id leaf : Nat) (body : List Byte) : List Byte :=
  let sig := Config.identitySig id leaf body
  body ++ leBytes 4 5076 ++ (List.range 5076).map fun i => sig.getD i 0

/-- A commit is pending in the herd (R148). -/
def State.commitPending (s : State) : Bool :=
  [Chan.A, Chan.B, Chan.C].any fun ch => (s.chan ch).voting && (s.chan ch).hrd.cur.commitPend

/-- Write a result into a channel's key buffer. -/
def Mss.putBuf (m : Mss) (ch : Chan) (bs : List Byte) : Mss :=
  m.onPort ch fun p => { p with keyBuf := p.keyBuf.writeBytes 0 bs }

/-- An attestation report is produced (R474, R476): a credit and a leaf are taken. -/
def Mss.attest (m : Mss) (ch : Chan) (pend : Bool) (leaf : Nat) : Mss :=
  let p := m.port ch
  let nonce := wordBytes ((List.range 8).map fun i => p.regs.word (KEY_NONCE i))
  let m := (m.wr KEY_STAT_CREDIT (m.rd KEY_STAT_CREDIT - 1)).reserveLeaf leaf
  let r := signed m.key.id leaf (m.reportBody (m.reportFlags pend false) nonce leaf)
  (m.putBuf ch r).keyResult ch 3 0 r.length 0 0

/-- CMD 3 completes (R472 to R474): error 16 without credit or identity; each 1,024th signature first generates the next
lower tree.
DEDUCED, unsafe: log entry 67. -/
def Mss.attestDone (m : Mss) (ch : Chan) (pend : Bool) : Mss :=
  if m.key.queue.head? ≠ some ch ∨ m.rd MSS_STAT_LOAD = 3 ∨ m.key.gen ≠ 0 then m
  else match m.key.leaf with
    | none => (m.onKey fun k => { k with queue := k.queue.tail }).keyResult ch 3 16 0 0 0
    | some n =>
      if m.rd KEY_STAT_CREDIT = 0 ∨ leafMax ≤ n then
        (m.onKey fun k => { k with queue := k.queue.tail }).keyResult ch 3 16 0 0 0
      else if n % 1024 = 1023 ∧ m.key.trees ≤ n / 1024 + 1 ∧ n + 1 < leafMax then
        (m.onKey fun k => { k with gen := 1 }).showId
      else (m.onKey fun k => { k with queue := k.queue.tail }).attest ch pend n

/-- CMD 1 completes (R477).
DESIGN CHOICE, safe: log entry 68. -/
def Mss.challengeDone (m : Mss) (ch : Chan) : Mss :=
  let x := Config.challenge m.free
  let m := { m with free := m.free + 1 }.onPort ch fun p =>
    let p := { p with chals := p.chals ++ [x] }
    (List.range 4).foldl (fun p i => p.wr (KEY_CHAL_VALUE i) (x.toNat / 2 ^ (32 * i))) p
  m.keyResult ch 1 0 0 0 0

/-- A root slot is fused at a command's end (R465); the key must have the hash that a token's PAYLOAD names. -/
def Mss.fuseDone (m : Mss) (ch : Chan) (cmd kind : Nat) (key : List Byte) (want : Option Nat) : Mss :=
  match m.key.otp.emptySlot with
  | none => m.keyResult ch cmd 15 0 kind 0
  | some n =>
    if (match want with
        | some h => (keyHash key).toNat != h
        | none => false) then m.keyResult ch cmd 12 0 kind n
    else (m.fuse n key).keyResult ch cmd 0 0 kind n

/-- The effects of a life-cycle change (R468, R469, R475): the handover report by the old identity, the fuse, the wipe of
the staging area, the session and the challenges, a new identity unless SCRAPPED, the LC_CHANGE record.
DEDUCED, unsafe: log entry 67. -/
def Mss.lcChange (m : Mss) (ch : Chan) (dst kind : Nat) : Mss :=
  let was := m.key.otp.lc
  let newId := m.key.id + 1
  let hash := leBytes 32 (idHash newId).toNat
  let (m, len) :=
    if dst = 5 then (m, 0)
    else match m.key.leaf with
      | some n =>
        if leafMax ≤ n then (m, 0)
        else
          let m := m.reserveLeaf n
          let r := signed m.key.id n (m.reportBody (m.reportFlags false true) hash n)
          (m.putBuf ch r, r.length)
      | none => (m, 0)
  let m := (m.onKey fun k => { k with otp := { k.otp with lc := dst }, gen := 0 }).showKeys
  let m := if dst = 5 then m else
    ((m.onKey fun k => { k with
      id := newId, leafA := some 0, leafB := some 0, trees := 1,
      hashes := (k.hashes ++ [idHash newId]).drop (k.hashes.length + 1 - 8) }).wr KEY_STAT_CREDIT 8)
  let wipe := fun (p : Port) => { p with chals := [] }
  let m := { m with portA := wipe m.portA, portB := wipe m.portB, portC := wipe m.portC }
  let m := m.noSession.onUpd fun u =>
    { u with buffer := [], copy := 0, arm := if u.copy = 0 then u.arm else 0 }
  let m := m.showId.record 0x209 0 (was + dst * 256 + (if dst = 5 then 0 else (idHash newId).toNat % 2 ^ 32 * 65536))
  m.keyResult ch 2 0 len kind 0

/-- Every channel is asked for a channel reset (R468, R29). -/
def State.resetAll (s : State) : State :=
  let f (ch : Chan) (s : State) : State :=
    if (s.mss.port ch).up then s.onLive ch fun c => if c.mayReset then (c.reset 4 0).errRefresh else c.refuse else s
  f .C (f .B (f .A s))

/-- The ports that a debug token opens (R513): ARG AND FLDEN of the ACTIVE Folio. -/
def Mss.debugPorts (m : Mss) (t : List Byte) : Nat :=
  tkArg t &&& (((recsOf m.activeRecs 0x0E00).head?.map fun r => bitsOf (r.w 0) 8 4).getD 0)

/-- A token of kind 6 is accepted (R513): the stewards honour the announcement while the herd's mode is SERVICE. -/
def State.openPorts (s : State) (mask : Nat) : State :=
  let f (ch : Chan) (s : State) : State :=
    if mask.testBit ch.idx && (s.mss.port ch).up then
      s.onLive ch fun c => if s.modeSeen ch = 6 then { c with dbg := { c.dbg with token := true } } else c
    else s
  let s := (f .C (f .B (f .A s))).onMss fun m => m.onKey fun k => { k with dbgPorts := mask }
  if mask.testBit 3 then s.onMss fun m => { m with dbg := { m.dbg with token := true } } else s

/-- A token that has passed its form, key, signature and binding acts (R465 to R468, R478, R513): error 15 where its
condition is not met. -/
def State.tokenAct (s : State) (ch : Chan) (cmd : Nat) (t : List Byte) : State :=
  let k := tkKind t
  let o := s.mss.key.otp
  let refuse : State := s.onMss fun m => m.keyResult ch cmd 15 0 k (tkArg t)
  if k = 4 then
    if o.lc ≠ 2 then refuse
    else s.onMss fun m => m.fuseDone ch cmd 4 (t.drop (t.length - 60)) (some (leAt t 0x20 32))
  else if k = 5 then
    let n := tkArg t
    if n = tkRef t ∨ o.fused.getLsbD n = false ∨ o.another n = false ∨
        (s.mss.holds s.mss.active = true ∧ coSlot s.mss.activeCo = n) then refuse
    else s.onMss fun m => (m.revoke n).keyResult ch cmd 0 0 5 n
  else if k = 6 then
    if o.lc ≠ 3 then refuse
    else (s.openPorts (s.mss.debugPorts t)).onMss fun m => m.keyResult ch cmd 0 0 6 0
  else
    let dst := s.lcNext k
    if dst = 0 then refuse
    else if dst = 5 then (s.onMss fun m => m.lcChange ch dst k).resetAll
    else s.onMss fun m =>
      (m.onKey fun x => { x with gen := 2, lcTo := dst, lcKind := k, lcBy := ch }).showId

/-- A token is judged (R477, R486): form 11, key 12, signature 13, binding 14, then its action.
DEDUCED, unsafe: log entry 66. -/
def State.token (s : State) (ch : Chan) (cmd : Nat) (t : List Byte) : State :=
  let err (e : Nat) : State := s.onMss fun m => m.keyResult ch cmd e 0 (tkKind t) 0
  if !tokenForm t then err 11
  else if !s.mss.tokenKey t then err 12
  else if !tokenSigned t then err 13
  else if !s.mss.tokenBound t then err 14
  else (s.onMss fun m => m.useChallenge t).tokenAct ch cmd t

/-- CMD 4 completes (R465): in BLANK the key from the buffer without a signature, in DEVELOPMENT a token of kind 4.
DEDUCED, unsafe: log entry 66. -/
def State.fuseCmd (s : State) (ch : Chan) : State :=
  let p := s.mss.port ch
  let lc := s.mss.key.otp.lc
  if lc = 1 then s.onMss fun m => m.fuseDone ch 4 0 (p.buf 60) none
  else if lc = 2 then
    let t := if p.assembly.isEmpty then p.buf 8192 else p.assembly
    let t := t.take (0x80 + tkSigLen t + 60)
    if tkKind t = 4 then s.token ch 4 t else s.onMss fun m => m.keyResult ch 4 11 0 (tkKind t) 0
  else s.onMss fun m => m.keyResult ch 4 15 0 0 0

/-- A key command completes (R487). A life-cycle change waits for its new identity.
DEDUCED, unsafe: log entry 66. -/
def State.keyDone (s : State) (ch : Chan) : State :=
  let p := s.mss.port ch
  if s.mss.key.gen = 2 then s
  else match p.keyCmd with
    | 1 => s.onMss fun m => m.challengeDone ch
    | 2 => (s.onMss fun m => m.onPort ch fun p => { p with assembly := [] }).token ch 2 p.assembly
    | 3 => s.onMss fun m => m.attestDone ch s.commitPending
    | 4 => s.fuseCmd ch
    | 5 => s.onMss fun m => m.keyResult ch 5 0 0 0 0
    | _ => s

/-- KEY_COMMAND_DONE (R487). -/
def execKeyCommandDone (ch : Chan) (s : State) : Out := .next (if s.mss.mpRuns then s.keyDone ch else s)

/-- IDENTITY_GENERATED (R468, R472): a lower tree, or the new identity of a life-cycle change, which is then carried out.
DEDUCED, unsafe: log entry 67. -/
def execIdentityGenerated (s : State) : Out :=
  .next (
    if !s.mss.mpRuns then s
    else if s.mss.key.gen = 1 then
      s.onMss fun m => (m.onKey fun k => { k with gen := 0, trees := k.trees + 1 }).showId
    else if s.mss.key.gen = 2 then
      (s.onMss fun m => m.lcChange m.key.lcBy m.key.lcTo m.key.lcKind).resetAll
    else s)

/-- ATTEST_CREDIT (R474): one credit per 450,000 ms of OPTIME, up to 8. -/
def execAttestCredit (s : State) : Out :=
  .next (s.onMss fun m =>
    if m.on then m.wr KEY_STAT_CREDIT (min 8 (m.rd KEY_STAT_CREDIT + 1)) else m)

end Sys2Proof.Machine
end

