-- ==== Sys2Proof/Machine/Update.lean ====
section
/-! DEFINITION. The update path, the commit and the start of the management subsystem: R480 to R484 and R488 of
17_security_and_update.md, R492 of 18_bring_up_and_power.md, R17 of 01_architecture.md. -/

namespace Sys2Proof.Machine

/-- The largest envelope (R480). -/
def envMax : Nat := 6291456

/-- The result of an update command (R485, R488): UPD_RES, and an UPD_EVENT record with the command, the error, UPD_NEXT
and the first 4 bytes of the staged BODY_HASH. -/
def Mss.updResult (m : Mss) (cmd err : Nat) : Mss :=
  let m := (m.wr UPD_RES_DONE 1).wr UPD_RES_ERR err
  m.record 0x20B cmd (err + m.rd UPD_NEXT_VALUE * 2 ^ 8 + m.rd (UPD_HASH_VALUE 0) * 2 ^ 40)

/-- The channel owns the session. -/
def Mss.owns (m : Mss) (ch : Chan) : Bool := m.rd UPD_STAT_OWNER == ch.num

/-- The MP verifies or writes a slot. -/
def Mss.updBusy (m : Mss) : Bool := m.rd UPD_STAT_STATE == 2 || m.rd UPD_STAT_STATE == 4

/-- CMD 1 (R481): a session opens, or is taken over 60 s after the latest block. Another channel's command in between
finds the session owned (error 2); the owner's own goes on with its session.
DEDUCED, unsafe: log entry 69. -/
def Mss.updOpen (m : Mss) (ch : Chan) : Mss :=
  let n := m.rd UPD_LEN_VALUE
  if m.rd UPD_STAT_OWNER = 0 then
    if n = 0 ∨ n % 4 ≠ 0 ∨ envMax < n then m.updResult 1 3
    else
      let m := (m.noSession.wr UPD_STAT_STATE 1).wr UPD_STAT_OWNER ch.num
      (m.onUpd fun u => { u with blockAt := m.sup.up }).updResult 1 0
  else if m.owns ch then m.updResult 1 0
  else if 60000 ≤ m.sup.up - m.upd.blockAt then
    ((m.wr UPD_STAT_OWNER ch.num).onUpd fun u => { u with blockAt := m.sup.up }).updResult 1 0
  else m.updResult 1 2

/-- UPD_OPEN (R481). -/
def execUpdOpen (ch : Chan) (s : State) : Out :=
  .next (if s.served ch then s.onMss fun m => m.updOpen ch else s)

/-- CMD 2 (R481): the block in the staging buffer joins the staged envelope at UPD_NEXT.
DEDUCED, unsafe: log entry 69. -/
def Mss.updBlock (m : Mss) (ch : Chan) (words : Nat) : Mss :=
  let next := m.rd UPD_NEXT_VALUE
  let len := 4 * words
  if !m.owns ch then m.updResult 2 2
  else if m.rd MSS_STAT_LOAD = 3 then m.updResult 2 10
  else if m.updBusy then m.updResult 2 1
  else if m.rd UPD_STAT_STATE ≠ 1 ∨ words = 0 ∨ 1024 < words ∨ m.rd UPD_OFS_VALUE ≠ next ∨
      m.rd UPD_LEN_VALUE < next + len then m.updResult 2 3
  else
    let m := m.onUpd fun u => { u with staged := u.staged ++ u.buffer.readBytes 0 len, blockAt := m.sup.up }
    (m.wr UPD_NEXT_VALUE (next + len)).updResult 2 0

/-- UPD_BLOCK (R481). -/
def execUpdBlock (ch : Chan) (words : Nat) (s : State) : Out :=
  .next (if s.served ch then s.onMss fun m => m.updBlock ch words else s)

/-- CMD 3 (R482): verification starts once all bytes have arrived.
DEDUCED, unsafe: log entry 69. -/
def Mss.updVerify (m : Mss) (ch : Chan) : Mss :=
  if !m.owns ch then m.updResult 3 2
  else if m.updBusy then m.updResult 3 1
  else if m.rd UPD_STAT_STATE ≠ 1 ∨ m.rd UPD_NEXT_VALUE ≠ m.rd UPD_LEN_VALUE then m.updResult 3 3
  else ((m.wr UPD_RES_DONE 0).wr UPD_RES_ERR 0).wr UPD_STAT_STATE 2

/-- UPD_VERIFY (R482). -/
def execUpdVerify (ch : Chan) (s : State) : Out :=
  .next (if s.served ch then s.onMss fun m => m.updVerify ch else s)

/-! The envelope (R480). -/

/-- Fields of an envelope. -/
def envFolLen (e : List Byte) : Nat := leAt e 0x0C 4
def envFolio (e : List Byte) : List Byte := slice e 0x60 (envFolLen e)
def envSigLen (e : List Byte) : Nat := leAt e (0x60 + envFolLen e) 4

/-- Step 1 (R482): magic, format, lengths, reserved fields, device. -/
def envForm (len : Nat) (e : List Byte) : Bool :=
  let f := envFolLen e
  let n := envSigLen e
  let stop := 0x64 + f + n
  let dev := leAt e 0x10 6
  leAt e 0 4 == 0x45445055 && leAt e 4 2 == 1 && leAt e 7 1 == 0 && leAt e 8 4 == len && e.length == len
    && leAt e 0x16 2 == 0 && leAt e 0x54 12 == 0 && len == stop + pad4 stop && f == spLen (envFolio e)
    && allZero (slice e stop (len - stop)) && (dev == 0 || dev == Config.deviceId.toNat)

/-- Step 2: the update key that the ACTIVE Folio declares for the slot (R538). -/
def Mss.updKeyOk (m : Mss) (e : List Byte) : Bool :=
  (recsOf m.activeRecs 0x0C00).any fun r =>
    bitsOf (r.w 0) 0 2 == leAt e 6 1 && BitVec.ofNat 256 (leNat (wordBytes (r.body.drop 1))) == keyHash (slice e 0x18 60)

/-- Step 3: the envelope's signature. -/
def envSigned (e : List Byte) : Bool :=
  hssOk (slice e 0x18 60) (e.take (0x60 + envFolLen e)) (slice e (0x64 + envFolLen e) (envSigLen e))

/-- UPD_FOLRES and UPD_FOLPOS as FOL_RES and FOL_POS (R71). -/
def Mss.showFolio (m : Mss) (r : Option FErr) : Mss :=
  match r with
  | none => (m.wr UPD_FOLRES_VALUE 0).wr UPD_FOLPOS_VALUE 0
  | some e => (m.wr UPD_FOLRES_VALUE (e.code + e.qtype % 256 * 256 + e.index % 65536 * 65536)).wr UPD_FOLPOS_VALUE e.offset

/-- The BODY_HASH of the staged Folio. -/
def Mss.showHash (m : Mss) (h : BitVec 256) : Mss :=
  (List.range 8).foldl (fun m i => m.wr (UPD_HASH_VALUE i) (h.toNat / 2 ^ (32 * i))) m

/-- The four steps of R482; the first failure ends verification. -/
def Mss.verifyDone (m : Mss) : Mss :=
  let e := m.upd.staged
  let bad (m : Mss) (err : Nat) : Mss := (m.wr UPD_STAT_STATE 1).updResult 3 err
  if !envForm (m.rd UPD_LEN_VALUE) e then bad m 4
  else
    let m := m.showHash (coHash (folioCo (envFolio e)))
    if !m.updKeyOk e then bad m 5
    else if !envSigned e then bad m 6
    else match validate m.key.otp m.key.keys (m.rd KEY_ROLLBACK_VALUE) (envFolio e) with
      | some x => bad (m.showFolio (some x)) 7
      | none => ((m.showFolio none).wr UPD_STAT_STATE 3).updResult 3 0

/-- UPD_VERIFY_DONE (R482). -/
def execUpdVerifyDone (s : State) : Out :=
  .next (if s.mss.mpRuns && s.mss.rd UPD_STAT_STATE == 2 then s.onMss Mss.verifyDone else s)

/-- A rotation runs, as a voting member shows (R141, R483). -/
def State.rotating (s : State) : Bool :=
  [Chan.A, Chan.B, Chan.C].any fun ch => (s.chan ch).voting && (s.chan ch).hrd.cur.rotKind != 0

/-- CMD 4 and 5 (R483): the non-active slot is marked EMPTY and written. Not verified: error 15.
DEDUCED, unsafe: log entry 69. -/
def State.updArm (s : State) (ch : Chan) (cmd : Nat) : State :=
  let m := s.mss
  let res (e : Nat) : State := s.onMss fun m => m.updResult cmd e
  if !m.owns ch then res 2
  else if m.updBusy then res 1
  else if m.slotA = 1 ∨ m.slotB = 1 ∨ s.rotating = true ∨ s.commitPending = true then res 9
  else if m.rd UPD_STAT_STATE ≠ 3 then res 15
  else if cmd = 4 ∧ coCompat (folioCo (envFolio m.upd.staged)) ≠ coCompat m.activeCo then res 8
  else s.onMss fun m =>
    let m := ((m.wr UPD_RES_DONE 0).wr UPD_RES_ERR 0).wr UPD_STAT_STATE 4
    let n := 1 - m.active
    (m.mark n 0).onUpd fun u => { u with copy := n + 1, arm := cmd - 3, started := false }

/-- UPD_ARM_ROTATION (R483). -/
def execUpdArmRotation (ch : Chan) (s : State) : Out := .next (if s.served ch then s.updArm ch 4 else s)

/-- UPD_ARM_POWER_CYCLE (R483). -/
def execUpdArmPowerCycle (ch : Chan) (s : State) : Out := .next (if s.served ch then s.updArm ch 5 else s)

/-- The copy and its read-back end (R483). A copy that does not read back leaves the slot EMPTY; its error code is open
(a free value, not 0).
DEDUCED, unsafe: log entry 69. -/
def Mss.copyDone (m : Mss) (ok : Bool) : Mss :=
  let n := m.upd.copy - 1
  let arm := m.upd.arm
  let m := m.onUpd fun u => { u with copy := 0 }
  if ok then
    let f := envFolio m.upd.staged
    let m := m.onUpd fun u => if n = 0 then { u with bytesA := f } else { u with bytesB := f }
    ((m.mark n 1).wr UPD_STAT_STATE (arm + 4)).updResult (arm + 3) 0
  else
    let (k, m) := m.draw 17
    ((m.onUpd fun u => { u with arm := 0 }).wr UPD_STAT_STATE 3).updResult (arm + 3) (k + 1)

/-- SLOT_COPY_DONE (R483). -/
def execSlotCopyDone (readBackOk : Bool) (s : State) : Out :=
  .next (s.onMss fun m => if m.mpRuns && m.upd.copy != 0 then m.copyDone readBackOk else m)

/-- CMD 6 (R481): the session is discarded.
DEDUCED, unsafe: log entry 69. -/
def Mss.updDiscard (m : Mss) (ch : Chan) : Mss :=
  if !m.owns ch then m.updResult 6 2
  else if m.updBusy then m.updResult 6 1
  else m.noSession.updResult 6 0

/-- UPD_DISCARD (R481). -/
def execUpdDiscard (ch : Chan) (s : State) : Out :=
  .next (if s.served ch then s.onMss fun m => m.updDiscard ch else s)

/-! The commit (R148, R471, R484). -/

/-- The TRIAL slot, numbered 0 A, 1 B. -/
def Mss.trial (m : Mss) : Option Nat := if m.slotA = 1 then some 0 else if m.slotB = 1 then some 1 else none

/-- A voting member whose management link is up: the herd as the MSS hears it. -/
def State.herdVoice (s : State) : Option Channel :=
  ([Chan.A, Chan.B, Chan.C].find? fun ch => (s.chan ch).voting && (s.chan ch).mlink && (s.mss.port ch).up).map s.chan

/-- The MSS acknowledges the completion report (R148): every member's COMMITPEND falls.
DEDUCED, unsafe: log entry 70. -/
def State.ackCommit (s : State) : State :=
  let f (ch : Chan) (s : State) : State :=
    s.onLive ch fun c =>
      if c.voting || c.isShadow then (c.herdUp fun h => { h with commitPend := false }).showHerd else c
  f .C (f .B (f .A s))

/-- What the MSS does about a TRIAL slot (R148, R471, R484): the commit on a completion report; after a power-cycle arm,
the commit in FULL or DUPLEX with the TRIAL hash, the return to the former slot with the former hash, else nothing.
DEDUCED, unsafe: log entry 70. -/
def State.commit (s : State) : State :=
  match s.mss.trial, s.herdVoice with
  | some n, some c =>
    if c.hrd.cur.commitPend then (s.onMss fun m => m.commit n).ackCommit
    else if s.mss.upd.arm = 2 ∧ s.mss.upd.started = true ∧ s.mss.upd.noHerd = false then
      if c.bodyHash = coHash (folioCo (s.mss.slotBytes n)) then
        if c.hrd.cur.mode = 2 ∨ c.hrd.cur.mode = 3 then s.onMss fun m => m.commit n else s
      else if s.mss.holds s.mss.upd.former = true ∧
          c.bodyHash = coHash (folioCo (s.mss.slotBytes s.mss.upd.former)) then
        s.onMss fun m => ((m.mark n 0).activate m.upd.former).onUpd fun u => { u with arm := 0, started := false }
      else s
    else s
  | _, _ => s

/-- COMMIT (R471). -/
def execCommit (s : State) : Out := .next (if s.mss.mpRuns then s.commit else s)

/-- TRIAL_NO_HERD_TIMEOUT (R484): the slots stay as they are for this power cycle. -/
def execTrialNoHerdTimeout (s : State) : Out :=
  .next (
    if s.mss.on && !([Chan.A, Chan.B, Chan.C].any fun ch => (s.chan ch).voting) then
      s.onMss fun m => m.onUpd fun u => { u with noHerd := true }
    else s)

/-- COMMIT_REPORT_REPEAT (R148): the report of a member with COMMITPEND set reaches the MSS again; it is acknowledged once
the commit is done. -/
def execCommitReportRepeat (ch : Chan) (s : State) : Out :=
  .next (
    if (s.chan ch).voting && (s.chan ch).hrd.cur.commitPend && s.served ch && s.mss.trial.isNone then s.ackCommit
    else s)

/-! The management rail and the MSS's start (R17, R430, R431, R443, R484, R492). -/

/-- A source of the management rail (R17): a channel's auxiliary converter, or VSUP_M. -/
def State.railUp (s : State) : Bool :=
  ([Chan.A, Chan.B, Chan.C].any fun ch => (s.chan ch).pwr.up || !(s.chan ch).pwr.off) || s.mss.sup.vsupM

/-- The management rail has failed: the MSS stops. A record in progress has reached neither bank, bank 0 alone or both
(R443); which of them is open.
DEDUCED, unsafe: log entry 62. -/
def Mss.powerDown (m : Mss) : Mss :=
  if !m.on then m
  else
    let (k, m) := m.draw 3
    let put := fun (b : KMap LogRecord) => match m.log.now with
      | some r => kset LogRecord.blank b r.seq r
      | none => b
    { m with
      on := false, ready := false, mp := false, held := false, rung := 0, restart := none, shadow := [], bus := .idle, sram := [], portA := {}, portB := {},
      portC := {}, dbg := {},
      log := { bank0 := if k = 0 ∨ m.is LOG_STAT_RET0 = true then m.log.bank0 else put m.log.bank0,
               bank1 := if k ≠ 2 ∨ m.is LOG_STAT_RET1 = true then m.log.bank1 else put m.log.bank1 } }

/-- Mode 0 while every channel is unpowered (R73): what the MSS writes then carries OFF. -/
def State.offCheck (s : State) : State :=
  if [Chan.A, Chan.B, Chan.C].all fun ch => (s.chan ch).pwr.off then s.onMss fun m => { m with herdMode := 0 } else s

/-- A supply has gone: the MSS stops when its rail has no source left, and with no channel supplied the mode is OFF (R73).
DEDUCED, unsafe: log entry 71. -/
def State.railCheck (s : State) : State := if s.railUp then s.offCheck else (s.onMss Mss.powerDown).showLost

/-- VSUP_M_LOSS (R17). -/
def execVsupMLoss (s : State) : Out :=
  .next ((s.onMss fun m => m.onSup fun x => { x with vsupM := false }).railCheck)

/-- Registers of the MSS that stand in the key and state area and outlive its supply. -/
def mssKept : List Nat := [LOG_NEXT, KEY_STAT, KEY_LEAF, KEY_ROLLBACK, LOG_STAT] ++ (List.range 1024).map LOG_LIFE

/-- The recovery of an interrupted write (R443): a good record at LOG_NEXT in a bank is completed into the other and
LOG_NEXT advances; otherwise the slot is cleared in both. A full log takes no writes (R444, R445).
DEDUCED, unsafe: log entry 62. -/
def Mss.recoverLog (m : Mss) : Mss :=
  let n := m.rd LOG_NEXT_SEQ
  if bankSlots ≤ n ∨ m.is LOG_STAT_FULL = true ∨ m.is LOG_STAT_DEAD = true then m
  else
    let ok := fun (b : KMap LogRecord) => let r := kget LogRecord.blank b n; r.good && r.seq == n
    let r? :=
      if !m.is LOG_STAT_RET0 && ok m.log.bank0 then some (kget LogRecord.blank m.log.bank0 n)
      else if !m.is LOG_STAT_RET1 && ok m.log.bank1 then some (kget LogRecord.blank m.log.bank1 n)
      else none
    let r := r?.getD LogRecord.blank
    let m := m.onLog fun l => { l with
      bank0 := if m.is LOG_STAT_RET0 then l.bank0 else kset LogRecord.blank l.bank0 n r,
      bank1 := if m.is LOG_STAT_RET1 then l.bank1 else kset LogRecord.blank l.bank1 n r }
    if r?.isSome then m.advance else m

/-- The slot of a power-cycle arm (R484): made ACTIVE at the first MSS power-on after the arm; still TRIAL at the next, it
is marked EMPTY and the former slot returns.
DEDUCED, unsafe: log entry 70. -/
def Mss.armStep (m : Mss) : Mss :=
  match m.trial with
  | some n =>
    if m.upd.arm ≠ 2 then m
    else if m.upd.started then
      ((m.mark n 0).activate m.upd.former).onUpd fun u => { u with arm := 0, started := false }
    else (m.onUpd fun u => { u with started := true, former := m.active }).activate n
  | none => m.onUpd fun u => { u with arm := 0, started := false }

/-- The supervisor's part at power-on: OPTIME from the larger copy (R430), PCYC counted (R431), CALEPOCH kept (R432).
DEDUCED, unsafe: log entry 60. -/
def Sup.powerOn (x : Sup) (vsupM : Bool) : Sup :=
  { optime := max x.optA x.optB, optA := x.optA, optB := x.optB, pcyc := satInc 24 x.pcyc, calEpoch := x.calEpoch,
    vsupM := vsupM, errM := x.errM }

/-- The MSS at the rise of its rail (R429, R492): the MP image goes from the ACTIVE slot into the MP SRAM. `readOk`: the
MRAM read has met no uncorrectable error. A damaged image leaves the MSS in its boot ROM: it serves nothing. -/
def Mss.powerOn (m : Mss) (readOk vsupM : Bool) : Mss :=
  let imageOk := readOk && m.imageGood readOk
  let regs := copyRegs m.regs mssKept mssResetRegs
  let key := { m.key with queue := [], gen := 0, dbgPorts := 0, leafA := m.key.leaf, leafB := m.key.leaf }
  let m : Mss := { m with
    regs := regs, shadow := [], on := true, ready := false, mp := imageOk, held := false, restart := none, herdMode := 0, rung := 0,
    portA := {}, portB := {}, portC := {}, dbg := {}, bus := .idle, sram := [], sup := m.sup.powerOn vsupM, key := key,
    log := { bank0 := m.log.bank0, bank1 := m.log.bank1 },
    upd := { m.upd with staged := [], buffer := [], blockAt := 0, copy := 0, noHerd := false } }
  let m := ((m.wr LOG_STAT_BUSY 0).wr KEY_STAT_BUSY 0).showKeys.showId
  let m := m.recoverLog
  if imageOk then
    let m := m.loadImage
    let m := if m.upd.journal = 0 then m else m.commit (m.upd.journal - 1)
    { m.armStep.record 0x200 0 0 with ready := true }
  else m

/-- MSS_POWER_ON (R492). `vsupMUsed`: VSUP_M is at or above 1 V (R434) and feeds the rail. -/
def execMssPowerOn (imageOk vsupMUsed : Bool) (s : State) : Out :=
  .next (
    if !s.mss.on && (s.a.pwr.up || s.b.pwr.up || s.c.pwr.up || vsupMUsed) then
      (s.onMss fun m => m.powerOn imageOk vsupMUsed).closePorts true
    else s)

end Sys2Proof.Machine
end

