-- ==== Sys2Proof/Machine/Power.lean ====
section
/-! DEFINITION. Supplies, the bring-up sequence, the key and the power ladder: the commands of
18_bring_up_and_power.md. -/

namespace Sys2Proof.Machine

/-- The rung of a channel (R494, R507). -/
def Channel.rung (c : Channel) : Nat := c.rd PWR_STAT_RUNG

/-- VSUP_x has been at or above 6.0 V for 100 µs (R489): power-on reset is released and step 1 begins; a channel that was
not held in reset loses its undervoltage cause. A region asleep stays asleep.
DEDUCED, unsafe: log entry 71. -/
def Channel.vsupRise (c : Channel) : Channel :=
  if c.pwr.off then
    if 2 ≤ c.rung then { c with pwr := { c.pwr with up := true } }
    else { c.repower with pwr := { boot := 20000 } }.errRefresh
  else
    let uv := c.pow.d2dCause || c.pow.fsCause
    ({ c with pwr := { c.pwr with up := true }, pow := { c.pow with uvCause := false } }.setCauses 5 uv).errRefresh

/-- VSUP_RISE (R489, R431). `allLowFor100ms`: every VSUP_x had been below 6 V for at least 100 ms. -/
def execVsupRise (ch : Chan) (allLowFor100ms : Bool) (s : State) : Out :=
  let first := allLowFor100ms && !s.a.pwr.up && !s.b.pwr.up && !s.c.pwr.up
  let s := s.onMss fun m => if m.on && first then m.onSup fun x => { x with pcyc := satInc 24 x.pcyc } else m
  let s := if s.mss.on && first then (s.onMss fun m => m.onKey fun k => { k with dbgPorts := 0 }).closePorts true else s
  .next (s.on ch Channel.vsupRise)

/-- The digital die has lost its supply: it has no state; its rung is kept (R495, R502), and on the ladder the
power-state controller, which runs from XO_x (R32), keeps what POWER declares.
DEDUCED, unsafe: log entry 72. -/
def Channel.unpowered (c : Channel) (up : Bool) (rung : Nat) : Channel :=
  let kept := if rung = 0 then [] else c.fol.recs.filter fun r => r.type / 256 == 0x0D
  { c.repower with pwr := { up := up, off := true, awake := c.pwr.awake }, fol := { recs := kept } }.wr PWR_STAT_RUNG rung

/-- VSUP_x is below 5.6 V (R489): cause bit 5 takes both bridges out of service. On P2 and P3 the retention is lost
(R502). -/
def Channel.undervoltage (c : Channel) : Channel :=
  if c.pwr.off then { c with pwr := { c.pwr with up := false } }
  else if 2 ≤ c.rung then c.unpowered false c.rung
  else
    ({ c with pwr := { c.pwr with up := false }, pow := { c.pow with uvCause := true } }.setCauses 5 true).errRefresh

/-- VSUP_UNDERVOLTAGE (R489). -/
def execVsupUndervoltage (ch : Chan) (s : State) : Out := .next (s.on ch Channel.undervoltage).railCheck

/-- VSUP_RESET (R489): below 5.6 V for 10 µs the channel is held in reset. -/
def execVsupReset (ch : Chan) (s : State) : Out :=
  .next (s.on ch fun c => if c.pwr.up || c.pwr.off then c else c.unpowered false 0).railCheck

/-- The BIST of step 4 ends (R490, R139): passed in a planned absence it sets STPASS; the comparator sweep follows. A
failure raises BIST_FAIL and the channel stays in BRING-UP.
DEDUCED, unsafe: log entry 71. -/
def Channel.bistDone (c : Channel) (pass : Bool) : Channel :=
  if c.rd PWR_BOOT_STEP ≠ 4 then c
  else if pass then
    (if c.rd STW_RSTCAUSE_CAUSE = 5 then c.wr HRD_NEXTSRC_STPASS 1 else c).startSweep
  else c.raise 7

/-- BIST_DONE (R490). -/
def execBistDone (ch : Chan) (pass : Bool) (s : State) : Out := .next (s.onLive ch fun c => c.bistDone pass)

/-- A write of PWR_REQ.REQ (R496, R498): it counts from the next round start; a channel outside the herd is refused. -/
def Channel.p1Request (c : Channel) (req : Nat) : Channel :=
  if c.voting then { c with pwr := { c.pwr with p1Req := req } } else c.wr PWR_REQ_REFUSED 1

/-- P1_ENTER_REQUEST (R496). -/
def execP1EnterRequest (ch : Chan) (s : State) : Out := .next (s.onLive ch fun c => c.p1Request 1)

/-- P1_LEAVE_REQUEST (R498). -/
def execP1LeaveRequest (ch : Chan) (s : State) : Out :=
  .next (s.onLive ch fun c => if c.voting then { c with pwr := { c.pwr with p1Req := 2 } } else c)

/-- KEY_FILTERED (R499): PWR_STAT.KEYL follows the filtered input. -/
def execKeyFiltered (ch : Chan) (on : Bool) (s : State) : Out := .next (s.onLive ch fun c => c.flag PWR_STAT_KEYL on)

/-- AWAKE_TIME_END (R499): AWAKET has passed since the wake. -/
def execAwakeTimeEnd (ch : Chan) (s : State) : Out :=
  .next (s.onLive ch fun c => { c with pwr := { c.pwr with awake := true } })

/-- A region enters P2 (R500): every block but those that R494 keeps stops its clock; the solenoid drivers go off. -/
def Channel.enterP2 (c : Channel) : Channel :=
  if c.pwr.off then c
  else { c.wr PWR_STAT_RUNG 2 with pow := { c.pow with solOff := true }, pwr := { c.pwr with p1Req := 0 } }

/-- The herd stands in PARK on the rungs above P2. -/
def State.parked (s : State) : Bool :=
  [Chan.A, Chan.B, Chan.C].any fun ch => (s.chan ch).live && (s.chan ch).voting && (s.chan ch).hrd.cur.mode == 7

/-- PARK_HOLD_END (R500): HOLDT ends and every region enters P2; both copies take OPTIME (R430). -/
def execParkHoldEnd (s : State) : Out :=
  .next (
    if s.parked then
      let s := ((s.on .A Channel.enterP2).on .B Channel.enterP2).on .C Channel.enterP2
      s.onMss fun m =>
        if m.on then { m with rung := 2 }.onSup fun x => { x with optA := x.optime, optB := x.optime } else m
    else s)

/-- LADDER.DEEP as the region's power-state controller knows it (R501, R506).
DEDUCED, unsafe: log entry 72. -/
def Channel.deep (c : Channel) : Nat :=
  if c.pwr.off then ((recsOf c.fol.recs 0x0D00).head?.map fun r => bitsOf (r.w 0) 16 3).getD 5
  else bitsOf (c.rd (PWR_LDR_VALUE 1)) 16 3

/-- A dwell ends (R501): one rung down, not below DEEP, and not below P3 while a channel reports the MSS lost. From P4 on
the digital die is unpowered.
DEDUCED, unsafe: log entry 72. -/
def State.descend (s : State) (c : Channel) : Channel :=
  let r := c.rung
  if r < 2 ∨ 5 ≤ r ∨ c.deep ≤ r ∨ (3 ≤ r ∧ s.mssLost = true) then c
  else if r = 2 then (if c.pwr.off then c else c.wr PWR_STAT_RUNG 3)
  else c.unpowered c.pwr.up (r + 1)

/-- The management region descends alike. -/
def State.descendMss (s : State) : Nat :=
  let r := s.mss.rung
  let deep := ((recsOf s.mss.activeRecs 0x0D00).head?.map fun r => bitsOf (r.w 0) 16 3).getD 5
  if r < 2 ∨ 5 ≤ r ∨ deep ≤ r ∨ (3 ≤ r ∧ s.mssLost = true) then r else r + 1

/-- RUNG_DWELL_END (R501): regions 0 to 2 are channels A to C, 3 the management region. -/
def execRungDwellEnd (region : Fin 4) (s : State) : Out :=
  .next (
    match Chan.ofNum (region.val + 1) with
    | some ch => (s.on ch fun c => s.descend c).offCheck
    | none => s.onMss fun m => if m.on then { m with rung := s.descendMss } else m)

/-! Wakes (R502 to R505). -/

/-- The Tether node and the network-time clock restart as after their block resets (R495); BLOCK_RESET_RELEASE ends them. -/
def Channel.restartNet (c : Channel) : Channel := (c.blockReset blkTTE).blockReset blkNTC

/-- A channel is woken from its rung (R495, R499, R502): from P2 and P3 it keeps its Folio, seal and herd state, and the
herd takes the rung left (R99); from P4 and P5, or without its supply since, it starts at step 1.
DEDUCED, unsafe: log entry 72. -/
def Channel.wakeUp (c : Channel) (kind index : Nat) : Channel :=
  let show_ := fun (c : Channel) => (c.wr PWR_STAT_WKIND kind).wr PWR_STAT_WIDX index
  let r := c.rung
  if r < 2 then c
  else if c.pwr.off then show_ c.exitDeep
  else
    let c := ((show_ c).wr PWR_STAT_RUNG 0).sat PWR_CNT_WAKES
    { c.restartNet with pwr := { c.pwr with awake := false }, hrd := { c.hrd with wake := r } }

/-- A key-on during HOLDT is a wake from P2 (R502).
DEDUCED, unsafe: log entry 72. -/
def Channel.wakeHold (c : Channel) (kind index : Nat) : Channel :=
  if c.live && c.voting && c.hrd.cur.mode == 7 then
    let c := ((c.wr PWR_STAT_WKIND kind).wr PWR_STAT_WIDX index).sat PWR_CNT_WAKES
    { c with pwr := { c.pwr with awake := false }, hrd := { c.hrd with wake := 2 } }
  else c

/-- The rung of a region. -/
def State.rungOf (s : State) (region : Nat) : Nat :=
  match Chan.ofNum (region + 1) with
  | some ch => (s.chan ch).rung
  | none => s.mss.rung

/-- The records that declare a region's wake sources. -/
def State.wakeRecs (s : State) (region : Nat) : List FolRec :=
  match Chan.ofNum (region + 1) with
  | some ch => (s.chan ch).fol.recs
  | none => s.mss.activeRecs

/-- The source is declared for the region and wakes from its rung (R504, R505); without a record of kind 1 every key is a
source with RUNG 5. A channel senses only while it is supplied, the management region only while the MSS is.
DEDUCED, unsafe: log entry 72. -/
def State.wakes (s : State) (w : WakeEvt) : Bool :=
  let l := recsOf (s.wakeRecs w.region.val) 0x0D01
  let r := s.rungOf w.region.val
  let powered := match Chan.ofNum (w.region.val + 1) with
    | some ch => (s.chan ch).pwr.up && decide (r < 4 ∨ s.mss.on = true)
    | none => s.mss.on
  powered && (
    match l[w.index]? with
    | some q =>
      bitsOf (q.w 1) 0 4 == w.kind && decide (r ≤ bitsOf (q.w 1) 4 3) && (q.w 0).testBit w.region.val
    | none => false)
  || powered && w.kind == 1 && w.index == 0 && decide (w.region.val < 3) &&
      !(l.any fun q => bitsOf (q.w 1) 0 4 == 1)

/-- A wake reaches every region (R503); the MSS forms PWR_WAKE with the rung that the sensing region leaves.
DEDUCED, unsafe: log entry 72. -/
def State.wake (s : State) (w : WakeEvt) : State :=
  let r := s.rungOf w.region.val
  if !s.wakes w then s
  else if 2 ≤ r then
    let f := fun (c : Channel) => c.wakeUp w.kind w.index
    (((s.on .A f).on .B f).on .C f).onMss fun m =>
      if m.on then { m with rung := 0 }.record 0x20C 0 (w.kind + r * 256 + w.index * 65536) else m
  else if w.kind = 1 ∧ s.parked = true then
    let f := fun (c : Channel) => c.wakeHold w.kind w.index
    (((s.on .A f).on .B f).on .C f).onMss fun m =>
      if m.on then m.record 0x20C 0 (w.kind + 2 * 256 + w.index * 65536) else m
  else s

/-- WAKE (R503). -/
def execWake (w : WakeEvt) (s : State) : Out := .next (s.wake w)

/-- MP_WAKE (R29, R30, R457): honoured on P2 to P5, ignored otherwise; a held MP asks for nothing, and no request passes a
management link that is down.
DEDUCED, unsafe: log entry 72. -/
def execMpWake (ch : Chan) (s : State) : Out :=
  .next (
    if s.mss.on && s.mss.mp && !s.mss.held && (s.mss.port ch).up && (s.chan ch).pwr.up then
      s.on ch fun c => c.wakeUp (c.rd PWR_STAT_WKIND) (c.rd PWR_STAT_WIDX)
    else s)

end Sys2Proof.Machine
end

