-- ==== Sys2Proof/Machine/Access.lean ====
section
/-! DEFINITION. Register accesses: what a read gives and what a write does, by the access type of each field and by the
meaning of the registers that act (R10 to R13 of 00_scope.md, R36 to R38 of 01_architecture.md, R69 of 02_folio.md, R177 of
06_field_control.md, R350 of 12_tether_network.md, R459 and R460 of 16_management_and_log.md, R487 and R488 of
17_security_and_update.md). -/

namespace Sys2Proof.Machine

/-- Bits of a word that a read shows: every field but the write-only ones (R11, R12). -/
def RegRow.shown (r : RegRow) : Nat :=
  (r.flds.filter fun f => f.2.2 != .wo).foldl (fun a f => a ||| ((2 ^ f.2.1 - 1) * 2 ^ f.1)) 0

/-- The debug policy in force (R45, R512): that of the Folio, else the closed one. -/
def Channel.debugPolicy (c : Channel) : Nat := ((firstOf c.fol.recs 0x0E00).map fun r => r.w 0).getD 0xF

/-- The channel's debug port is open (R511, R513). -/
def Channel.portOpen (c : Channel) : Bool :=
  match c.otp.lc with
  | 1 => true
  | 2 => !c.is STW_SEAL_SEAL || c.debugPolicy.testBit c.me.idx
  | 3 => c.dbg.token
  | 4 => true
  | _ => false

/-- System-bus writes are allowed now (R519). -/
def Channel.busWrites (c : Channel) : Bool :=
  c.portOpen && !c.voting && (c.otp.lc != 3 || c.debugPolicy.testBit 16)

/-- STW_DBG as it reads (R522): OPEN, TOKEN and SBWEN show the port's state.
DEDUCED, unsafe: log entry 75. -/
def Channel.dbgWord (c : Channel) : Word :=
  c.regs.word STW_DBG |||
    BitVec.ofNat 32 ((if c.portOpen then 1 else 0) + (if c.dbg.token then 2 else 0) + if c.busWrites then 4 else 0)

/-- The port of a Tether buffer address and the offset in its window (R350). -/
def bufPort (a : Nat) : Nat × Nat := ((a - 0x400A8000) / 0x400, (a - 0x400A8000) % 0x400)

/-- A word of the buffer that an access port maps (R350); 0 beyond LEN. -/
def Channel.bufWord (c : Channel) (a : Nat) : Word :=
  let (k, o) := bufPort a
  let id := c.rd (TTE_PSEL_CTX k)
  let bs := if c.isTx id then Memory.readBytes (kget [] c.tte.fill id) 0 (kget 0 c.tte.fillLen id) else c.curBuf id
  BitVec.ofNat 32 (leNat (slice bs o 4))

/-- A word of a channel's block windows as it reads now; `none` where no register lies (R10). A block's read changes
nothing here: the reads that act have commands of their own.
DEDUCED, unsafe: log entry 13. -/
def Channel.readReg (c : Channel) (a : Nat) : Option Word :=
  if a % 4 ≠ 0 then none
  else if 0x400A8000 ≤ a ∧ a < 0x400A9000 then some (c.bufWord a)
  else if 0x400C0800 ≤ a ∧ a < 0x400C0F00 then
    some (BitVec.ofNat 32 (leNat (slice ((c.can.rxq.head?.map RxEntry.data).getD []) (a - 0x400C0800) 4)))
  else if 0x400C1000 ≤ a ∧ a < 0x400C1700 then some (c.can.txBuf.readWord (a - 0x400C1000))
  else if a = STW_DBG then some c.dbgWord
  else if a = NTC_TIMEL then some (BitVec.ofNat 32 c.ntNs)
  else (findRow channelRows a).map fun r => c.regs.word a &&& BitVec.ofNat 32 r.shown

/-- The value that a write leaves in a register, by the access type of each field (R11); LCK fields as `lck` says. -/
def writeFlds (lck : Bool) (old v : Nat) : List (Nat × Nat × Acc) → Nat
  | [] => 0
  | (lsb, w, acc) :: r =>
    let o := old / 2 ^ lsb % 2 ^ w
    let n := v / 2 ^ lsb % 2 ^ w
    let x := match acc with
      | .rw => n
      | .w1c => o &&& (2 ^ w - 1 - n)
      | .w1s => o ||| n
      | .wo => 0
      | .lck => if lck then o else n
      | .ro => o
      | .stk => o
    x * 2 ^ lsb + writeFlds lck old v r

/-- A write would change an LCK field (R69). -/
def changesLck (old v : Nat) (flds : List (Nat × Nat × Acc)) : Bool :=
  flds.any fun f => f.2.2 == .lck && old / 2 ^ f.1 % 2 ^ f.2.1 != v / 2 ^ f.1 % 2 ^ f.2.1

/-- The write of a register without an action of its own (R11, R69): after the seal LCK fields keep their value, and a
write that would change one is counted and flagged. -/
def Channel.plainWrite (c : Channel) (a : Nat) (r : RegRow) (v : Word) : Channel :=
  let old := (c.regs.word a).toNat
  let sealed := c.is STW_SEAL_SEAL
  let c' := { c.wrWord a (BitVec.ofNat 32 (writeFlds sealed old v.toNat r.flds)) with bus := .ok 0 }
  if sealed && changesLck old v.toNat r.flds then c'.sealViolation a else c'

/-- Blocks whose enable may change (R428). -/
def blkenFree : Nat := (List.range 17).foldl (fun a b => if resettable b then a + 2 ^ b else a) 0

/-- STW_BLKEN (R428): bits of blocks that are not resettable read 1, bit 13 takes no 1. -/
def Channel.writeBlken (c : Channel) (a : Nat) (r : RegRow) (v : Word) : Channel :=
  let old := (c.regs.word a).toNat
  c.plainWrite a r (BitVec.ofNat 32 ((v.toNat &&& blkenFree) + (old &&& (0x1FFFF - blkenFree - 0x2000))))

/-- A write to a buffer window (R350, R404): a receive buffer, or FILL with COMMIT set, ends in a bus error. -/
def Channel.writeBuf (c : Channel) (a : Nat) (v : Word) : Channel :=
  let (k, o) := bufPort a
  let id := c.rd (TTE_PSEL_CTX k)
  if c.isTx id && !kget false c.tte.commit id then
    { c.tteUp (fun t => { t with fill := kset [] t.fill id (Memory.writeWord (kget [] t.fill id) o v) }) with bus := .ok 0 }
  else { c with bus := .error }

/-- The requests in STW_MODE.REQ (R109, R111). -/
def modeReq (ch : Chan) (req : Nat) (s : State) : Out :=
  match req with
  | 2 => execModeReqLeaveService ch s
  | 5 => execModeReqSafeStop ch s
  | 6 => execModeReqService ch s
  | 7 => execModeReqPark ch s
  | _ => .next s

/-- The requests in HRD_REQ (R137, R140, R151). -/
def herdReq (ch : Chan) (v : Nat) (s : State) : Out :=
  let s' : State := s.onLive ch fun c => if v.testBit 3 && c.voting && c.health != 0 then c.hrdUp fun x => { x with repair := true }
    else if v.testBit 3 then c.wr HRD_REQ_REFUSED 1 else c
  match v % 4 with
  | 1 => execHreqUpdateRotation ch s'
  | 2 => execHreqProofTest ch s'
  | 3 => execHreqAbort ch s'
  | _ => .next s'

/-- The requests in PWR_REQ (R496, R498). -/
def powerReq (ch : Chan) (v : Nat) (s : State) : Out :=
  match v % 4 with
  | 1 => execP1EnterRequest ch s
  | 2 => execP1LeaveRequest ch s
  | _ => .next s

/-- The state after a command. -/
def Out.state (s : State) : Out → State
  | .next t => t
  | _ => s

/-- A write to a register of the block windows (R10, R11): registers with an action take it, the others the write of their
fields. What a command of its own takes beside the value written is free here.
DEDUCED, safe: log entry 12; DEDUCED, unsafe: log entries 13, 24. -/
def State.blockWrite (s : State) (ch : Chan) (a : Nat) (v : Word) : State :=
  let c := s.chan ch
  let bad := s.setChan ch { c with bus := .error }
  let go (o : Out) : State := Out.state s o
  if 0x400A8000 ≤ a ∧ a < 0x400A9000 then s.setChan ch (c.writeBuf a v)
  else if 0x400C1000 ≤ a ∧ a < 0x400C1700 then
    s.setChan ch { (c.canUp fun x => { x with txBuf := x.txBuf.writeWord (a - 0x400C1000) v }) with bus := .ok 0 }
  else match findRow channelRows a with
    | none => bad
    | some r =>
      let p := s.setChan ch (c.plainWrite a r v)
      let ok := s.setChan ch { c with bus := .ok 0 }
      if a = FOL_CTRL then ok.setChan ch (ok.folCtrl (ok.chan ch) v)
      else if a = STW_SEAL then p.on ch fun c => (c.wr FOL_STAT_SEALED (c.rd STW_SEAL_SEAL)).errRefresh
      else if a = STW_MODE then Out.state p (modeReq ch (v.toNat / 2 ^ 18 % 8) p)
      else if a = STW_BLKEN then s.setChan ch (c.writeBlken a r v)
      else if a = STW_BLKRST then go (execStwBlkrstWrite ch v ok)
      else if a = STW_CHRST then go (execStwChrstWrite ch v ok)
      else if a = STW_KICK then ok.on ch fun c => c.kick (v.toNat % 4)
      else if a = FCC_EPIN then p.on ch Channel.errRefresh
      else if a = FCC_INJ then ok.on ch fun c => (c.draw 65536).2.injStart v (c.draw 65536).1
      else if a = HRD_REQ then Out.state p (herdReq ch v.toNat p)
      else if a = HRD_DONE then
        let (k, c) := (ok.chan ch).draw (2 ^ 32)
        go (execHrdDone ch ⟨v.toNat % 256, Nat.mod_lt _ (by decide)⟩ (BitVec.ofNat 32 k) (ok.setChan ch c))
      else if a = CMP_INJ then go (execCmpInjStart ch v .expected ok)
      else if a = CMP_HART1 then go (execHart1Release ch v ok)
      else if a = FCE_SETPT 0 then go (execFceSetptWrite ch 0 v ok)
      else if a = FCE_SETPT 1 then go (execFceSetptWrite ch 1 v ok)
      else if 0x40050400 ≤ a ∧ a < 0x40050420 ∧ a % 8 = 0 then
        go (execFceSolnSetWrite ch ⟨(a - 0x40050400) / 8 % 4, Nat.mod_lt _ (by decide)⟩ v ok)
      else if a = GDR_GDENO then if v.getLsbD 0 then go (execGdenoPulse ch ok) else ok
      else if 0x40080000 ≤ a ∧ a < 0x40080400 ∧ a % 0x40 = 0x3C ∧ 0x40080100 ≤ a then
        go (execEncCmpvWrite ch ⟨(a - 0x40080100) / 0x40 % 6, Nat.mod_lt _ (by decide)⟩ v ok)
      else if 0x400A0080 ≤ a ∧ a < 0x400A0090 then
        go (execPortSelect ch ⟨(a - 0x400A0080) / 4 % 4, Nat.mod_lt _ (by decide)⟩ v s)
      else if 0x400A0090 ≤ a ∧ a < 0x400A00A0 then
        go (execTxCommit ch ⟨(a - 0x400A0090) / 4 % 4, Nat.mod_lt _ (by decide)⟩ v s)
      else if a = CAN_RXCTL then if v.getLsbD 0 then go (execCanRxPop ch s) else ok
      else if a = CAN_TXCTL then go (execCanTxGo ch v s)
      else if a = PWR_REQ then Out.state p (powerReq ch v.toNat p)
      else p

/-- The key registers of the mailbox (R487): a command, the nonce, or the part length of this channel. -/
def State.keyWrite (s : State) (ch : Chan) (a : Nat) (v : Word) : State :=
  let go (o : Out) : State := Out.state s o
  if a = KEY_CMD then
    match v.toNat % 16 with
    | 1 => go (execKeyChallenge ch s)
    | 2 => go (execKeySubmitToken ch s)
    | 3 => go (execKeyAttest ch s)
    | 4 => go (execKeyFuseRootSlot ch s)
    | 5 => go (execKeyAppendPart ch s)
    | _ => s
  else if a = KEY_PART then s.onMss fun m => m.onPort ch fun p => p.wr KEY_PART_LEN v.toNat
  else if KEY_NONCE 0 ≤ a ∧ a < KEY_NONCE 8 then
    s.onMss fun m => m.onPort ch fun p => { p with regs := p.regs.setWord a v }
  else s

/-- A channel may write the update registers: it owns the session, or none does (R488).
DEDUCED, unsafe: log entry 69. -/
def Mss.updFree (m : Mss) (ch : Chan) : Bool := m.rd UPD_STAT_OWNER == 0 || m.owns ch

/-- The update registers of the mailbox (R488). -/
def State.updWrite (s : State) (ch : Chan) (a : Nat) (v : Word) : State :=
  let go (o : Out) : State := Out.state s o
  if a = UPD_CMD then
    match v.toNat % 8 with
    | 1 => go (execUpdOpen ch s)
    | 2 => go (execUpdBlock ch (v.toNat / 8 % 2 ^ 13) s)
    | 3 => go (execUpdVerify ch s)
    | 4 => go (execUpdArmRotation ch s)
    | 5 => go (execUpdArmPowerCycle ch s)
    | 6 => go (execUpdDiscard ch s)
    | _ => s
  else if a = UPD_LEN ∨ a = UPD_OFS then
    s.onMss fun m => if m.updFree ch then { m with regs := m.regs.setWord a v } else m.updResult 0 2
  else s

/-- A write to the mailbox (R31, R459): posted. What goes over a link that is down is lost; an offset without a register
ends in a bus error.
DEDUCED, safe: log entry 12; DEDUCED, unsafe: log entry 15. -/
def State.mailboxWrite (s : State) (ch : Chan) (off : Nat) (v : Word) : State :=
  let ok := s.on ch fun c => { c with bus := .ok 0 }
  let bad := s.on ch fun c => { c with bus := .error }
  let up := s.mlinkUp (s.chan ch) && s.mss.on
  let a := 0x70000000 + off
  if off % 4 ≠ 0 then bad
  else if off < 0x1C then ok.on ch fun c => c.wrWord a v
  else if off = 0x1C then Out.state ok (execMailboxMessage ch v ok)
  else if a = MBX_RDSTART then
    if up then ok.onMss fun m => m.onPort ch fun p => { p with regs := p.regs.setWord a v } else ok
  else if a = MBX_RDCTL then Out.state ok (execLogReadRequest ch v ok)
  else if (findRow mailboxRows a).isSome then ok
  else if 0x8000 ≤ off ∧ off < 0x8800 ∧ (findRow rowsKey (0x48020000 + (off - 0x8000))).isSome then
    if up then ok.keyWrite ch (0x48020000 + (off - 0x8000)) v else ok
  else if 0x8800 ≤ off ∧ off < 0x9000 ∧ (findRow rowsUpd (0x48030000 + (off - 0x8800))).isSome then
    if up then ok.updWrite ch (0x48030000 + (off - 0x8800)) v else ok
  else if 0x9000 ≤ off ∧ off < 0xA000 then
    if !up then ok
    else ok.onMss fun m =>
      if m.updFree ch then m.onUpd fun u => { u with buffer := u.buffer.writeWord (off - 0x9000) v } else m.updResult 0 2
  else if 0xA000 ≤ off ∧ off < 0xC000 then
    if up then ok.onMss fun m => m.onPort ch fun p => { p with keyBuf := p.keyBuf.writeWord (off - 0xA000) v } else ok
  else bad

/-- What a mailbox read answers (R452, R459, R487, R488): a value, no register there, or no answer yet.
DEDUCED, unsafe: log entry 15. -/
def State.mailboxAnswer (s : State) (ch : Chan) (off : Nat) : Bus :=
  let a := 0x70000000 + off
  let up := s.mlinkUp (s.chan ch) && s.mss.on
  let m := s.mss
  let p := m.port ch
  let key := 0x48020000 + (off - 0x8000)
  let upd := 0x48030000 + (off - 0x8800)
  let show_ (r : RegMap) (rows : List RegRow) (x : Nat) : Bus :=
    match findRow rows x with
    | some row => .ok (r.word x &&& BitVec.ofNat 32 row.shown)
    | none => .error
  let served (b : Bus) : Bus := if up && m.mpRuns then b else .waiting
  if off % 4 ≠ 0 then .error
  else if off < 0x40 then show_ (s.chan ch).regs mailboxRows a
  else if off < 0x100 then if (findRow mailboxRows a).isNone then .error else if up then show_ m.shadow mailboxRows a else .waiting
  else if off < 0x8000 then if (findRow mailboxRows a).isNone then .error else if up then show_ p.regs mailboxRows a else .waiting
  else if off < 0x8800 then
    match findRow rowsKey key with
    | none => .error
    | some _ => served (if 0x48020010 ≤ key then show_ p.regs rowsKey key else show_ m.regs rowsKey key)
  else if off < 0x9000 then if (findRow rowsUpd upd).isNone then .error else served (show_ m.regs rowsUpd upd)
  else if off < 0xA000 then served (.ok (m.upd.buffer.readWord (off - 0x9000)))
  else if off < 0xC000 then served (.ok (p.keyBuf.readWord (off - 0xA000)))
  else .error

/-- A store by the MP in its own map (R10, R53, R460, R487, R488): its SRAM takes any size; a register only a word, and
anything else ends in a bus error. -/
def State.mpWrite (s : State) (a : Nat) (v : Word) (z : AccSize) : State :=
  let bad : State := s.onMss fun m => { m with bus := .error }
  if !s.mss.mpRuns then s
  else if a + AccSize.bytes z ≤ 0x80000 then
    s.onMss fun m => { m with sram := m.sram.writeBytes a (leBytes (AccSize.bytes z) v.toNat), bus := .ok 0 }
  else if z ≠ .word then bad
  else match findRow (mpRows ++ keyRows) a with
    | none => bad
    | some r =>
      let s : State := s.onMss fun m => { m with bus := .ok 0 }
      let put : State := s.onMss fun m =>
        { m with regs := m.regs.setWord a (BitVec.ofNat 32 (writeFlds false (m.regs.word a).toNat v.toNat r.flds)) }
      if a = MSS_HB then if v.getLsbD 0 then Out.state s (execMssHbKick s) else s
      else if a = MSS_CALIN then Out.state s (execCalendarUpdate v s)
      else if a = LOG_GO then if v.getLsbD 0 then Out.state s (execLogGo s) else s
      else if LOG_BODY 0 ≤ a ∧ a < LOG_GO ∨ LOG_STAMP0 ≤ a ∧ a ≤ LOG_STAMP2 then
        put.onMss fun m => m.onLog fun l => { l with body := true }
      else put

/-- The memory of the pair's map at an address (R36). -/
def pairMem (a n : Nat) : Option MemId := [MemId.itcm, .dtcm, .sram].find? fun m => inMem m a n

/-- A store that has reached a home's local replica is sent to its other replicas (R136). -/
def Channel.homeSend (c : Channel) (m : MemId) (a : Nat) : Channel :=
  match m, c.bus with
  | .sram, .ok _ =>
    match (homesOf c.fol.recs).find? fun o =>
        c.addrOf false o.id != 0 && decide (c.addrOf false o.id ≤ a ∧ a < c.addrOf false o.id + o.size) with
    | some o => c.hrdUp fun x =>
        { x with homeOut := x.homeOut ++ [(o.id, (a - c.addrOf false o.id) / 4 * 4, c.sram.readWord (a / 4 * 4))] }
    | none => c
  | _, _ => c

/-- A store of the pair into a memory (R36, R66): the retained copy takes no write after the seal. -/
def Channel.store (c : Channel) (m : MemId) (a : Nat) (z : AccSize) (v : Word) (ecc : Ecc) : Channel :=
  if m = .sram ∧ c.is STW_SEAL_SEAL = true ∧ 0x20200000 - c.fol.retained < a + AccSize.bytes z ∧ a < 0x20200000 then
    { c with bus := .error }
  else (c.memAccess m a (.store z v) ecc).homeSend m a

/-- Where the agents' maps lead among the block windows (R36, R177): the pair's own address, or none. FCE0 and FCE1 see
their windows, also at the coprocessor's base; NETE sees TTE and NTC.
DEDUCED, unsafe: log entries 13, 14. -/
def agentAddr (ag : Agent) (a : Nat) : Option Nat :=
  let own (b : Nat) : Option Nat :=
    if 0x10000000 ≤ a ∧ a < 0x10010000 then some (a - 0x10000000 + b)
    else if b ≤ a ∧ a < b + 0x10000 then some a else none
  match ag with
  | .pair => some a
  | .fce0 => own 0x40040000
  | .fce1 => own 0x40050000
  | .nete => if 0x400A0000 ≤ a ∧ a < 0x400C0000 then some a else none
  | .mp => none

/-- The windows that an engine may read but not write (R177): ENC and XLK, of FCE0 and FCE1. -/
def agentReadOnly (ag : Agent) (a : Nat) : Bool :=
  (ag == .fce0 || ag == .fce1) && (decide (0x40080000 ≤ a ∧ a < 0x40090000) || decide (0x40060000 ≤ a ∧ a < 0x40070000))

/-- An engine's own TCM, at 0 of its map (R36, R177). -/
def agentTcm : Agent → Option MemId
  | .fce0 => some .fce0
  | .fce1 => some .fce1
  | .nete => some .nete
  | _ => none

/-- One octet of the frame buffer, as NETE's map shows it from 0x2000_0000 (R350), by offset.
DESIGN CHOICE, safe: log entry 79. -/
def Channel.fbufRead (c : Channel) (o : Nat) : Byte :=
  let (id, k, w) := Config.frameBufWord (o / 4)
  if id = 0 ∨ 127 < id then c.tte.spare.read o
  else if k = 0 then Memory.read (kget [] c.tte.fill id) (w + o % 4)
  else Memory.read (kget [] c.tte.whole id) (w + o % 4)

/-- NETE writes one octet of the frame buffer (R350).
DESIGN CHOICE, safe: log entry 79. -/
def Channel.fbufWrite (c : Channel) (o : Nat) (v : Byte) : Channel :=
  let (id, k, w) := Config.frameBufWord (o / 4)
  c.tteUp fun t =>
    if id = 0 ∨ 127 < id then { t with spare := t.spare.write o v }
    else if k = 0 then { t with fill := kset [] t.fill id (Memory.write (kget [] t.fill id) (w + o % 4) v) }
    else { t with
      cur := kset [] t.cur id ((kget [] t.cur id).set (w + o % 4) v),
      whole := kset [] t.whole id (Memory.write (kget [] t.whole id) (w + o % 4) v) }

/-- NETE stores octets into the frame buffer, from an offset upwards. -/
def Channel.fbufStore (c : Channel) (o : Nat) : List Byte → Channel
  | [] => c
  | b :: bs => (c.fbufWrite o b).fbufStore (o + 1) bs

/-- What a read by an agent of the channel's digital die answers (R10, R36, R177): the table of commands has no row for a
read of a block window, so this operation stands beside the commands.
DEDUCED, unsafe: log entry 13. -/
def Channel.agentRead (c : Channel) (ag : Agent) (a : Nat) (z : AccSize) : Bus :=
  let mem := match ag with
    | .pair => [MemId.itcm, .dtcm, .sram].find? fun m => inMem m a (AccSize.bytes z)
    | _ => (agentTcm ag).filter fun m => inMem m a (AccSize.bytes z)
  match mem with
  | some m => .ok (BitVec.ofNat 32 (leNat ((c.mem m).readBytes a (AccSize.bytes z))))
  | none =>
    if ag = .nete ∧ 0x20000000 ≤ a ∧ a + AccSize.bytes z ≤ 0x20040000 then
      .ok (BitVec.ofNat 32 (leNat ((List.range (AccSize.bytes z)).map fun i => c.fbufRead (a - 0x20000000 + i))))
    else if z ≠ .word then .error
    else match (if agentReadOnly ag a then some a else agentAddr ag a).bind c.readReg with
      | some w => .ok w
      | none => .error

/-- A write of the pair's map (R10, R36, R37).
DEDUCED, safe: log entry 12. -/
def State.pairWrite (s : State) (ch : Chan) (a : Nat) (v : Word) (z : AccSize) : State :=
  match pairMem a (AccSize.bytes z) with
  | some m => s.on ch fun c => c.store m a z v .clean
  | none =>
    if z ≠ .word ∨ a % 4 ≠ 0 then s.on ch fun c => { c with bus := .error }
    else if 0x70000000 ≤ a ∧ a < 0x70010000 then s.mailboxWrite ch (a - 0x70000000) v
    else s.blockWrite ch a v

/-- A write of an engine's map (R10, R36, R177, R350): its own TCM, NETE's view of the frame buffer, its windows; an
access outside them ends in a bus error; a write to a register of a read-only window changes nothing. -/
def State.engineWrite (s : State) (ch : Chan) (ag : Agent) (a : Nat) (v : Word) (z : AccSize) : State :=
  let n := AccSize.bytes z
  match (agentTcm ag).filter fun m => inMem m a n with
  | some m => s.on ch fun c => c.memAccess m a (.store z v) .clean
  | none =>
    if ag = .nete ∧ 0x20000000 ≤ a ∧ a + n ≤ 0x20040000 then
      s.on ch fun c => { c.fbufStore (a - 0x20000000) (leBytes n v.toNat) with bus := .ok 0 }
    else if agentReadOnly ag a then s.on ch fun c => { c with bus := if z = .word ∧ (c.readReg a).isSome then .ok 0 else .error }
    else match agentAddr ag a with
      | some b =>
        if z = .word ∧ b % 4 = 0 then s.blockWrite ch b v else s.on ch fun c => { c with bus := .error }
      | none => s.on ch fun c => { c with bus := .error }

/-- REGISTER_WRITE (R10, R11). -/
def execRegisterWrite (ch : Chan) (ag : Agent) (addr : Nat) (v : Word) (size : AccSize) (s : State) : Out :=
  .next (
    if ag = .mp then s.mpWrite addr v size
    else if !(s.chan ch).live then s
    else if ag = .pair then s.pairWrite ch addr v size
    else s.engineWrite ch ag addr v size)

/-- CORE_MEMORY_ACCESS (R169, R66). -/
def execCoreMemoryAccess (ch : Chan) (mem : MemId) (addr : Nat) (op : MemOp) (ecc : Ecc) (s : State) : Out :=
  .next (s.onLive ch fun c =>
    match op with
    | .load z => c.memAccess mem addr (.load z) ecc
    | .store z v => c.store mem addr z v ecc)

end Sys2Proof.Machine
end

