-- ==== Sys2Proof/Machine/BlockRelease.lean ====
section
/-! DEFINITION. The release of a block reset: the state of R425 of 15_fault_collection.md. -/

namespace Sys2Proof.Machine

/-- Saturating counters of the resettable blocks, as (first address of the row, least significant bit): they survive a
block reset (R425).
DEDUCED, unsafe: log entry 59. -/
def satCounters : List (Nat × Nat) :=
  [(0x40040008, 0), (0x4004000C, 0), (0x40040014, 24), (0x40040014, 16),
   (0x40080130, 16), (0x40080134, 24), (0x40080134, 16), (0x40080134, 0),
   (0x40080428, 24), (0x40080428, 16), (0x40080428, 8), (0x40080428, 0),
   (0x400A0030, 16), (0x400A0030, 8), (0x400A0034, 16), (0x400A0034, 8),
   (0x400A0040, 24), (0x400A0040, 16), (0x400A0040, 8), (0x400A0040, 0),
   (0x400A0044, 16), (0x400A0044, 8), (0x400A0044, 0), (0x400A0050, 24), (0x400A0050, 16), (0x400A4034, 8),
   (0x400A4038, 24), (0x400A4038, 16), (0x400A4038, 8), (0x400A4038, 0),
   (0x400B0028, 24), (0x400B0028, 16), (0x400B0028, 8), (0x400B0028, 0),
   (0x400B0030, 16), (0x400B0030, 8), (0x400B0030, 0), (0x400B0108, 8),
   (0x400C0000, 8), (0x400C0004, 8), (0x400C000C, 24), (0x400C000C, 16), (0x400C000C, 8), (0x400C000C, 0),
   (0x400C0010, 0), (0x400C002C, 16)]

/-- Bits of a register that survive a block reset: LCK and STK fields and saturating counters.
DEDUCED, unsafe: log entry 59. -/
def keepMask (a : Nat) : Nat :=
  match findRow channelRows a with
  | none => 0
  | some r =>
    (r.flds.filter fun f => f.2.2 == .lck || f.2.2 == .stk || satCounters.contains (r.base, f.1)).foldl
      (fun m f => m ||| ((2 ^ f.2.1 - 1) * 2 ^ f.1)) 0

/-- Registers that the table keeps beside those: setpoints and offset calibration of the FCEs, the motion configuration of
NTC (NT runs on at its last INC; EPOCH counts on), the claims and the voice of CAN0.
DEDUCED, unsafe: log entry 59. -/
def keepWhole (a : Nat) : Bool :=
  [FCE_SETPT 0, FCE_SETPT 1, NTC_INC, NTC_EPOCH, CAN_CLAIM 0, CAN_CLAIM 1, TTE_DEVID 0, TTE_DEVID 1, FCE_REGEN 0,
    FCE_REGEN 1].contains a || (0x40050400 ≤ a && a < 0x40050420 && a % 8 == 0)

/-- One register after a block reset. -/
def Channel.afterReset (c : Channel) (a : Nat) : Channel :=
  if keepWhole a then c
  else
    let m := BitVec.ofNat 32 (keepMask a)
    c.wrWord a ((c.regs.word a &&& m) ||| ((resetRegs c.me).word a &&& ~~~m))

/-- The registers from `lo` to below `hi` after a block reset. -/
def Channel.resetWindow (c : Channel) (lo hi : Nat) : Channel :=
  let at_ := ((c.regs ++ resetRegs c.me).map Prod.fst).filter fun a => decide (lo ≤ a) && decide (a < hi)
  at_.foldl Channel.afterReset c

/-- FCE0 (R425, R209): loop state comes with the next echo; the own encoder is unaligned, and one declared faulty stays so
until a channel reset (R197). -/
def Channel.resetFce0 (c : Channel) : Channel :=
  let ofs := c.rd (FCE_STAT_OFSOK 0)
  let fawn := c.rd (FCE_STAT_FAWN10 0)
  let f : Fce0 := { noSet := c.f0.noSet, offU := c.f0.offU, offV := c.f0.offV, t0 := c.f0.t0, align := c.f0.align,
                    fawnStep := c.f0.fawnStep, encBad := c.f0.encBad }
  let c := { c.resetWindow 0x40040000 0x40050000 with f0 := f }
  ((c.wr (FCE_STAT_OFSOK 0) ofs).wr (FCE_STAT_FAWN10 0) fawn).kick 1

/-- What an FCE1 block reset leaves of a coil driver: whether it is lost (R77, R205). -/
def SolLoop.afterReset (x : SolLoop) : SolLoop := { lost := x.lost }

/-- FCE1 (R425, R236): cause bit 2 until new duties; a pump that was running restarts by R201; a lost coil stays lost. -/
def Channel.resetFce1 (c : Channel) : Channel :=
  let ofs := c.rd (FCE_STAT_OFSOK 1)
  let ran := c.rd FCE_PUMP_STATE != 0
  let faulty := c.rd FCE_PUMP_FAULTY
  let c := { c.resetWindow 0x40050000 0x40060000 with
    f1 := { offU := c.f1.offU, offV := c.f1.offV, sol0 := c.f1.sol0.afterReset, sol1 := c.f1.sol1.afterReset,
            sol2 := c.f1.sol2.afterReset, sol3 := c.f1.sol3.afterReset }, pow := { c.pow with solOff := true } }
  let c := (((c.wr (FCE_STAT_OFSOK 1) ofs).wr FCE_PUMP_FAULTY faulty).setCause .P 2 true).kick 2
  if ran && c.rd (FCE_SETPT_VALUE 1) != 0 then c.pumpAttempt 1 else c

/-- ENC (R425, R196, R289, R299, R300): counts and observers as after channel reset, CMPV from SPACING, the steering
encoder unaligned, UNC kept; the pass-through outputs follow again. -/
def Channel.resetEnc (c : Channel) : Channel :=
  let c := { c.resetWindow 0x40080000 0x40090000 with enc := { c.enc.restart with pins := c.enc.pins } }
  let c := [0, 1, 2, 3, 4, 5].foldl (fun c n =>
    if c.encOn n then (c.wr (ENC_CMPV_CMPV n) (c.rd (ENC_UCFG_VALUE n 5))).setBit ENC_STAT_STILL n true else c) c
  ((c.wr (FCE_STAT_ALIGNED 0) 0).wr (FCE_STAT_ALIGNBY 0) 0).passThrough

/-- SIN (R425, R323, R324): FAULT stays, every other declared pair is PENDING, filters and the test-pulse train restart. -/
def Channel.resetSin (c : Channel) : Channel :=
  let c := [0, 1, 2, 3, 4, 5].foldl (fun c p =>
    if c.rd (SIN_CFG_VALUE p 1) = 0 ∨ c.pairState p = 4 then c else c.setPair p 3) c
  let c := (c.wr SIN_LEVEL_TPA 1).wr SIN_LEVEL_TPB 1
  { c with sin := { c.sin with valid := 0, cand := 0, run := [], beforeA := 0, beforeB := 0, exclA := 0, exclB := 0 } }

/-- TTE (R425, R333, R359): every context NEVER, the ports down until R333, the node listens again; NETE restarts. -/
def Channel.resetTte (c : Channel) : Channel :=
  let ovf := c.rd TTE_STAT_ENUMOVF
  ((c.resetWindow 0x400A0000 0x400B0000).tteStart.wr TTE_STAT_ENUMOVF ovf).kick 3

/-- NTC (R425, R378, R380): NT runs on at its last INC; the node has left network time. -/
def Channel.resetNtc (c : Channel) : Channel :=
  let c := if c.is NTC_STAT_JOINED then c.ntLeave else c
  { c.resetWindow 0x400B0000 0x400C0000 with ntc := { nt := c.ntc.nt } }

/-- CAN0 (R425): queues and sessions dropped, error counters 0, the claims kept; it resumes after bus integration. -/
def Channel.resetCan (c : Channel) : Channel :=
  let voice := c.rd CAN_ISTAT_VOICE
  let restrict_ := c.rd CAN_ISTAT_RESTRICT
  let c := (c.resetWindow 0x400C0000 0x400C8000).wr CAN_ISTAT_VOICE voice
  { c.wr CAN_ISTAT_RESTRICT restrict_ with
    can := { names := c.can.names, on := c.can.on, hold0 := c.can.hold0, hold1 := c.can.hold1 } }

/-- A block leaves its reset in the state of R425.
DEDUCED, unsafe: log entry 59. -/
def Channel.blockRelease (c : Channel) (b : Nat) : Channel :=
  if b = blkGDR then c.gdrRelease
  else
    let c := c.setBit STW_BLKSTAT_BLK b false
    if b = blkFCE0 then c.resetFce0
    else if b = blkFCE1 then c.resetFce1
    else if b = blkENC then c.resetEnc
    else if b = blkSIN then c.resetSin
    else if b = blkTTE then c.resetTte
    else if b = blkNTC then c.resetNtc
    else if b = blkCAN0 then c.resetCan
    else c

/-- BLOCK_RESET_RELEASE (R425): 1 µs after the reset. -/
def execBlockResetRelease (ch : Chan) (blk : Fin 17) (s : State) : Out :=
  .next (s.onLive ch fun c => if c.bit STW_BLKSTAT_BLK blk then c.blockRelease blk else c)

end Sys2Proof.Machine
end

