-- ==== Sys2Proof/Machine/Links.lean ====
section
/-! DEFINITION. Cross-links, peer windows, mailbox reads and the requests of the MP (R24, R25, R29, R31, R36 to R38 of
01_architecture.md, R114 of 04_herd_placement.md). -/

namespace Sys2Proof.Machine

/-- The two channels that a cross-link joins (R22). -/
def linkEnds : Link → Chan × Chan
  | .AB => (.A, .B)
  | .BC => (.B, .C)
  | .CA => (.C, .A)

/-- The bit of a cross-link in LINKS (R113). -/
def linkIdx : Link → Nat
  | .AB => 0
  | .BC => 1
  | .CA => 2

/-- One end shows a link's state (R114, R151). -/
def Channel.setLink (c : Channel) (n : Nat) (up : Bool) : Channel :=
  let l := c.hrd.links
  let l' := if up then l ||| 2 ^ n else if l.testBit n then l - 2 ^ n else l
  (c.hrdUp fun x => { x with links := l' }).wr HRD_STAT_LINKS l'

/-- A peer-window read in progress ends in a bus error (R24, R25, R37). -/
def Channel.readFails (c : Channel) : Channel :=
  if c.xlk.rdReq.isSome then { c with bus := .error, xlk := { c.xlk with rdReq := none } } else c

/-- Class 4 transfers with a peer are abandoned and reported to the herd engine (R24, R25): a peer load from it has failed
(code 0x50 of R59).
DEDUCED, unsafe: log entry 17. -/
def Channel.abandonBulk (c : Channel) (peer : Chan) : Channel :=
  let c := c.hrdUp fun x => { x with abandoned := x.abandoned ||| 2 ^ peer.idx }
  if c.fol.cur = 3 ∧ c.fol.accepted = false ∧ c.fol.servedBy = peer.num then (c.rejectSrc 3 { code := 0x50 }).loadFails else c

/-- The end of a lost link (R25): the loss is reported; a read to that peer ends, class 4 transfers to it are abandoned.
DEDUCED, unsafe: log entry 17. -/
def Channel.linkLost (c : Channel) (n : Nat) (peer : Chan) : Channel :=
  if c.hrd.links.testBit n then
    let c := if c.xlk.rdReq.any fun r => r.1 == peer then c.readFails else c
    ((c.setLink n false).abandonBulk peer).raise 12
  else c

/-- CROSS_LINK_DOWN (R25). -/
def execCrossLinkDown (l : Link) (s : State) : Out :=
  let (x, y) := linkEnds l
  let n := linkIdx l
  let s := s.onLive x fun c => c.linkLost n y
  .next (s.onLive y fun c => c.linkLost n x)

/-- CROSS_LINK_UP (R114): both directions carry valid symbols again, so both ends transmit.
DEDUCED, unsafe: log entry 17. -/
def execCrossLinkUp (l : Link) (s : State) : Out :=
  let (x, y) := linkEnds l
  .next (
    if (s.chan x).live && (s.chan y).live then
      (s.on x fun c => c.setLink (linkIdx l) true).on y fun c => c.setLink (linkIdx l) true
    else s)

/-- CLASS3_RETRY_EXHAUSTED (R24). -/
def execClass3RetryExhausted (ch : Chan) (s : State) : Out := .next (s.onLive ch Channel.readFails)

/-- CLASS4_RETRY_EXHAUSTED (R24): reported as a link fault.
DEDUCED, unsafe: log entry 17. -/
def execClass4RetryExhausted (ch peer : Chan) (s : State) : Out :=
  .next (s.onLive ch fun c => if peer = ch then c else (c.abandonBulk peer).raise 12)

/-! Peer windows (R37, R38). -/

/-- The peer and its own address of a peer-window address. -/
def peerAddr (a : Nat) : Option (Chan × Nat) :=
  let o := a % 0x1000000
  let x := if o < 0x100000 then some (0x40000000 + o)
    else if 0x800000 ≤ o ∧ o < 0xA00000 then some (0x20000000 + (o - 0x800000)) else none
  match x, Chan.ofNum (a / 0x1000000 - 0x5F) with
  | some x, some p => if 0x60000000 ≤ a ∧ a < 0x63000000 ∧ a % 4 = 0 then some (p, x) else none
  | _, _ => none

/-- PEER_WINDOW_READ (R37): sent to the peer; the own window, an offset without a region or a link that is down ends in a
bus error at once (R25). A read of a register is of one word (R10, R38).
DESIGN CHOICE, safe: log entry 11. -/
def execPeerWindowRead (ch : Chan) (addr : SizedAddr) (s : State) : Out :=
  let c := s.chan ch
  if !c.live then .next s
  else if addr.size ≠ .word then .next (s.on ch fun c => { c with bus := .error })
  else match peerAddr addr.addr with
    | some (p, x) =>
      if p ≠ ch ∧ s.crossUp ch p = true then
        let s := s.on p fun c => { c with xlk := { c.xlk with rdRep := kset none c.xlk.rdRep ch.idx none } }
        .next (s.on ch fun c => { c with bus := .waiting, xlk := { c.xlk with rdReq := some (p, x) } })
      else .next (s.on ch fun c => { c with bus := .error })
    | none => .next (s.on ch fun c => { c with bus := .error })

/-- The word that a peer serves (R38): a register or a word of SRAM; nothing of the peer changes. -/
def Channel.serveWord (c : Channel) (a : Nat) : Option Word :=
  if inMem .sram a 4 then some (c.sram.readWord a) else c.readReg a

/-- PEER_WINDOW_READ_SERVED (R38): the value at this moment.
DESIGN CHOICE, safe: log entry 11. -/
def execPeerWindowReadServed (ch : Chan) (requester : Packet Chan) (s : State) : Out :=
  match (s.chan requester.val).xlk.rdReq with
  | some (p, a) =>
    .next (s.onLive ch fun c =>
      if !requester.crcOk then c.badCrc
      else if p = ch ∧ s.crossUp ch requester.val = true then
        { c with xlk := { c.xlk with rdRep := kset none c.xlk.rdRep requester.val.idx (some (c.serveWord a)) } }
      else c)
  | none => .next s

/-- PEER_READ_REPLY (R38).
DESIGN CHOICE, safe: log entry 11. -/
def execPeerReadReply (dst : Packet Chan) (s : State) : Out :=
  let ch := dst.val
  if !dst.crcOk then .next (s.onLive ch Channel.badCrc) else
  match (s.chan ch).xlk.rdReq with
  | some (p, _) =>
    match kget none (s.chan p).xlk.rdRep ch.idx with
    | some r =>
      let s := s.on p fun c => { c with xlk := { c.xlk with rdRep := kset none c.xlk.rdRep ch.idx none } }
      .next (s.onLive ch fun c => { c with
        bus := match r with
          | some w => .ok w
          | none => .error
        xlk := { c.xlk with rdReq := none } })
    | none => .next s
  | none => .next s

/-- PEER_READ_TIMEOUT (R37): 4 µs without a reply. -/
def execPeerReadTimeout (ch : Chan) (s : State) : Out := .next (s.onLive ch Channel.readFails)

/-! The mailbox (R31). -/

/-- MAILBOX_READ (R31).
DEDUCED, unsafe: log entry 15. -/
def execMailboxRead (ch : Chan) (off : SizedAddr) (s : State) : Out :=
  .next (s.onLive ch fun c => { c with bus := if off.size = .word then s.mailboxAnswer ch off.addr else .error })

/-- MAILBOX_READ_TIMEOUT (R31): 3 µs without a reply. -/
def execMailboxReadTimeout (ch : Chan) (s : State) : Out :=
  .next (s.onLive ch fun c => if c.bus = .waiting ∧ c.xlk.rdReq = none then { c with bus := .error } else c)

/-! Requests of the MP (R29). -/

/-- A request of the MP reaches the steward: the MP runs, the link is up, the channel is live. -/
def State.mpReaches (s : State) (ch : Chan) : Bool := s.mss.mpRuns && s.mlinkUp (s.chan ch) && (s.chan ch).live

/-- The steward's reply (R29): honoured or refused, with the words read. -/
def State.reply (s : State) (ch : Chan) (ok : Bool) (ws : List Word) : State :=
  s.onMss fun m => m.onPort ch fun p => { p with reply := some (ok, ws) }

/-- What a state read answers (R29): the steward's registers, the fault status, or the counters of the sources.
DESIGN CHOICE, unsafe: log entry 16. -/
def Channel.mpWords (c : Channel) : MpRead → List Word
  | .stewardState => [STW_ID, STW_MODE, STW_DEPTH, STW_SEAL, STW_BLKEN, STW_BLKSTAT, STW_RSTCAUSE, STW_REFUSE].map c.regs.word
  | .faultStatus =>
    ([FCC_STAT 0, FCC_STAT 1, FCC_ACT 0, FCC_ACT 1, FCC_SEV 0, FCC_SEV 1, FCC_SEVPRE 0, FCC_SEVPRE 1]).map c.regs.word
  | .counters => (List.range 64).map fun n => c.regs.word (FCC_CNT n)

/-- MP_STATE_READ (R29): always honoured.
DESIGN CHOICE, unsafe: log entry 16. -/
def execMpStateRead (ch : Chan) (what : MpRead) (s : State) : Out :=
  .next (if s.mpReaches ch then s.reply ch true ((s.chan ch).mpWords what) else s)

/-- MP_PLANNED_ABSENCE (R29): a request for an update (1) or a proof test (2) is passed to the herd engine, by which it is
granted or dropped; R29 lists no other.
DESIGN CHOICE, unsafe: log entry 16. -/
def execMpPlannedAbsence (ch : Chan) (hreq : Fin 4) (s : State) : Out :=
  .next (
    if s.mpReaches ch && (hreq == 1 || hreq == 2) then (s.on ch fun c => c.request hreq).reply ch true [] else s)

/-- A request that the steward honours only under a condition (R29). -/
def State.mpAsks (s : State) (ch : Chan) (ok : Bool) (f : Channel → Channel) : State :=
  if s.mpReaches ch then (s.on ch fun c => if ok then f c else c.refuse).reply ch ok [] else s

/-- The channel is in BRING-UP, or in a granted planned absence (R29), which lasts until it votes again (R137, R138).
DESIGN CHOICE, unsafe: log entry 16. -/
def State.mayLoad (s : State) (ch : Chan) : Bool :=
  let c := s.chan ch
  !c.voting && (c.rd STW_MODE_MODE == 1 || c.role == 3 || (c.isShadow && c.hrd.cur.absent == ch.num) ||
    [Chan.A, Chan.B, Chan.C].any fun o => (s.chan o).live && (s.chan o).voting && (s.chan o).hrd.cur.absent == ch.num)

/-- MP_FOLIO_LOAD (R29): HRD_NEXTSRC takes source and peer, STPASS is kept, and the channel is reset. -/
def execMpFolioLoad (ch : Chan) (src peer : Fin 4) (s : State) : Out :=
  .next (s.mpAsks ch (s.mayLoad ch) fun c =>
    let c := ((c.wr HRD_NEXTSRC_VALID 1).wr HRD_NEXTSRC_SRC src).wr HRD_NEXTSRC_PEER peer
    (c.reset 4 0).errRefresh)

/-- The steward's enables (R29, R428): the blocks that have an enable bit of their own.
DESIGN CHOICE, unsafe: log entry 16. -/
def Channel.setEnables (c : Channel) (mask : Word) : Channel :=
  let old := (c.regs.word STW_BLKEN).toNat
  c.wr STW_BLKEN_BLK ((mask.toNat &&& blkenFree) + (old &&& (0x1FFFF - blkenFree - 0x2000)))

/-- MP_BLOCK_ENABLE (R29). -/
def execMpBlockEnable (ch : Chan) (mask : Word) (s : State) : Out :=
  .next (s.mpAsks ch (s.chan ch).mayReset fun c => c.setEnables mask)

/-- MP_BLOCK_RESET (R29, R426): a mask that names a block that is not resettable is refused. -/
def execMpBlockReset (ch : Chan) (mask : Word) (s : State) : Out :=
  .next (s.mpAsks ch ((s.chan ch).mayReset && (blocksOf mask).all resettable) fun c => c.blockResets (blocksOf mask))

/-- MP_CHANNEL_RESET (R29, R428): cause 4. -/
def execMpChannelReset (ch : Chan) (s : State) : Out :=
  .next (s.mpAsks ch (s.chan ch).mayReset fun c => (c.reset 4 0).errRefresh)

/-- A debug port may be opened at the MP's request (R29, R511, R513): it is open by the life-cycle state, or in FIELD a
token of this power cycle covers it while the herd's mode is SERVICE. -/
def State.mayOpen (s : State) (ch : Chan) : Bool :=
  (s.chan ch).portOpen || ((s.chan ch).otp.lc == 3 && s.mss.key.dbgPorts.testBit ch.idx && s.modeSeen ch == 6)

/-- MP_DEBUG_ACCESS (R29, R513): open or close the port. -/
def execMpDebugAccess (ch : Chan) (open_ : Bool) (s : State) : Out :=
  .next (s.mpAsks ch (!open_ || s.mayOpen ch) fun c =>
    if open_ then (if c.otp.lc = 3 then { c with dbg := { c.dbg with token := true } } else c)
    else if c.dbg.token then c.closePort else c)

end Sys2Proof.Machine
end

