-- ==== Sys2Proof/Machine/Debug.lean ====
section
/-! DEFINITION. The debug ports (19_debug_port.md): dmi accesses, halt and resume, system-bus access. The debug module's
registers are those of RISC-V External Debug Support 0.13.2 (R509). -/

namespace Sys2Proof.Machine

/-- The debug module behind a port. -/
def State.dbg (s : State) : DbgPort → Dbg
  | .ch c => (s.chan c).dbg
  | .mss => s.mss.dbg

/-- Change a debug module. -/
def State.onDbg (s : State) (p : DbgPort) (f : Dbg → Dbg) : State :=
  match p with
  | .ch c => s.on c fun x => { x with dbg := f x.dbg }
  | .mss => s.onMss fun m => { m with dbg := f m.dbg }

/-- The MSS port is open (R511, R513). -/
def Mss.portOpen (m : Mss) : Bool :=
  match m.key.otp.lc with
  | 1 => true
  | 2 => !m.mp || (((firstOf m.activeRecs 0x0E00).map fun (r : FolRec) => r.w 0).getD 0xF).testBit 3
  | 3 => m.dbg.token
  | 4 => true
  | _ => false

/-- The die behind a port runs. -/
def State.portLive (s : State) : DbgPort → Bool
  | .ch c => (s.chan c).live
  | .mss => s.mss.on

/-- A port is open and its die runs; in FIELD only while the herd's mode is SERVICE (R511, R513). -/
def State.portUsable (s : State) (p : DbgPort) : Bool :=
  s.portLive p && match p with
    | .ch c => (s.chan c).portOpen && ((s.chan c).otp.lc != 3 || s.modeSeen c == 6)
    | .mss => s.mss.portOpen

/-- The harts of a port (R509). -/
def State.hartExists (s : State) (p : DbgPort) (h : Nat) : Bool :=
  match p with
  | .ch c => h == 0 || (h == 1 && !(s.chan c).lockstep) || (2 ≤ h && decide (h < 5))
  | .mss => h == 0

/-- A hart is halted. -/
def State.hartHalted (s : State) (p : DbgPort) (h : Nat) : Bool :=
  match p with
  | .ch c => (s.chan c).bit STW_DBG_HALTED h
  | .mss => s.mss.dbg.halted.getLsbD h

/-! Halting (R514, R515). -/

/-- A halt of a non-member's hart takes effect at once; a halted shadow leaves its shadow phase without counting a
mismatch and returns by R517 (R514).
DEDUCED, unsafe: log entry 75. -/
def Channel.haltNow (c : Channel) (h : Nat) : Channel :=
  let c := if c.isShadow then (c.outOfHerd 3).wr STW_DBG_ABSENT 1 else c
  c.setHalted h true

/-- A halt request to a voting member waits as HPEND; withdrawn before the grant it has no effect (R515).
DEDUCED, unsafe: log entry 75. -/
def Channel.wantHalt (c : Channel) (h : Nat) (hold : Bool) : Channel :=
  let bit : BitVec 5 := 1#5 <<< h
  let want := if hold then c.dbg.want ||| bit else c.dbg.want &&& ~~~bit
  { c with dbg := { c.dbg with want := want } }.flag STW_DBG_HPEND (want != 0)

/-- A halt request, given or withdrawn.
DEDUCED, unsafe: log entry 75. -/
def State.haltReq (s : State) (p : DbgPort) (h : Nat) (hold : Bool) : State :=
  if !s.hartExists p h then s
  else match p with
    | .ch ch => s.on ch fun c =>
        if c.voting then c.wantHalt h hold else if hold then c.haltNow h else c
    | .mss => if hold then s.onMss fun m => { m with dbg := { m.dbg with halted := m.dbg.halted ||| 1#5 } } else s

/-- DEBUG_HALT_REQUEST (R514, R515). -/
def execDebugHaltRequest (port : DbgPort) (hart : Fin 5) (hold : Bool) (s : State) : Out :=
  .next (if s.portUsable port then s.haltReq port hart hold else s)

/-- The known registers of a hart are no longer known once it has run. -/
def dropHart (h : Nat) (m : KMap (Option Word)) : KMap (Option Word) := m.filter fun p => p.1 / 65536 != h

/-- A halted hart runs, or executes one instruction and halts again (R509).
DESIGN CHOICE, safe: log entry 74. -/
def State.resumeHart (s : State) (p : DbgPort) (h : Nat) (step : Bool) : State :=
  if !s.hartExists p h || !s.hartHalted p h then s
  else
    let s := s.onDbg p fun d => { d with resumed := d.resumed ||| (1#5 <<< h), hregs := dropHart h d.hregs }
    if step then s
    else match p with
      | .ch ch => s.on ch fun c => c.setHalted h false
      | .mss => s.onMss fun m => { m with dbg := { m.dbg with halted := m.dbg.halted &&& ~~~(1#5 <<< h) } }

/-- DEBUG_RESUME (R509). -/
def execDebugResume (port : DbgPort) (hart : Fin 5) (singleStep : Bool) (s : State) : Out :=
  .next (if s.portUsable port then s.resumeHart port hart singleStep else s)

/-! System-bus access (R519). -/

/-- A word that the system bus reads in the pair's map: `none` for a bus error. -/
def State.busRead (s : State) (ch : Chan) (a : Nat) : Option Word :=
  match pairMem a 4 with
  | some m => some (((s.chan ch).mem m).readWord a)
  | none =>
    if 0x70000000 ≤ a ∧ a < 0x70010000 then
      match s.mailboxAnswer ch (a - 0x70000000) with
      | .ok w => some w
      | _ => none
    else if 0x60000000 ≤ a ∧ a < 0x63000000 then
      match peerAddr a with
      | some (p, x) => if p ≠ ch ∧ s.crossUp ch p = true ∧ (s.chan p).live = true then (s.chan p).serveWord x else none
      | none => none
    else (s.chan ch).readReg a

/-- The access ends with an error (R519). -/
def State.sbFail (s : State) (ch : Chan) (e : Nat) : State := s.onDbg (.ch ch) fun d => { d with sberr := e }

/-- A system-bus access (R519): a read leaves its word in sbdata0. The bus state of the pair is not touched.
PRESUMED, unsafe: log entry 73. -/
def State.sysBus (s : State) (ch : Chan) (a : Nat) (wr : Option Word) (size : AccSize) : State :=
  if (s.dbg (.ch ch)).sberr ≠ 0 then s
  else if size ≠ .word then s.sbFail ch 4
  else if a % 4 ≠ 0 then s.sbFail ch 3
  else match wr with
    | some v =>
      if !(s.chan ch).busWrites then s.sbFail ch 7
      else
        let t := s.pairWrite ch a v .word
        let bad := (t.chan ch).bus == .error
        let t := t.on ch fun c => { c with bus := (s.chan ch).bus }
        if bad then t.sbFail ch 2 else t
    | none =>
      match s.busRead ch a with
      | none => s.sbFail ch 2
      | some w =>
        let s := if a = NTC_TIMEL then s.on ch fun c => c.wr NTC_TIMEH_NS (c.ntNs / 2 ^ 32) else s
        s.onDbg (.ch ch) fun d => { d with regs := kset 0 d.regs 0x3C w }

/-- SYSTEM_BUS_ACCESS (R519). -/
def execSystemBusAccess (ch : Chan) (addr : Nat) (wr : Option Word) (size : AccSize) (s : State) : Out :=
  .next (if s.portUsable (.ch ch) then s.sysBus ch addr wr size else s)

/-! Abstract commands (R509, R518). -/

/-- Draw a free word for a port. -/
def State.drawWord (s : State) (p : DbgPort) : Word × State :=
  match p with
  | .ch ch => let (k, c) := (s.chan ch).draw (2 ^ 32); (BitVec.ofNat 32 k, s.setChan ch c)
  | .mss => let (k, m) := s.mss.draw (2 ^ 32); (BitVec.ofNat 32 k, { s with mss := m })

/-- Number of the trigger register that tdata1 (0) or tdata2 (1) of the selected trigger is. -/
def Dbg.trigNo (d : Dbg) (h n : Nat) : Nat := 8 * h + 2 * (kget 0 d.tsel h) + n

/-- A register of a halted hart as the port reads it: x0 is 0, mhartid is the hart's number (R172), the triggers are the module's own, what firmware has left in
another register the manual does not give (a free value, kept while the hart stays halted).
DESIGN CHOICE, safe: log entry 74. -/
def State.hartReg (s : State) (p : DbgPort) (h r : Nat) : Word × State :=
  let d := s.dbg p
  if r = 0x1000 then (0, s)
  else if r = 0xF14 then (BitVec.ofNat 32 h, s)
  else if r = 0x7A0 then (BitVec.ofNat 32 (kget 0 d.tsel h), s)
  else if r = 0x7A1 then (kget 0 d.trig (d.trigNo h 0) ||| 0x20000000#32, s)
  else if r = 0x7A2 then (kget 0 d.trig (d.trigNo h 1), s)
  else match kget none d.hregs (65536 * h + r) with
    | some w => (w, s)
    | none =>
      let (w, s) := s.drawWord p
      (w, s.onDbg p fun d => { d with hregs := kset none d.hregs (65536 * h + r) (some w) })

/-- The type of a trigger is fixed at 2 (R509). While the channel is a voting member its action cannot be 1 (R518). -/
def trigWord (member : Bool) (v : Word) : Word :=
  let v := (v &&& 0x0FFFFFFF#32) ||| 0x20000000#32
  if member && v.toNat / 2 ^ 12 % 16 == 1 then v &&& 0xFFFF0FFF#32 else v

/-- A register of a halted hart takes a value.
DESIGN CHOICE, safe: log entry 74. -/
def State.setHartReg (s : State) (p : DbgPort) (h r : Nat) (v : Word) : State :=
  let member := match p with
    | .ch ch => (s.chan ch).voting
    | .mss => false
  s.onDbg p fun d =>
    if r = 0x1000 then d
    else if r = 0x7A0 then { d with tsel := kset 0 d.tsel h (v.toNat % 4) }
    else if r = 0x7A1 then { d with trig := kset 0 d.trig (d.trigNo h 0) (trigWord member v) }
    else if r = 0x7A2 then { d with trig := kset 0 d.trig (d.trigNo h 1) v }
    else { d with hregs := kset none d.hregs (65536 * h + r) (some v) }

/-- The hart that dmcontrol selects. -/
def Dbg.hartSel (d : Dbg) : Nat := (kget 0 d.regs 0x10).toNat / 2 ^ 16 % 2 ^ 10

/-- An abstract command: access to a CSR, an integer or a floating-point register, of 32 bits; anything else is not
supported, and a hart that runs refuses.
PRESUMED, unsafe: log entry 73. -/
def State.abstractCmd (s : State) (p : DbgPort) (v : Word) : State :=
  let d := s.dbg p
  let h := d.hartSel
  let n := v.toNat
  let fail (e : Nat) : State := s.onDbg p fun d => { d with cmderr := e }
  if d.cmderr ≠ 0 then s
  else if n / 2 ^ 24 ≠ 0 ∨ n / 2 ^ 20 % 8 ≠ 2 ∨ n.testBit 18 = true ∨ 0x103F < n % 2 ^ 16 then fail 2
  else if !s.hartExists p h || !s.hartHalted p h then fail 4
  else if !n.testBit 17 then s
  else if n.testBit 16 then s.setHartReg p h (n % 2 ^ 16) (kget 0 d.regs 0x04)
  else
    let (w, s) := s.hartReg p h (n % 2 ^ 16)
    s.onDbg p fun d => { d with regs := kset 0 d.regs 0x04 w }

/-! The dmi (R508, R511). -/

/-- dmstatus: version 0.13, authenticated, and the state of the selected hart. -/
def State.dmstatus (s : State) (p : DbgPort) : Word :=
  let d := s.dbg p
  let h := d.hartSel
  let e := s.hartExists p h
  let halted := e && s.hartHalted p h
  let b (x : Bool) (n : Nat) : Nat := if x then 3 * 2 ^ n else 0
  BitVec.ofNat 32 (0x82 + b halted 8 + b (e && !halted) 10 + b (!e) 14 + b (e && d.resumed.getLsbD h) 16)

/-- sbcs: version 1, the settings, sberror, 32 address bits and 32-bit accesses on a channel's port.
PRESUMED, unsafe: log entry 73. -/
def Dbg.sbcs (d : Dbg) (p : DbgPort) : Word :=
  let size := match p with
    | .ch _ => 0x20 * 2 ^ 5 + 4
    | .mss => 0
  BitVec.ofNat 32 (2 ^ 29 + (kget 0 d.regs 0x38).toNat + d.sberr * 2 ^ 12 + size)

/-- The word of a dmi register.
PRESUMED, unsafe: log entry 73. -/
def State.dmiWord (s : State) (p : DbgPort) (a : Nat) : Word :=
  let d := s.dbg p
  if a = 0x11 then s.dmstatus p
  else if a = 0x16 then BitVec.ofNat 32 (d.cmderr * 2 ^ 8 + 1)
  else if a = 0x38 then d.sbcs p
  else if a = 0x40 then
    BitVec.ofNat 32 (([0, 1, 2, 3, 4].filter fun h => s.hartHalted p h).foldl (fun x h => x + 2 ^ h) 0)
  else if a ∈ [0x04, 0x10, 0x39, 0x3C] then kget 0 d.regs a
  else 0

/-- Size of a system-bus access by sbcs. -/
def Dbg.sbSize (d : Dbg) : AccSize :=
  match (kget 0 d.regs 0x38).toNat / 2 ^ 17 % 8 with
  | 0 => .byte
  | 1 => .half
  | _ => .word

/-- A system-bus access through the dmi at sbaddress0, which increments after a success when sbcs says so. -/
def State.dmiBus (s : State) (p : DbgPort) (wr : Option Word) : State :=
  match p with
  | .mss => s
  | .ch ch =>
    let d := s.dbg p
    let a := (kget 0 d.regs 0x39).toNat
    let big := 2 < (kget 0 d.regs 0x38).toNat / 2 ^ 17 % 8
    let t := if big && d.sberr == 0 then s.sbFail ch 4 else s.sysBus ch a wr d.sbSize
    if (kget 0 d.regs 0x38).getLsbD 16 && (t.dbg p).sberr == 0 then
      t.onDbg p fun d => { d with regs := kset 0 d.regs 0x39 (BitVec.ofNat 32 (a + 4)) }
    else t

/-- A write of dmcontrol: dmactive 0 resets the module; else a halt request is given or withdrawn, or the hart resumes. -/
def State.dmcontrol (s : State) (p : DbgPort) (v : Word) : State :=
  if !v.getLsbD 0 then
    let s := s.onDbg p fun d => { token := d.token, halted := d.halted }
    match p with
    | .ch ch => s.on ch fun c => c.wr STW_DBG_HPEND 0
    | .mss => s
  else
    let s := s.onDbg p fun d => { d with regs := kset 0 d.regs 0x10 (v &&& 0x03FF0001#32) }
    let h := v.toNat / 2 ^ 16 % 2 ^ 10
    if !s.hartExists p h then s
    else
      let s := s.haltReq p h (v.getLsbD 31)
      if v.getLsbD 30 && !v.getLsbD 31 then
        let dcsr := (kget none (s.dbg p).hregs (65536 * h + 0x7B0)).getD 0
        (s.onDbg p fun d => { d with resumed := d.resumed &&& ~~~(1#5 <<< h) }).resumeHart p h (dcsr.getLsbD 2)
      else s

/-- A write through the dmi; a module that is not active takes dmcontrol only.
PRESUMED, unsafe: log entry 73. -/
def State.dmiWrite (s : State) (p : DbgPort) (a : Nat) (v : Word) : State :=
  let active := (kget 0 (s.dbg p).regs 0x10).getLsbD 0
  let put (s : State) (v : Word) : State := s.onDbg p fun d => { d with regs := kset 0 d.regs a v }
  if a = 0x10 then s.dmcontrol p v
  else if !active then s
  else if a = 0x04 then put s v
  else if a = 0x16 then s.onDbg p fun d => { d with cmderr := d.cmderr &&& (7 - v.toNat / 2 ^ 8 % 8) }
  else if a = 0x17 then s.abstractCmd p v
  else if a = 0x38 then
    (put s (v &&& 0x001F8000#32)).onDbg p fun d => { d with sberr := d.sberr &&& (7 - v.toNat / 2 ^ 12 % 8) }
  else if a = 0x39 then
    let s := put s v
    if (kget 0 (s.dbg p).regs 0x38).getLsbD 20 then s.dmiBus p none else s
  else if a = 0x3C then (put s v).dmiBus p (some v)
  else s

/-- One dmi access of an open port (R511). -/
def State.dmi (s : State) (p : DbgPort) (op : DmiOp) (a : Nat) (v : Word) : State :=
  match op with
  | .nop => s.onDbg p fun d => { d with op := 0 }
  | .read =>
    let w := s.dmiWord p a
    let s := s.onDbg p fun d => { d with op := 0, data := w }
    if a = 0x3C ∧ (kget 0 (s.dbg p).regs 0x38).getLsbD 15 = true then s.dmiBus p none else s
  | .write => (s.dmiWrite p a v).onDbg p fun d => { d with op := 0 }

/-- DMI_ACCESS (R511): on a closed port it ends with op = 2 and has no effect. -/
def execDmiAccess (port : DbgPort) (op : DmiOp) (addr : BitVec 7) (data : Word) (s : State) : Out :=
  .next (
    if s.portUsable port then s.dmi port op addr.toNat data
    else if s.portLive port then s.onDbg port fun d => { d with op := 2 }
    else s)

end Sys2Proof.Machine
end

