-- ==== Sys2Proof/Machine/Dispatch.lean ====
section
/-! DEFINITION. One arm per command: `exec` calls the command's meaning, the effect on everything but the queue. -/

namespace Sys2Proof.Machine

/-- The effect of a command on everything but the queue. -/
def exec (i : Instr) (s : State) : Host.Outcome State Fault Refusal :=
  match i with
  | .registerWrite ch ag addr v size => Sys2Proof.Machine.execRegisterWrite ch ag addr v size s
  | .crossLinkDown l => Sys2Proof.Machine.execCrossLinkDown l s
  | .crossLinkUp l => Sys2Proof.Machine.execCrossLinkUp l s
  | .class3RetryExhausted ch => Sys2Proof.Machine.execClass3RetryExhausted ch s
  | .class4RetryExhausted ch peer => Sys2Proof.Machine.execClass4RetryExhausted ch peer s
  | .clkFail ch reportArrives => Sys2Proof.Machine.execClkFail ch reportArrives s
  | .mpStateRead ch what => Sys2Proof.Machine.execMpStateRead ch what s
  | .mpPlannedAbsence ch hreq => Sys2Proof.Machine.execMpPlannedAbsence ch hreq s
  | .mpFolioLoad ch src peer => Sys2Proof.Machine.execMpFolioLoad ch src peer s
  | .mpBlockEnable ch mask => Sys2Proof.Machine.execMpBlockEnable ch mask s
  | .mpBlockReset ch mask => Sys2Proof.Machine.execMpBlockReset ch mask s
  | .mpChannelReset ch => Sys2Proof.Machine.execMpChannelReset ch s
  | .mpWake ch => Sys2Proof.Machine.execMpWake ch s
  | .mpDebugAccess ch open_ => Sys2Proof.Machine.execMpDebugAccess ch open_ s
  | .mailboxRead ch off => Sys2Proof.Machine.execMailboxRead ch off s
  | .mailboxReadTimeout ch => Sys2Proof.Machine.execMailboxReadTimeout ch s
  | .peerWindowRead ch addr => Sys2Proof.Machine.execPeerWindowRead ch addr s
  | .peerReadReply dst => Sys2Proof.Machine.execPeerReadReply dst s
  | .peerReadTimeout ch => Sys2Proof.Machine.execPeerReadTimeout ch s
  | .carrierMarker ch from_ tb latency => Sys2Proof.Machine.execCarrierMarker ch from_ tb latency s
  | .folCtrlWrite ch v => Sys2Proof.Machine.execFolCtrlWrite ch v s
  | .folioPartReceived ch src size part => Sys2Proof.Machine.execFolioPartReceived ch src size part s
  | .mssFolioTimeout ch => Sys2Proof.Machine.execMssFolioTimeout ch s
  | .peerLoadRetry ch => Sys2Proof.Machine.execPeerLoadRetry ch s
  | .peerLoadTimeout ch => Sys2Proof.Machine.execPeerLoadTimeout ch s
  | .peerLoadServe ch requester => Sys2Proof.Machine.execPeerLoadServe ch requester s
  | .folioApplyDone ch => Sys2Proof.Machine.execFolioApplyDone ch s
  | .roundStart ch => Sys2Proof.Machine.execRoundStart ch s
  | .hb1Send ch second => Sys2Proof.Machine.execHb1Send ch second s
  | .hb1Received ch pkt crcOk off => Sys2Proof.Machine.execHb1Received ch pkt crcOk off s
  | .hb2Relay ch => Sys2Proof.Machine.execHb2Relay ch s
  | .hb2Received ch pkt crcOk off => Sys2Proof.Machine.execHb2Received ch pkt crcOk off s
  | .membershipDecision ch env => Sys2Proof.Machine.execMembershipDecision ch env s
  | .simplexTimerExpiry ch => Sys2Proof.Machine.execSimplexTimerExpiry ch s
  | .idegTimerExpiry ch => Sys2Proof.Machine.execIdegTimerExpiry ch s
  | .idegClear ch => Sys2Proof.Machine.execIdegClear ch s
  | .bringupWindowEnd ch => Sys2Proof.Machine.execBringupWindowEnd ch s
  | .modeReqLeaveService ch => Sys2Proof.Machine.execModeReqLeaveService ch s
  | .modeReqSafeStop ch => Sys2Proof.Machine.execModeReqSafeStop ch s
  | .modeReqService ch => Sys2Proof.Machine.execModeReqService ch s
  | .modeReqPark ch => Sys2Proof.Machine.execModeReqPark ch s
  | .safeStopRampEnd ch => Sys2Proof.Machine.execSafeStopRampEnd ch s
  | .safeStopFullBrake ch => Sys2Proof.Machine.execSafeStopFullBrake ch s
  | .stationaryDeclared ch => Sys2Proof.Machine.execStationaryDeclared ch s
  | .joinRecord ch rec => Sys2Proof.Machine.execJoinRecord ch rec s
  | .admissionReply ch from_ gen round tb => Sys2Proof.Machine.execAdmissionReply ch from_ gen round tb s
  | .listenRoundEnd ch => Sys2Proof.Machine.execListenRoundEnd ch s
  | .shadowComplete ch => Sys2Proof.Machine.execShadowComplete ch s
  | .controlCycleBoundary ch => Sys2Proof.Machine.execControlCycleBoundary ch s
  | .migrationStateSend ch task => Sys2Proof.Machine.execMigrationStateSend ch task s
  | .migrationStateArrived ch task bytes => Sys2Proof.Machine.execMigrationStateArrived ch task bytes s
  | .dataHomeWrite ch home off v => Sys2Proof.Machine.execDataHomeWrite ch home off v s
  | .jobRelease ch task => Sys2Proof.Machine.execJobRelease ch task s
  | .hrdDone ch task crc => Sys2Proof.Machine.execHrdDone ch task crc s
  | .hreqUpdateRotation ch => Sys2Proof.Machine.execHreqUpdateRotation ch s
  | .hreqProofTest ch => Sys2Proof.Machine.execHreqProofTest ch s
  | .hreqAbort ch => Sys2Proof.Machine.execHreqAbort ch s
  | .repairRequest ch => Sys2Proof.Machine.execRepairRequest ch s
  | .absenceRequestDropped ch => Sys2Proof.Machine.execAbsenceRequestDropped ch s
  | .rotationNextRequest ch => Sys2Proof.Machine.execRotationNextRequest ch s
  | .returnDeadline ch => Sys2Proof.Machine.execReturnDeadline ch s
  | .commitReportRepeat ch => Sys2Proof.Machine.execCommitReportRepeat ch s
  | .proofTestDue ch => Sys2Proof.Machine.execProofTestDue ch s
  | .proofOverdue ch => Sys2Proof.Machine.execProofOverdue ch s
  | .recoveryWindowExpiry ch => Sys2Proof.Machine.execRecoveryWindowExpiry ch s
  | .cmpDiv ch group pc => Sys2Proof.Machine.execCmpDiv ch group pc s
  | .cmpSelf ch kind pc => Sys2Proof.Machine.execCmpSelf ch kind pc s
  | .failSilentReset ch => Sys2Proof.Machine.execFailSilentReset ch s
  | .digestDue ch => Sys2Proof.Machine.execDigestDue ch s
  | .digestTaken ch lead trail stall => Sys2Proof.Machine.execDigestTaken ch lead trail stall s
  | .cmpInjStart ch v rep => Sys2Proof.Machine.execCmpInjStart ch v rep s
  | .sweepStepTimeout ch => Sys2Proof.Machine.execSweepStepTimeout ch s
  | .channelReset ch cause => Sys2Proof.Machine.execChannelReset ch cause s
  | .wipeDone ch splitPin => Sys2Proof.Machine.execWipeDone ch splitPin s
  | .coreMemoryAccess ch mem addr op ecc => Sys2Proof.Machine.execCoreMemoryAccess ch mem addr op ecc s
  | .patrolScrub ch mem addr ecc => Sys2Proof.Machine.execPatrolScrub ch mem addr ecc s
  | .hart1Release ch v => Sys2Proof.Machine.execHart1Release ch v s
  | .splitStationaryLost ch => Sys2Proof.Machine.execSplitStationaryLost ch s
  | .bridgeSValley ch v => Sys2Proof.Machine.execBridgeSValley ch v s
  | .bridgePValley ch codeU codeV delay => Sys2Proof.Machine.execBridgePValley ch codeU codeV delay s
  | .adcConversionDone ch => Sys2Proof.Machine.execAdcConversionDone ch s
  | .carrierPeak ch b => Sys2Proof.Machine.execCarrierPeak ch b s
  | .offsetCalibrationDone ch b sumU sumV => Sys2Proof.Machine.execOffsetCalibrationDone ch b sumU sumV s
  | .rotorLockDone ch => Sys2Proof.Machine.execRotorLockDone ch s
  | .fceSetptWrite ch eng v => Sys2Proof.Machine.execFceSetptWrite ch eng v s
  | .pumpSectorDetectDone ch dir => Sys2Proof.Machine.execPumpSectorDetectDone ch dir s
  | .pumpHoldEnd ch => Sys2Proof.Machine.execPumpHoldEnd ch s
  | .pumpRampEnd ch => Sys2Proof.Machine.execPumpRampEnd ch s
  | .pumpHandoverTimeout ch => Sys2Proof.Machine.execPumpHandoverTimeout ch s
  | .pumpRetry ch => Sys2Proof.Machine.execPumpRetry ch s
  | .pumpStopTimeout ch => Sys2Proof.Machine.execPumpStopTimeout ch s
  | .solenoidTick ch => Sys2Proof.Machine.execSolenoidTick ch s
  | .fceSolnSetWrite ch n v => Sys2Proof.Machine.execFceSolnSetWrite ch n v s
  | .samplePacketReceived ch pkt crcOk off => Sys2Proof.Machine.execSamplePacketReceived ch pkt crcOk off s
  | .setComputeDone ch set accepted => Sys2Proof.Machine.execSetComputeDone ch set accepted s
  | .sampleDeadline ch set => Sys2Proof.Machine.execSampleDeadline ch set s
  | .tripletOverrun ch set => Sys2Proof.Machine.execTripletOverrun ch set s
  | .dutyTripletReceived ch pkt crcOk off => Sys2Proof.Machine.execDutyTripletReceived ch pkt crcOk off s
  | .vote ch => Sys2Proof.Machine.execVote ch s
  | .voteEchoReceived ch set pkt crcOk => Sys2Proof.Machine.execVoteEchoReceived ch set pkt crcOk s
  | .memberMaskDelivery ch mask tb => Sys2Proof.Machine.execMemberMaskDelivery ch mask tb s
  | .speedWord ch b omega probe => Sys2Proof.Machine.execSpeedWord ch b omega probe s
  | .chopperOn ch link v0 => Sys2Proof.Machine.execChopperOn ch link v0 s
  | .chopperOff ch => Sys2Proof.Machine.execChopperOff ch s
  | .chopperCheck ch v1 => Sys2Proof.Machine.execChopperCheck ch v1 s
  | .linkOv1 ch => Sys2Proof.Machine.execLinkOv1 ch s
  | .linkOv2 ch => Sys2Proof.Machine.execLinkOv2 ch s
  | .linkUv ch => Sys2Proof.Machine.execLinkUv ch s
  | .ov1Clear ch => Sys2Proof.Machine.execOv1Clear ch s
  | .ov2Clear ch => Sys2Proof.Machine.execOv2Clear ch s
  | .uvClear ch => Sys2Proof.Machine.execUvClear ch s
  | .dieToDieLoss ch => Sys2Proof.Machine.execDieToDieLoss ch s
  | .digitalDieSilent ch => Sys2Proof.Machine.execDigitalDieSilent ch s
  | .gdStcmd ch leg => Sys2Proof.Machine.execGdStcmd ch leg s
  | .desatLatch ch latches sol sameCycle => Sys2Proof.Machine.execDesatLatch ch latches sol sameCycle s
  | .ocLatch ch sol sameCycle => Sys2Proof.Machine.execOcLatch ch sol sameCycle s
  | .gdUvlo ch sol sameCycle => Sys2Proof.Machine.execGdUvlo ch sol sameCycle s
  | .gdOt ch sol sameCycle => Sys2Proof.Machine.execGdOt ch sol sameCycle s
  | .gdrBlockReset ch => Sys2Proof.Machine.execGdrBlockReset ch s
  | .gdrResetRelease ch => Sys2Proof.Machine.execGdrResetRelease ch s
  | .localBlockReset ch => Sys2Proof.Machine.execLocalBlockReset ch s
  | .gdenFall ch => Sys2Proof.Machine.execGdenFall ch s
  | .gdenRise ch lowNs present => Sys2Proof.Machine.execGdenRise ch lowNs present s
  | .gdenoPulse ch => Sys2Proof.Machine.execGdenoPulse ch s
  | .gdenoPulseEnd ch => Sys2Proof.Machine.execGdenoPulseEnd ch s
  | .powerStageSelfTestDone ch failed chopTest => Sys2Proof.Machine.execPowerStageSelfTestDone ch failed chopTest s
  | .encInputChange ch unit levels since => Sys2Proof.Machine.execEncInputChange ch unit levels since s
  | .encSettlement ch unit cycles => Sys2Proof.Machine.execEncSettlement ch unit cycles s
  | .encErrorWindowEnd ch unit qerr => Sys2Proof.Machine.execEncErrorWindowEnd ch unit qerr s
  | .observerUpdate ch unit => Sys2Proof.Machine.execObserverUpdate ch unit s
  | .standstillTimeout ch unit => Sys2Proof.Machine.execStandstillTimeout ch unit s
  | .comparePulseEnd ch unit => Sys2Proof.Machine.execComparePulseEnd ch unit s
  | .encCmpvWrite ch unit v => Sys2Proof.Machine.execEncCmpvWrite ch unit v s
  | .sentFrame ch m f => Sys2Proof.Machine.execSentFrame ch m f s
  | .sentTimeout ch m => Sys2Proof.Machine.execSentTimeout ch m s
  | .sinSample ch raw => Sys2Proof.Machine.execSinSample ch raw s
  | .discrepancyTimeout ch p => Sys2Proof.Machine.execDiscrepancyTimeout ch p s
  | .faultRearm ch p => Sys2Proof.Machine.execFaultRearm ch p s
  | .testPulseStart ch b => Sys2Proof.Machine.execTestPulseStart ch b s
  | .testPulseCheck ch b raw => Sys2Proof.Machine.execTestPulseCheck ch b raw s
  | .sb1Received ch pkt crcOk off => Sys2Proof.Machine.execSb1Received ch pkt crcOk off s
  | .sb2Received ch pkt crcOk off => Sys2Proof.Machine.execSb2Received ch pkt crcOk off s
  | .portDown ch port => Sys2Proof.Machine.execPortDown ch port s
  | .portUp ch port => Sys2Proof.Machine.execPortUp ch port s
  | .frameForward ch f ttx => Sys2Proof.Machine.execFrameForward ch f ttx s
  | .cycleStart n => Sys2Proof.Machine.execCycleStart n s
  | .cycleFrameReceived n f => Sys2Proof.Machine.execCycleFrameReceived n f s
  | .streamFetch ch id => Sys2Proof.Machine.execStreamFetch ch id s
  | .streamSlot n id nth fold => Sys2Proof.Machine.execStreamSlot n id nth fold s
  | .streamDataReceived ch f => Sys2Proof.Machine.execStreamDataReceived ch f s
  | .acceptanceWindowEnd ch id => Sys2Proof.Machine.execAcceptanceWindowEnd ch id s
  | .txCommit ch port v => Sys2Proof.Machine.execTxCommit ch port v s
  | .portSelect ch port v => Sys2Proof.Machine.execPortSelect ch port v s
  | .claimReceived ch f slot => Sys2Proof.Machine.execClaimReceived ch f slot s
  | .claimRetry n => Sys2Proof.Machine.execClaimRetry n s
  | .enumerationFrame ch f => Sys2Proof.Machine.execEnumerationFrame ch f s
  | .enumerationResend n => Sys2Proof.Machine.execEnumerationResend n s
  | .listenTimeout ch => Sys2Proof.Machine.execListenTimeout ch s
  | .startupFrame ch f => Sys2Proof.Machine.execStartupFrame ch f s
  | .startupWaitEnd n => Sys2Proof.Machine.execStartupWaitEnd n s
  | .cycleFrameLoss ch => Sys2Proof.Machine.execCycleFrameLoss ch s
  | .ntcTimelRead ch => Sys2Proof.Machine.execNtcTimelRead ch s
  | .linkDelayRequestSend ch port t1 => Sys2Proof.Machine.execLinkDelayRequestSend ch port t1 s
  | .linkDelayRequestReceived ch f t3 => Sys2Proof.Machine.execLinkDelayRequestReceived ch f t3 s
  | .linkDelayResponseReceived ch f => Sys2Proof.Machine.execLinkDelayResponseReceived ch f s
  | .linkDelayTimeout ch port => Sys2Proof.Machine.execLinkDelayTimeout ch port s
  | .cycleMark ch mark => Sys2Proof.Machine.execCycleMark ch mark s
  | .addressClaimReceived ch f => Sys2Proof.Machine.execAddressClaimReceived ch f s
  | .claimHoldOffEnd ch func => Sys2Proof.Machine.execClaimHoldOffEnd ch func s
  | .requestReceived ch f => Sys2Proof.Machine.execRequestReceived ch f s
  | .guidanceCommandReceived ch f => Sys2Proof.Machine.execGuidanceCommandReceived ch f s
  | .speedMessageReceived ch f => Sys2Proof.Machine.execSpeedMessageReceived ch f s
  | .timeDateReceived ch f => Sys2Proof.Machine.execTimeDateReceived ch f s
  | .canFrameReceived ch f => Sys2Proof.Machine.execCanFrameReceived ch f s
  | .tpRtsReceived ch f => Sys2Proof.Machine.execTpRtsReceived ch f s
  | .tpBamReceived ch f => Sys2Proof.Machine.execTpBamReceived ch f s
  | .tpDtReceived ch f => Sys2Proof.Machine.execTpDtReceived ch f s
  | .tpTimeout ch sa da => Sys2Proof.Machine.execTpTimeout ch sa da s
  | .voiceTxStart ch => Sys2Proof.Machine.execVoiceTxStart ch s
  | .isoVoice ch => Sys2Proof.Machine.execIsoVoice ch s
  | .isoBusoff ch => Sys2Proof.Machine.execIsoBusoff ch s
  | .statusMessageSend ch => Sys2Proof.Machine.execStatusMessageSend ch s
  | .bamPacketSend ch func => Sys2Proof.Machine.execBamPacketSend ch func s
  | .canTxGo ch v => Sys2Proof.Machine.execCanTxGo ch v s
  | .canRxPop ch => Sys2Proof.Machine.execCanRxPop ch s
  | .faultEvent ch src => Sys2Proof.Machine.execFaultEvent ch src s
  | .runWindowEnd ch src => Sys2Proof.Machine.execRunWindowEnd ch src s
  | .recovery ch src => Sys2Proof.Machine.execRecovery ch src s
  | .epinPulseEnd ch => Sys2Proof.Machine.execEpinPulseEnd ch s
  | .fccEpinHold ch hold => Sys2Proof.Machine.execFccEpinHold ch hold s
  | .fccInjStart ch v latency => Sys2Proof.Machine.execFccInjStart ch v latency s
  | .injectionRelease ch => Sys2Proof.Machine.execInjectionRelease ch s
  | .injectionSample ch stillHigh => Sys2Proof.Machine.execInjectionSample ch stillHigh s
  | .stwBlkrstWrite ch v => Sys2Proof.Machine.execStwBlkrstWrite ch v s
  | .stwChrstWrite ch v => Sys2Proof.Machine.execStwChrstWrite ch v s
  | .blockResetRelease ch blk => Sys2Proof.Machine.execBlockResetRelease ch blk s
  | .stwKick ch eng => Sys2Proof.Machine.execStwKick ch eng s
  | .coreWdog ch eng => Sys2Proof.Machine.execCoreWdog ch eng s
  | .optimeSave => Sys2Proof.Machine.execOptimeSave s
  | .mssPowerOn imageOk vsupMUsed => Sys2Proof.Machine.execMssPowerOn imageOk vsupMUsed s
  | .calendarUpdate seconds => Sys2Proof.Machine.execCalendarUpdate seconds s
  | .sensorSample samples backTenSeconds => Sys2Proof.Machine.execSensorSample samples backTenSeconds s
  | .envRecord => Sys2Proof.Machine.execEnvRecord s
  | .logQueueDrain ch => Sys2Proof.Machine.execLogQueueDrain ch s
  | .mailboxMessage ch v => Sys2Proof.Machine.execMailboxMessage ch v s
  | .logGo => Sys2Proof.Machine.execLogGo s
  | .logRecordWritten fail0 fail1 => Sys2Proof.Machine.execLogRecordWritten fail0 fail1 s
  | .managementLinkDown ch => Sys2Proof.Machine.execManagementLinkDown ch s
  | .managementLinkUp ch => Sys2Proof.Machine.execManagementLinkUp ch s
  | .logReadRequest ch v => Sys2Proof.Machine.execLogReadRequest ch v s
  | .logReadDone ch bad0 bad1 => Sys2Proof.Machine.execLogReadDone ch bad0 bad1 s
  | .shadowRefresh => Sys2Proof.Machine.execShadowRefresh s
  | .loadFrame busyPercent => Sys2Proof.Machine.execLoadFrame busyPercent s
  | .mssHbKick => Sys2Proof.Machine.execMssHbKick s
  | .mssHbMiss ch => Sys2Proof.Machine.execMssHbMiss ch s
  | .resetVoteEnd ch => Sys2Proof.Machine.execResetVoteEnd ch s
  | .mpVoteReset => Sys2Proof.Machine.execMpVoteReset s
  | .mpRestartDone => Sys2Proof.Machine.execMpRestartDone s
  | .keyChallenge ch => Sys2Proof.Machine.execKeyChallenge ch s
  | .keySubmitToken ch => Sys2Proof.Machine.execKeySubmitToken ch s
  | .keyAttest ch => Sys2Proof.Machine.execKeyAttest ch s
  | .keyFuseRootSlot ch => Sys2Proof.Machine.execKeyFuseRootSlot ch s
  | .keyAppendPart ch => Sys2Proof.Machine.execKeyAppendPart ch s
  | .attestCredit => Sys2Proof.Machine.execAttestCredit s
  | .identityGenerated => Sys2Proof.Machine.execIdentityGenerated s
  | .updOpen ch => Sys2Proof.Machine.execUpdOpen ch s
  | .updBlock ch words => Sys2Proof.Machine.execUpdBlock ch words s
  | .updVerify ch => Sys2Proof.Machine.execUpdVerify ch s
  | .updVerifyDone => Sys2Proof.Machine.execUpdVerifyDone s
  | .updArmRotation ch => Sys2Proof.Machine.execUpdArmRotation ch s
  | .updArmPowerCycle ch => Sys2Proof.Machine.execUpdArmPowerCycle ch s
  | .updDiscard ch => Sys2Proof.Machine.execUpdDiscard ch s
  | .slotCopyDone readBackOk => Sys2Proof.Machine.execSlotCopyDone readBackOk s
  | .commit => Sys2Proof.Machine.execCommit s
  | .trialNoHerdTimeout => Sys2Proof.Machine.execTrialNoHerdTimeout s
  | .vsupRise ch allLowFor100ms => Sys2Proof.Machine.execVsupRise ch allLowFor100ms s
  | .vsupUndervoltage ch => Sys2Proof.Machine.execVsupUndervoltage ch s
  | .vsupReset ch => Sys2Proof.Machine.execVsupReset ch s
  | .bistDone ch pass => Sys2Proof.Machine.execBistDone ch pass s
  | .p1EnterRequest ch => Sys2Proof.Machine.execP1EnterRequest ch s
  | .p1LeaveRequest ch => Sys2Proof.Machine.execP1LeaveRequest ch s
  | .keyFiltered ch on => Sys2Proof.Machine.execKeyFiltered ch on s
  | .awakeTimeEnd ch => Sys2Proof.Machine.execAwakeTimeEnd ch s
  | .parkHoldEnd => Sys2Proof.Machine.execParkHoldEnd s
  | .rungDwellEnd region => Sys2Proof.Machine.execRungDwellEnd region s
  | .wake w => Sys2Proof.Machine.execWake w s
  | .dmiAccess port op addr data => Sys2Proof.Machine.execDmiAccess port op addr data s
  | .debugHaltRequest port hart hold => Sys2Proof.Machine.execDebugHaltRequest port hart hold s
  | .debugResume port hart singleStep => Sys2Proof.Machine.execDebugResume port hart singleStep s
  | .systemBusAccess ch addr wr size => Sys2Proof.Machine.execSystemBusAccess ch addr wr size s
  | .tempCd ch => Sys2Proof.Machine.execTempCd ch s
  | .cpWdog ch => Sys2Proof.Machine.execCpWdog ch s
  | .d2dErr ch => Sys2Proof.Machine.execD2dErr ch s
  | .mpWatchdogReset => Sys2Proof.Machine.execMpWatchdogReset s
  | .vsupMLoss => Sys2Proof.Machine.execVsupMLoss s
  | .folioRequest ch => Sys2Proof.Machine.execFolioRequest ch s
  | .peerWindowReadServed ch requester => Sys2Proof.Machine.execPeerWindowReadServed ch requester s
  | .dataHomeUpdateReceived ch home off v => Sys2Proof.Machine.execDataHomeUpdateReceived ch home off v s
  | .solenoidCurrentSample ch n ma => Sys2Proof.Machine.execSolenoidCurrentSample ch n ma s
  | .vgdRecovered ch => Sys2Proof.Machine.execVgdRecovered ch s
  | .canFrameSent ch func => Sys2Proof.Machine.execCanFrameSent ch func s
  | .tpCtsReceived ch f => Sys2Proof.Machine.execTpCtsReceived ch f s
  | .busIntegrationDone ch => Sys2Proof.Machine.execBusIntegrationDone ch s
  | .supervisorHeartbeat => Sys2Proof.Machine.execSupervisorHeartbeat s
  | .keyCommandDone ch => Sys2Proof.Machine.execKeyCommandDone ch s

end Sys2Proof.Machine
end

