-- ==== Sys2Proof/Machine/Tick.lean ====
section
/-! DEFINITION. The passing of time: what the block does on its own when no command waits. One tick is 40 ns, the least
common multiple of a PCLK cycle of 5 ns (R181 of 06_field_control.md) and a network-time tick of 8 ns (R365 of
13_network_time.md). Everything that a rule times by an expiry has a command of its own; what runs freely stands here. -/

namespace Sys2Proof.Machine

/-- Milliseconds since the latest valid SENT frame (ENC_SSTAT.AGE of 10_position_feedback.md), saturating. -/
def Channel.ageTick (c : Channel) (n : Nat) (r : SentRx) : SentRx × Channel :=
  match r.since with
  | none => (r, c)
  | some k => ({ r with since := some (min (k + 8) (65535 * 200000)) },
      c.wr (ENC_SSTAT_AGE n) (min 65535 ((k + 8) / 200000)))

/-- The SENT receivers' ages. -/
def Channel.ages (c : Channel) : Channel :=
  let (r0, c) := c.ageTick 0 c.enc.s0
  let (r1, c) := c.ageTick 1 c.enc.s1
  let (r2, c) := c.ageTick 2 c.enc.s2
  { c with enc := { c.enc with s0 := r0, s1 := r1, s2 := r2 } }

/-- GDEN_x still low once GDENO_x is no longer pulsed (R271): raised when the pulse's own low has had its time to end.
DEDUCED, unsafe: log entry 42. -/
def Channel.lowCheck (c : Channel) : Channel :=
  if c.pow.lowAfter then
    let c := { c with pow := { c.pow with lowAfter := false } }
    if c.pow.gden || c.pow.gdeno then c else (c.sat GDR_CNT_ENLOW).raise 43
  else c

/-- 40 ns of one channel: the power die's legs run (R266), TB counts PCLK cycles (R181, R182), network time adds INC at each of its ticks (R365), and the
time since the supply rose runs (R491). A die without supply, on a clock-stopped rung or fail-silent does not count.
DESIGN CHOICE, unsafe: log entry 4. -/
def Channel.tick (c : Channel) : Channel :=
  let c := if c.pwr.off then c else { c with pwr := { c.pwr with boot := c.pwr.boot + 8 } }
  if c.pwr.off || c.failSilent || decide (2 ≤ c.rd PWR_STAT_RUNG) then c
  else
    { (c.ages.sectorTick.legsTick).lowCheck with tb := c.tb + 8, ntc := { c.ntc with nt := (c.ntc.nt + 5 * c.rd NTC_INC_VALUE) % 2 ^ 88 } }

/-- OPTIME advances: a supply at or above 6 V and no channel on P2 to P5 (R430 of 16_management_and_log.md).
DESIGN CHOICE, unsafe: log entry 4. -/
def State.operating (s : State) : Bool :=
  (s.a.pwr.up || s.b.pwr.up || s.c.pwr.up) &&
    [s.a, s.b, s.c].all fun c => decide (c.rd PWR_STAT_RUNG < 2)

/-- The calendar runs one second on; CALTIME holds its value while the calendar is behind it (R432).
DEDUCED, unsafe: log entry 60. -/
def Sup.second (x : Sup) : Sup :=
  if !x.calSet then x
  else
    let t := x.calTrue + 1
    { x with calTrue := t, cal := max x.cal t }

/-- One millisecond of the RTC domain: OPTIME when `run` (R430), the calendar (R432), the time since power-on.
DEDUCED, unsafe: log entry 60. -/
def Sup.milli (x : Sup) (run : Bool) : Sup :=
  let x := { x with up := x.up + 1, optime := if run then min (x.optime + 1) (2 ^ 48 - 1) else x.optime }
  if x.ms + 1 = 1000 then { x with ms := 0 }.second else { x with ms := x.ms + 1 }

/-- 40 ns of the RTC domain.
DESIGN CHOICE, unsafe: log entry 4. -/
def Sup.tick (x : Sup) (run : Bool) : Sup :=
  if 1000000 ≤ x.ns + 40 then { x with ns := x.ns + 40 - 1000000 }.milli run else { x with ns := x.ns + 40 }

/-- 40 ns of the machine.
DESIGN CHOICE, unsafe: log entry 4. -/
def State.tick (s : State) : State :=
  let run := s.operating
  { s with a := s.a.tick, b := s.b.tick, c := s.c.tick,
           mss := if s.mss.on then s.mss.onSup fun x => x.tick run else s.mss }

end Sys2Proof.Machine
end

