-- ==== Sys2Proof/Machine/Step.lean ====
section
/-! DEFINITION. One step of the block: the command at the front of the queue acts; on an empty queue 40 ns pass. -/

namespace Sys2Proof.Machine

/-- One step: the command at the front of the queue is taken and acts; with none waiting, time passes (Tick.lean).
DESIGN CHOICE, unsafe: log entry 4; DESIGN CHOICE, safe: log entries 5, 76. -/
def step (s : State) : Host.Outcome State Fault Refusal :=
  match s.pending with
  | [] => .next s.tick
  | c :: rest => exec c { s with pending := rest }

/-- The state with the command that a word spells put at the front of the queue; unchanged where the word spells none.
DESIGN CHOICE, safe: log entry 5. -/
def State.withFetchWord (s : State) (nbits w : Nat) : State :=
  match Sys2Proof.decodeTableWord nbits w with
  | some c => { s with pending := c :: s.pending }
  | none => s

end Sys2Proof.Machine
end

