-- ==== Sys2Proof/Safety.lean ====
section
/-! DEFINITION. The terms in which claims are made: what a command leaves alone, which events pass without a channel
reset, and the invariants of the machine. -/

namespace Sys2Proof.Machine

/-- Every other channel, the management subsystem and the queue are as before. -/
def State.onlyChan (ch : Chan) (s t : State) : Prop :=
  (∀ o, o ≠ ch → t.chan o = s.chan o) ∧ t.mss = s.mss ∧ t.pending = s.pending

/-- Every channel and the queue are as before: only the management subsystem may differ. -/
def State.onlyMss (s t : State) : Prop := t.a = s.a ∧ t.b = s.b ∧ t.c = s.c ∧ t.pending = s.pending

/-- Every register but those listed, and every memory of the channel, is as before. -/
def Channel.sameBut (l : List Nat) (c d : Channel) : Prop :=
  (∀ a, a ∉ l → d.regs.word a = c.regs.word a) ∧ d.sram = c.sram ∧ d.itcm = c.itcm ∧ d.dtcm = c.dtcm ∧ d.fce0 = c.fce0 ∧
    d.fce1 = c.fce1 ∧ d.nete = c.nete

/-- Registers that an event of the fault collector may write (R409 to R422, R427, R436): status, counters, capture,
ERR_x, the injection result, the queue state, the block resets. -/
def eventAddr (a : Nat) : Bool :=
  (0x40010000 ≤ a && a < 0x40010018) || (0x40010100 ≤ a && a < 0x40010200) ||
    [FCC_LAST, FCC_LASTT, FCC_EPIN, FCC_INJRES, STW_BLKSTAT, MBX_QSTAT].contains a

/-- Registers of CP-x and of the regeneration limit that a severe source may write beside those (R236, R254, R281). -/
def severeAddr (a : Nat) : Bool := [GDR_MSTATE, GDR_STAT, GDR_LOCK, GDR_CHOP, FCE_REGEN 0, FCE_REGEN 1].contains a

/-- The channel `d` is `c` after events that reset nothing: registers beside those above, every memory, every part but
the collector's, the log queue's, CP-x's and the draw counter, and the pass-through outputs, which a block reset of ENC
drives low, are as before. `w`: an event may have made a source severe
that removes a part of the channel; without it CP-x stands too. -/
def Channel.keptW (w : Bool) (c d : Channel) : Prop :=
  (∀ a, eventAddr a = false → (w && severeAddr a) = false → d.regs.word a = c.regs.word a) ∧
    d = { c with
      regs := d.regs, logq := d.logq, dcnt := d.dcnt, fcc := d.fcc, pow := d.pow, free := d.free,
      enc := { c.enc with pto0 := d.enc.pto0, pto1 := d.enc.pto1 } } ∧
    d.fcc.loaded = c.fcc.loaded ∧ d.fcc.kicks = c.fcc.kicks ∧ d.fcc.engines = c.fcc.engines ∧ d.pow.gden = c.pow.gden ∧
    (w = false → d.pow = c.pow)

/-- After events of any source that reset nothing. -/
abbrev Channel.kept : Channel → Channel → Prop := Channel.keptW true

/-- After events of plain sources, whose severe status removes no part of the channel. -/
abbrev Channel.keptPlain : Channel → Channel → Prop := Channel.keptW false

/-- Every register but those listed and those that an event may write, and every memory of the channel, is as before. -/
def Channel.sameButEvents (l : List Nat) (c d : Channel) : Prop :=
  (∀ a, a ∉ l → eventAddr a = false → severeAddr a = false → d.regs.word a = c.regs.word a) ∧ d.sram = c.sram ∧
    d.itcm = c.itcm ∧ d.dtcm = c.dtcm ∧ d.fce0 = c.fce0 ∧ d.fce1 = c.fce1 ∧ d.nete = c.nete

/-- A severe status of the source removes no part of the channel (R236, R281, R405). -/
def plainSrc (src : Nat) : Bool := (src < 35 || 41 < src) && src != 19 && removes src == {}

/-- No reaction set of the source, nor of LOGQ_DROP (63), names a channel reset (CRST, R411). -/
def Channel.spares (c : Channel) (src : Nat) : Prop :=
  src < 64 ∧ (c.react src).testBit 3 = false ∧ (c.severeSet src).testBit 3 = false ∧
    (c.react 63).testBit 3 = false ∧ (c.severeSet 63).testBit 3 = false

/-- The next event of the source takes a reaction set without CRST (R413), and so do those of LOGQ_DROP. -/
def Channel.sparesNow (c : Channel) (src : Nat) : Prop :=
  src < 64 ∧
    (if c.severe src = true ∨ c.severeN src ≤ kget 0 c.fcc.runs src + 1 then c.severeSet src else c.react src).testBit 3 = false ∧
    (c.react 63).testBit 3 = false ∧ (c.severeSet 63).testBit 3 = false

/-- Registers of the block windows whose write does more than hold a value, and the buffer windows (R10, R11): the seal,
requests, kicks, injections, engine set points, commits, port selections. -/
def actingReg (a : Nat) : Bool :=
  [FOL_CTRL, STW_SEAL, STW_MODE, STW_BLKEN, STW_BLKRST, STW_CHRST, STW_KICK, FCC_EPIN, FCC_INJ, HRD_REQ, HRD_DONE, CMP_INJ,
    CMP_HART1, FCE_SETPT 0, FCE_SETPT 1, GDR_GDENO, CAN_RXCTL, CAN_TXCTL, PWR_REQ].contains a ||
  (0x40050400 ≤ a && a < 0x40050420 && a % 8 == 0) || (0x40080100 ≤ a && a < 0x40080400 && a % 0x40 == 0x3C) ||
  (0x400A0080 ≤ a && a < 0x400A00A0) || (0x400A8000 ≤ a && a < 0x400A9000) || (0x400C1000 ≤ a && a < 0x400C1700)

/-- No debug port is open by a token (R513). -/
def State.noTokens (s : State) : Prop := (∀ ch, (s.chan ch).dbg.token = false) ∧ s.mss.dbg.token = false

/-- The steward's registers of the mode (R109, R110, R83, R95, R317). -/
def modeRegs : List Nat := [STW_MODE, STW_MODETMR, STW_DEPTH, STW_LIMIT, STW_SPDREQ]

/-- The herd engine's registers of the agreed value (R151), and the carrier error, which is 0 at the reference (R206). -/
def herdRegs : List Nat := [HRD_STAT, HRD_GEN, HRD_ROT, HRD_SHADOW, HRD_RECOV, HRD_PROOF, FCE_CARR 0, FCE_CARR 1]

/-- A frame from another node that is for this one and passes checks 1 and 2 (R335 to R338, R340): the FCS, then VER, KIND
and LEN. -/
def Channel.goodFrame (c : Channel) (f : Frame) (kind : Nat) : Prop :=
  c.tteOn = true ∧ c.portUp f.port = true ∧ c.ownFrame f = false ∧ c.forMe f = true ∧ f.etype = c.etypeOwn ∧
    f.fcsOk = true ∧ f.ver = 1 ∧ f.kind = kind ∧ kind < 7 ∧ f.len ≤ 1024 ∧ f.payload.length = f.len ∧
    (lenOfKind kind).all (· == f.len) = true ∧ (kind = 1 → c.isRx f.stream = true → f.len ≤ c.bufLen f.stream)

/-- The access-port states of the Tether node (R350). -/
def portRegs : List Nat := [TTE_PSTAT 0, TTE_PSTAT 1, TTE_PSTAT 2, TTE_PSTAT 3]

/-- Registers in which network time follows the lead (R375 to R384). -/
def followRegs : List Nat := [NTC_STAT, NTC_EPOCH, NTC_INC, NTC_RATE, NTC_OFS, NTC_OFSALT, NTC_STEP, NTC_CNT, NTC_CSTART]

/-- Registers of the management subsystem but those listed, the log's banks, the keys, the update path and the slots are
as before. -/
def Mss.sameBut (l : List Nat) (m n : Mss) : Prop :=
  (∀ a, a ∉ l → n.regs.word a = m.regs.word a) ∧ n.log.bank0 = m.log.bank0 ∧ n.log.bank1 = m.log.bank1 ∧ n.key = m.key ∧
    n.upd = m.upd ∧ n.slotA = m.slotA ∧ n.slotB = m.slotB ∧ n.active = m.active

/-- The management subsystem forms a record of its own with this source and code (R441). -/
def Mss.forms (m n : Mss) (src code : Nat) : Prop :=
  ∃ x, n.log.own = m.log.own ++ [x] ∧ x.origin = 0 ∧ x.src = src ∧ x.code = code

/-- A slot is free until LOG_FULL, and a record in progress is the next one of a log that is not full (R442, R444). -/
def Mss.logOrdered (m : Mss) : Prop :=
  (m.is LOG_STAT_FULL = false → m.rd LOG_NEXT_SEQ < bankSlots) ∧
    ∀ r, m.log.now = some r → m.is LOG_STAT_BUSY = true ∧ m.is LOG_STAT_FULL = false ∧ r.seq = m.rd LOG_NEXT_SEQ

/-- A bank after a step (R445): no slot but LOG_NEXT differs, none at all once the log is full; at LOG_NEXT stands what
stood there, the record in progress, the other bank's copy of it, or an empty slot (R442, R443). -/
def Mss.bankGrows (m : Mss) (b other b' : KMap LogRecord) : Prop :=
  (m.is LOG_STAT_FULL = true → b' = b) ∧
    (∀ n, n ≠ m.rd LOG_NEXT_SEQ → kget LogRecord.blank b' n = kget LogRecord.blank b n) ∧
    (kget LogRecord.blank b' (m.rd LOG_NEXT_SEQ) ∈ [kget LogRecord.blank b (m.rd LOG_NEXT_SEQ),
        kget LogRecord.blank other (m.rd LOG_NEXT_SEQ), LogRecord.blank] ∨
      m.log.now = some (kget LogRecord.blank b' (m.rd LOG_NEXT_SEQ)))

/-- PCYC and CALEPOCH fit their widths (R431, R432). -/
def State.countsInRange (s : State) : Prop := s.mss.sup.pcyc < 2 ^ 24 ∧ s.mss.sup.calEpoch < 2 ^ 16

/-- OTP bits change only from 0 to 1 (R462): key hashes, fused and revoked slots, life-cycle state (one fuse for each state
after BLANK) and security epoch (a thermometer). -/
def Otp.grows (o p : Otp) : Prop :=
  (∀ k < 4, kget 0 o.hash k &&& kget 0 p.hash k = kget 0 o.hash k) ∧
    (∀ k < 4, o.fused.getLsbD k = true → p.fused.getLsbD k = true) ∧
    (∀ k < 4, o.revoked.getLsbD k = true → p.revoked.getLsbD k = true) ∧ o.lc ≤ p.lc ∧ o.epoch ≤ p.epoch

/-- A life-cycle change in preparation leads to a later state (R468), and a slot that is not fused holds no hash (R465). -/
def State.fusesOrdered (s : State) : Prop :=
  (s.mss.key.gen = 2 → s.mss.key.otp.lc ≤ s.mss.key.lcTo) ∧
    ∀ k < 4, s.mss.key.otp.fused.getLsbD k = false → kget 0 s.mss.key.otp.hash k = 0

/-- The memories of a channel, its frame buffer among them, have their canonical form. -/
def Channel.memWf (c : Channel) : Prop :=
  Memory.wf c.sram = true ∧ Memory.wf c.itcm = true ∧ Memory.wf c.dtcm = true ∧ Memory.wf c.fce0 = true ∧
    Memory.wf c.fce1 = true ∧ Memory.wf c.nete = true ∧ Memory.wf c.tte.spare = true ∧
    (∀ id, Memory.wf (kget [] c.tte.fill id) = true) ∧ (∀ id, Memory.wf (kget [] c.tte.whole id) = true)

/-- Every memory of the channels and of the MP, the key buffers and the staging buffer have their canonical form. -/
def State.memWf (s : State) : Prop :=
  s.a.memWf ∧ s.b.memWf ∧ s.c.memWf ∧ (∀ ch, Memory.wf (s.mss.port ch).keyBuf = true) ∧ Memory.wf s.mss.upd.buffer = true ∧
    Memory.wf s.mss.sram = true

end Sys2Proof.Machine

namespace Sys2Proof

/-- The channel on which a command acts alone: it changes no other channel, nor the management subsystem. No claim for the
commands that are not listed. -/
def Instr.localTo : Instr → Option Chan
  | .class3RetryExhausted ch => some ch
  | .class4RetryExhausted ch _ => some ch
  | .clkFail ch _ => some ch
  | .mailboxRead ch _ => some ch
  | .mailboxReadTimeout ch => some ch
  | .peerReadTimeout ch => some ch
  | .carrierMarker ch _ _ _ => some ch
  | .folCtrlWrite ch _ => some ch
  | .folioPartReceived ch _ _ _ => some ch
  | .mssFolioTimeout ch => some ch
  | .peerLoadRetry ch => some ch
  | .peerLoadTimeout ch => some ch
  | .hb1Send ch _ => some ch
  | .hb1Received ch _ _ _ => some ch
  | .hb2Relay ch => some ch
  | .hb2Received ch _ _ _ => some ch
  | .simplexTimerExpiry ch => some ch
  | .idegTimerExpiry ch => some ch
  | .idegClear ch => some ch
  | .bringupWindowEnd ch => some ch
  | .modeReqLeaveService ch => some ch
  | .modeReqSafeStop ch => some ch
  | .modeReqService ch => some ch
  | .modeReqPark ch => some ch
  | .safeStopRampEnd ch => some ch
  | .safeStopFullBrake ch => some ch
  | .stationaryDeclared ch => some ch
  | .joinRecord ch _ => some ch
  | .listenRoundEnd ch => some ch
  | .shadowComplete ch => some ch
  | .controlCycleBoundary ch => some ch
  | .migrationStateSend ch _ => some ch
  | .migrationStateArrived ch _ _ => some ch
  | .dataHomeWrite ch _ _ _ => some ch
  | .jobRelease ch _ => some ch
  | .hrdDone ch _ _ => some ch
  | .hreqUpdateRotation ch => some ch
  | .hreqProofTest ch => some ch
  | .hreqAbort ch => some ch
  | .repairRequest ch => some ch
  | .absenceRequestDropped ch => some ch
  | .rotationNextRequest ch => some ch
  | .returnDeadline ch => some ch
  | .proofTestDue ch => some ch
  | .proofOverdue ch => some ch
  | .recoveryWindowExpiry ch => some ch
  | .cmpDiv ch _ _ => some ch
  | .cmpSelf ch _ _ => some ch
  | .digestDue ch => some ch
  | .digestTaken ch _ _ _ => some ch
  | .cmpInjStart ch _ _ => some ch
  | .sweepStepTimeout ch => some ch
  | .channelReset ch _ => some ch
  | .wipeDone ch _ => some ch
  | .coreMemoryAccess ch _ _ _ _ => some ch
  | .patrolScrub ch _ _ _ => some ch
  | .hart1Release ch _ => some ch
  | .splitStationaryLost ch => some ch
  | .bridgeSValley ch _ => some ch
  | .bridgePValley ch _ _ _ => some ch
  | .adcConversionDone ch => some ch
  | .carrierPeak ch _ => some ch
  | .offsetCalibrationDone ch _ _ _ => some ch
  | .rotorLockDone ch => some ch
  | .fceSetptWrite ch _ _ => some ch
  | .pumpSectorDetectDone ch _ => some ch
  | .pumpHoldEnd ch => some ch
  | .pumpRampEnd ch => some ch
  | .pumpHandoverTimeout ch => some ch
  | .pumpRetry ch => some ch
  | .pumpStopTimeout ch => some ch
  | .solenoidTick ch => some ch
  | .fceSolnSetWrite ch _ _ => some ch
  | .samplePacketReceived ch _ _ _ => some ch
  | .setComputeDone ch _ _ => some ch
  | .sampleDeadline ch _ => some ch
  | .tripletOverrun ch _ => some ch
  | .dutyTripletReceived ch _ _ _ => some ch
  | .vote ch => some ch
  | .voteEchoReceived ch _ _ _ => some ch
  | .memberMaskDelivery ch _ _ => some ch
  | .speedWord ch _ _ _ => some ch
  | .chopperOn ch _ _ => some ch
  | .chopperOff ch => some ch
  | .chopperCheck ch _ => some ch
  | .linkOv1 ch => some ch
  | .linkOv2 ch => some ch
  | .linkUv ch => some ch
  | .ov1Clear ch => some ch
  | .ov2Clear ch => some ch
  | .uvClear ch => some ch
  | .dieToDieLoss ch => some ch
  | .digitalDieSilent ch => some ch
  | .gdStcmd ch _ => some ch
  | .desatLatch ch _ _ _ => some ch
  | .ocLatch ch _ _ => some ch
  | .gdUvlo ch _ _ => some ch
  | .gdOt ch _ _ => some ch
  | .gdrBlockReset ch => some ch
  | .gdrResetRelease ch => some ch
  | .localBlockReset ch => some ch
  | .gdenFall ch => some ch
  | .gdenRise ch _ _ => some ch
  | .gdenoPulse ch => some ch
  | .gdenoPulseEnd ch => some ch
  | .powerStageSelfTestDone ch _ _ => some ch
  | .encInputChange ch _ _ _ => some ch
  | .encSettlement ch _ _ => some ch
  | .encErrorWindowEnd ch _ _ => some ch
  | .observerUpdate ch _ => some ch
  | .standstillTimeout ch _ => some ch
  | .comparePulseEnd ch _ => some ch
  | .encCmpvWrite ch _ _ => some ch
  | .sentFrame ch _ _ => some ch
  | .sentTimeout ch _ => some ch
  | .sinSample ch _ => some ch
  | .discrepancyTimeout ch _ => some ch
  | .faultRearm ch _ => some ch
  | .testPulseStart ch _ => some ch
  | .testPulseCheck ch _ _ => some ch
  | .sb1Received ch _ _ _ => some ch
  | .sb2Received ch _ _ _ => some ch
  | .portDown ch _ => some ch
  | .portUp ch _ => some ch
  | .frameForward ch _ _ => some ch
  | .cycleStart n => some n.ch
  | .cycleFrameReceived n _ => some n.ch
  | .streamFetch ch _ => some ch
  | .streamSlot n _ _ _ => some n.ch
  | .streamDataReceived ch _ => some ch
  | .acceptanceWindowEnd ch _ => some ch
  | .txCommit ch _ _ => some ch
  | .portSelect ch _ _ => some ch
  | .claimReceived ch _ _ => some ch
  | .claimRetry n => some n.ch
  | .enumerationFrame ch _ => some ch
  | .enumerationResend n => some n.ch
  | .listenTimeout ch => some ch
  | .startupFrame ch _ => some ch
  | .startupWaitEnd n => some n.ch
  | .cycleFrameLoss ch => some ch
  | .ntcTimelRead ch => some ch
  | .linkDelayRequestSend ch _ _ => some ch
  | .linkDelayRequestReceived ch _ _ => some ch
  | .linkDelayResponseReceived ch _ => some ch
  | .linkDelayTimeout ch _ => some ch
  | .cycleMark ch _ => some ch
  | .claimHoldOffEnd ch _ => some ch
  | .isoVoice ch => some ch
  | .isoBusoff ch => some ch
  | .statusMessageSend ch => some ch
  | .canRxPop ch => some ch
  | .faultEvent ch _ => some ch
  | .runWindowEnd ch _ => some ch
  | .recovery ch _ => some ch
  | .epinPulseEnd ch => some ch
  | .fccEpinHold ch _ => some ch
  | .fccInjStart ch _ _ => some ch
  | .injectionRelease ch => some ch
  | .injectionSample ch _ => some ch
  | .stwBlkrstWrite ch _ => some ch
  | .stwChrstWrite ch _ => some ch
  | .blockResetRelease ch _ => some ch
  | .stwKick ch _ => some ch
  | .coreWdog ch _ => some ch
  | .mailboxMessage ch _ => some ch
  | .bistDone ch _ => some ch
  | .p1EnterRequest ch => some ch
  | .p1LeaveRequest ch => some ch
  | .keyFiltered ch _ => some ch
  | .awakeTimeEnd ch => some ch
  | .tempCd ch => some ch
  | .cpWdog ch => some ch
  | .d2dErr ch => some ch
  | .folioRequest ch => some ch
  | .dataHomeUpdateReceived ch _ _ _ => some ch
  | .solenoidCurrentSample ch _ _ => some ch
  | .vgdRecovered ch => some ch
  | .busIntegrationDone ch => some ch
  | _ => none

/-- The command acts on the management subsystem alone. No claim for the commands that are not listed. -/
def Instr.mssOnly : Instr → Bool
  | .optimeSave | .calendarUpdate _ | .sensorSample _ _ | .envRecord | .logGo | .logRecordWritten _ _ |
    .logReadRequest _ _ | .logReadDone _ _ _ | .shadowRefresh | .loadFrame _ | .mpRestartDone | .keyChallenge _ |
    .keySubmitToken _ | .keyAttest _ | .keyFuseRootSlot _ | .keyAppendPart _ | .attestCredit | .updOpen _ |
    .updBlock _ _ | .updVerify _ | .updDiscard _ | .slotCopyDone _ | .mpWatchdogReset => true
  | _ => false

end Sys2Proof
end

