-- ==== Sys2Proof/Certificates/Slice0/Obligations.lean ====
section
/-! DEFINITION. Statements for the provers, from the numbered rules of the spec. A completion clause has hypotheses on
the state and the operands alone, says that `exec` answers a next state, what that state holds (the command's own effect),
and its frame: `State.onlyChan` (the other channels, the management subsystem and the queue stand), `Channel.sameBut`
(every register but those listed and every memory of the channel stand), `Channel.kept` (events of the fault collector
that reset nothing leave everything but the collector's registers as it was). -/

open Sys2Proof Sys2Proof.Machine

/-- R25, R114, R24: CROSS_LINK_DOWN of a link that both running ends hold up clears its LINKS bit at both, raises
XLK_DOWN (12) at both, ends a read to the other end in a bus error and reports the transfers to that end as abandoned;
CROSS_LINK_UP sets the bit at both ends and changes nothing at the third channel; CLASS3_RETRY_EXHAUSTED ends the read
in progress in a bus error; CLASS4_RETRY_EXHAUSTED is counted as a link fault and abandons the transfers with that
peer, among them a Folio load from it, which fails with 0x50. Where the spec leaves a corner open the statement rests
on the model's reading, log entry 17. -/
def Obligations.CrossLinksGoDownAndUp : Prop :=
  (∀ (l : Link) (s : State), (∀ e, e = (linkEnds l).1 ∨ e = (linkEnds l).2 → (s.chan e).live = true ∧
      (s.chan e).hrd.links.testBit (linkIdx l) = true ∧ (s.chan e).blockOn 6 = true ∧ (s.chan e).fcc.tag = none ∧
      (s.chan e).spares 12 ∧ (s.chan e).spares 8) →
    ∃ t, exec (.crossLinkDown l) s = .next t ∧ t.mss = s.mss ∧ t.pending = s.pending ∧
      (∀ e, e = (linkEnds l).1 ∨ e = (linkEnds l).2 → (t.chan e).hrd.links.testBit (linkIdx l) = false ∧
        (t.chan e).srcBit FCC_STAT_SRC 12 = true ∧
        (∀ p a, p = (linkEnds l).1 ∨ p = (linkEnds l).2 → p ≠ e →
          (t.chan e).hrd.abandoned.testBit p.idx = true ∧
          ((s.chan e).xlk.rdReq = some (p, a) → (t.chan e).bus = .error ∧ (t.chan e).xlk.rdReq = none))) ∧
      ∀ o, o ≠ (linkEnds l).1 → o ≠ (linkEnds l).2 → t.chan o = s.chan o) ∧
  (∀ (l : Link) (s : State), (∀ e, e = (linkEnds l).1 ∨ e = (linkEnds l).2 → (s.chan e).live = true) →
    ∃ t, exec (.crossLinkUp l) s = .next t ∧ t.mss = s.mss ∧ t.pending = s.pending ∧
      (∀ e, e = (linkEnds l).1 ∨ e = (linkEnds l).2 → (t.chan e).hrd.links.testBit (linkIdx l) = true ∧
        (s.chan e).sameBut [HRD_STAT] (t.chan e)) ∧
      ∀ o, o ≠ (linkEnds l).1 → o ≠ (linkEnds l).2 → t.chan o = s.chan o) ∧
  (∀ (ch : Chan) (s : State), (s.chan ch).live = true → (s.chan ch).xlk.rdReq ≠ none →
    ∃ t, exec (.class3RetryExhausted ch) s = .next t ∧ s.onlyChan ch t ∧ (s.chan ch).sameBut [] (t.chan ch) ∧
      (t.chan ch).bus = .error ∧ (t.chan ch).xlk.rdReq = none) ∧
  (∀ (ch peer : Chan) (s : State), (s.chan ch).live = true → peer ≠ ch → (s.chan ch).blockOn 6 = true →
    (s.chan ch).fcc.tag = none → (s.chan ch).spares 12 → (s.chan ch).spares 8 →
    ∃ t, exec (.class4RetryExhausted ch peer) s = .next t ∧ s.onlyChan ch t ∧
      (t.chan ch).srcBit FCC_STAT_SRC 12 = true ∧ (t.chan ch).hrd.abandoned.testBit peer.idx = true ∧
      ((s.chan ch).fol.cur ≠ 3 →
        ((s.chan ch).hrdUp fun x => { x with abandoned := x.abandoned ||| 2 ^ peer.idx }).kept (t.chan ch)) ∧
      ((s.chan ch).fol.cur = 3 → (s.chan ch).fol.accepted = false → (s.chan ch).fol.servedBy = peer.num →
        (t.chan ch).fol.cur = 0 ∧ (t.chan ch).rd (FOL_RES_CODE 2) = 0x50 ∧ (t.chan ch).is FOL_STAT_FAILED = true))

/-- R37, R38, R10, R23: a peer-window read of a word goes to the peer while their link is up, and ends in a bus error
at once where no region lies or when it is of a byte or halfword; the peer serves the value of the moment and changes
in nothing that software sees; the reply ends the read with that value, or 4 µs without one in a bus error. A request
or reply that fails its CRC is discarded and counted. R31, R38, R452: a mailbox read of a word of a shadow register
whose row the map has answers with the MP's latest copy while the link is up, and changes nothing else; one of a byte
or halfword ends in a bus error; a read without an answer ends in a bus error at its timeout. Where the spec leaves a
corner open the statement rests on the model's reading, log entries 11, 15. -/
def Obligations.PeerAndMailboxReadsAnswer : Prop :=
  (∀ (ch p : Chan) (addr x : Nat) (s : State), (s.chan ch).live = true → peerAddr addr = some (p, x) → p ≠ ch →
    s.crossUp ch p = true →
    ∃ t, exec (.peerWindowRead ch ⟨addr, .word⟩) s = .next t ∧ t.mss = s.mss ∧ t.pending = s.pending ∧
      (t.chan ch).bus = .waiting ∧ (t.chan ch).xlk.rdReq = some (p, x) ∧
      (∀ o, (s.chan o).sameBut [] (t.chan o))) ∧
  (∀ (ch : Chan) (addr : Nat) (z : AccSize) (s : State), (s.chan ch).live = true → peerAddr addr = none ∨ z ≠ .word →
    ∃ t, exec (.peerWindowRead ch ⟨addr, z⟩) s = .next t ∧ s.onlyChan ch t ∧ (s.chan ch).sameBut [] (t.chan ch) ∧
      (t.chan ch).bus = .error) ∧
  (∀ (ch requester : Chan) (a : Nat) (s : State), (s.chan ch).live = true → (s.chan requester).xlk.rdReq = some (ch, a) →
    s.crossUp ch requester = true →
    ∃ t, exec (.peerWindowReadServed ch ⟨requester, true⟩) s = .next t ∧ s.onlyChan ch t ∧ (s.chan ch).sameBut [] (t.chan ch) ∧
      kget none (t.chan ch).xlk.rdRep requester.idx = some ((s.chan ch).serveWord a)) ∧
  (∀ (ch p : Chan) (a : Nat) (r : Option Word) (s : State), (s.chan ch).live = true → p ≠ ch →
    (s.chan ch).xlk.rdReq = some (p, a) → kget none (s.chan p).xlk.rdRep ch.idx = some r →
    ∃ t, exec (.peerReadReply ⟨ch, true⟩) s = .next t ∧ t.mss = s.mss ∧ (∀ o, (s.chan o).sameBut [] (t.chan o)) ∧
      (t.chan ch).xlk.rdReq = none ∧ (t.chan ch).bus = (match r with
        | some w => .ok w
        | none => .error)) ∧
  (∀ (ch p : Chan) (a : Nat) (s : State), (s.chan ch).live = true →
    (∃ t, exec (.peerReadReply ⟨ch, false⟩) s = .next t ∧ s.onlyChan ch t ∧ t.chan ch = (s.chan ch).badCrc) ∧
    ((s.chan p).xlk.rdReq = some (ch, a) →
      ∃ t, exec (.peerWindowReadServed ch ⟨p, false⟩) s = .next t ∧ s.onlyChan ch t ∧ t.chan ch = (s.chan ch).badCrc)) ∧
  (∀ (ch : Chan) (s : State), (s.chan ch).live = true → (s.chan ch).xlk.rdReq ≠ none →
    ∃ t, exec (.peerReadTimeout ch) s = .next t ∧ s.onlyChan ch t ∧ (s.chan ch).sameBut [] (t.chan ch) ∧
      (t.chan ch).bus = .error ∧ (t.chan ch).xlk.rdReq = none) ∧
  (∀ (ch : Chan) (off : Nat) (row : RegRow) (s : State), (s.chan ch).live = true → 0x40 ≤ off → off < 0x100 → off % 4 = 0 →
    findRow mailboxRows (0x70000000 + off) = some row → s.mlinkUp (s.chan ch) = true → s.mss.on = true →
    ∃ t, exec (.mailboxRead ch ⟨off, .word⟩) s = .next t ∧ s.onlyChan ch t ∧ (s.chan ch).sameBut [] (t.chan ch) ∧
      (t.chan ch).bus = .ok (s.mss.shadow.word (0x70000000 + off) &&& BitVec.ofNat 32 row.shown)) ∧
  (∀ (ch : Chan) (off : Nat) (z : AccSize) (s : State), (s.chan ch).live = true → off % 4 ≠ 0 ∨ z ≠ .word →
    ∃ t, exec (.mailboxRead ch ⟨off, z⟩) s = .next t ∧ s.onlyChan ch t ∧ (s.chan ch).sameBut [] (t.chan ch) ∧ (t.chan ch).bus = .error) ∧
  (∀ (ch : Chan) (s : State), (s.chan ch).live = true → (s.chan ch).bus = .waiting → (s.chan ch).xlk.rdReq = none →
    ∃ t, exec (.mailboxReadTimeout ch) s = .next t ∧ s.onlyChan ch t ∧ (s.chan ch).sameBut [] (t.chan ch) ∧
      (t.chan ch).bus = .error)

/-- R29: requests of the MP that reach the steward. A state read is answered with the registers asked for and changes
no channel; block enables, block resets and the channel reset are honoured for a channel that is not voting or in
SERVICE or PARK; a Folio load is honoured in BRING-UP or in a granted planned absence, keeps STPASS and names its
source. R29: a request that is not honoured has no effect on the channel but its count: STW_REFUSE.COUNT advances, the
reply says so, and the resets it asked for do not happen. R29, R513: a planned absence for an update (1) or a proof
test (2) asked for by the MP is passed to the herd engine, which drops the request of a channel that does not vote; a
debug port that the MP may open is opened in FIELD by the token of the power cycle, and closed again on request. Where
the spec leaves a corner open the statement rests on the model's reading, log entry 16. -/
def Obligations.MpRequestsAreHonouredOrRefused : Prop :=
  (∀ (ch : Chan) (what : MpRead) (s : State), s.mpReaches ch = true →
    ∃ t, exec (.mpStateRead ch what) s = .next t ∧ s.onlyMss t ∧
      (t.mss.port ch).reply = some (true, (s.chan ch).mpWords what)) ∧
  (∀ (ch : Chan) (src peer : Fin 4) (s : State), s.mpReaches ch = true → (s.chan ch).voting = false →
    ((s.chan ch).rd STW_MODE_MODE = 1 ∨ (s.chan ch).rd HRD_STAT_ROLE = 3 ∨
      ∃ o, (s.chan o).live = true ∧ (s.chan o).voting = true ∧ (s.chan o).hrd.cur.absent = ch.num) →
    ∃ t, exec (.mpFolioLoad ch src peer) s = .next t ∧ (t.mss.port ch).reply = some (true, []) ∧
      (t.chan ch).resetting = true ∧ (t.chan ch).rd STW_RSTCAUSE_CAUSE = 4 ∧ (t.chan ch).rd HRD_NEXTSRC_VALID = 1 ∧
      (t.chan ch).rd HRD_NEXTSRC_SRC = src ∧ (t.chan ch).rd HRD_NEXTSRC_PEER = peer ∧
      (t.chan ch).rd HRD_NEXTSRC_STPASS = (s.chan ch).rd HRD_NEXTSRC_STPASS ∧
      ∀ o, o ≠ ch → t.chan o = s.chan o) ∧
  (∀ (ch : Chan) (mask : Word) (s : State), s.mpReaches ch = true → (s.chan ch).mayReset = true →
    ∃ t, exec (.mpBlockEnable ch mask) s = .next t ∧ (t.mss.port ch).reply = some (true, []) ∧
      (s.chan ch).sameBut [STW_BLKEN] (t.chan ch) ∧
      (∀ b < 17, resettable b = true → (t.chan ch).bit STW_BLKEN_BLK b = mask.toNat.testBit b) ∧
      ∀ o, o ≠ ch → t.chan o = s.chan o) ∧
  (∀ (ch : Chan) (mask : Word) (s : State), s.mpReaches ch = true → (s.chan ch).mayReset = true →
    (∀ b < 17, mask.toNat.testBit b = true → resettable b = true) →
    ∃ t, exec (.mpBlockReset ch mask) s = .next t ∧ (t.mss.port ch).reply = some (true, []) ∧
      (s.chan ch).sameBut [STW_BLKSTAT] (t.chan ch) ∧
      ∀ b < 17, (t.chan ch).bit STW_BLKSTAT_BLK b = ((s.chan ch).bit STW_BLKSTAT_BLK b || mask.toNat.testBit b)) ∧
  (∀ (ch : Chan) (s : State), s.mpReaches ch = true → (s.chan ch).mayReset = true →
    ∃ t, exec (.mpChannelReset ch) s = .next t ∧ (t.mss.port ch).reply = some (true, []) ∧
      (t.chan ch).resetting = true ∧ (t.chan ch).rd STW_RSTCAUSE_CAUSE = 4 ∧ ∀ o, o ≠ ch → t.chan o = s.chan o) ∧
  (∀ (ch : Chan) (i : Instr) (s : State), s.mpReaches ch = true → (s.chan ch).voting = true →
    (s.chan ch).rd STW_MODE_MODE ≠ 6 → (s.chan ch).rd STW_MODE_MODE ≠ 7 → (s.chan ch).spares 10 →
    ((∃ m, i = .mpBlockEnable ch m) ∨ (∃ m, i = .mpBlockReset ch m) ∨ i = .mpChannelReset ch ∨
      (∃ x y, i = .mpFolioLoad ch x y)) →
    ∃ t, exec i s = .next t ∧ (t.mss.port ch).reply = some (false, []) ∧ (t.chan ch).resetting = false ∧
      (t.chan ch).rd STW_REFUSE_COUNT = satInc 16 ((s.chan ch).rd STW_REFUSE_COUNT) ∧
      (t.chan ch).rd STW_BLKEN_BLK = (s.chan ch).rd STW_BLKEN_BLK ∧
      (t.chan ch).rd STW_BLKSTAT_BLK = (s.chan ch).rd STW_BLKSTAT_BLK ∧ ∀ o, o ≠ ch → t.chan o = s.chan o) ∧
  (∀ (ch : Chan) (hreq : Fin 4) (s : State), s.mpReaches ch = true → (hreq = 1 ∨ hreq = 2) →
    ∃ t, exec (.mpPlannedAbsence ch hreq) s = .next t ∧ (t.mss.port ch).reply = some (true, []) ∧
      ((s.chan ch).voting = true → (t.chan ch).hrd.hreq = hreq ∧ (s.chan ch).sameBut [] (t.chan ch)) ∧
      ((s.chan ch).voting = false → (t.chan ch).is HRD_REQ_REFUSED = true ∧ (s.chan ch).sameBut [HRD_REQ] (t.chan ch)) ∧
      ∀ o, o ≠ ch → t.chan o = s.chan o) ∧
  (∀ (ch : Chan) (s : State), s.mpReaches ch = true → s.mayOpen ch = true →
    ∃ t, exec (.mpDebugAccess ch true) s = .next t ∧ (t.mss.port ch).reply = some (true, []) ∧
      ((s.chan ch).otp.lc = 3 → (t.chan ch).dbg.token = true) ∧ (t.chan ch).portOpen = true ∧
      (s.chan ch).sameBut [] (t.chan ch) ∧ ∀ o, o ≠ ch → t.chan o = s.chan o) ∧
  (∀ (ch : Chan) (s : State), s.mpReaches ch = true → (s.chan ch).dbg.token = true →
    (s.chan ch).is STW_DBG_ABSENT = false →
    ∃ t, exec (.mpDebugAccess ch false) s = .next t ∧ (t.mss.port ch).reply = some (true, []) ∧
      (t.chan ch).dbg = {} ∧ (s.chan ch).sameBut [STW_DBG] (t.chan ch) ∧ ∀ o, o ≠ ch → t.chan o = s.chan o) ∧
  (∀ (ch : Chan) (s : State), s.mpReaches ch = true → s.mayOpen ch = false → (s.chan ch).spares 10 →
    ∃ t, exec (.mpDebugAccess ch true) s = .next t ∧ (t.mss.port ch).reply = some (false, []) ∧
      (t.chan ch).dbg = (s.chan ch).dbg ∧
      (t.chan ch).rd STW_REFUSE_COUNT = satInc 16 ((s.chan ch).rd STW_REFUSE_COUNT))

/-- R10, R11, R69, R72, R36, R177, R29: a word written by the pair to a register that does no more than hold its fields
leaves in each field what its access type says and answers; after the seal a write that would change an LCK field
leaves every LCK field, counts in STW_SEAL and raises SEAL_VIOL (9); W1S of STW_SEAL.SEAL seals the channel; a store of
the pair to SRAM, of an engine to its own TCM and of the MP to its SRAM stores its bytes; a write of FCE0 or FCE1 to
ENC or XLK changes nothing; an address without a register or memory, or outside an engine's map, and a byte or halfword
write to a register end in a bus error and change nothing. Where the spec leaves a corner open the statement rests on
the model's reading, log entries 14, 24. -/
def Obligations.RegisterWritesFollowAccessTypes : Prop :=
  (∀ (ch : Chan) (a : Nat) (v : Word) (row : RegRow) (s : State), (s.chan ch).live = true → a % 4 = 0 →
    0x40000000 ≤ a → a < 0x50000000 → findRow channelRows a = some row → actingReg a = false →
    ((s.chan ch).is STW_SEAL_SEAL && changesLck ((s.chan ch).regs.word a).toNat v.toNat row.flds) = false →
    ∃ t, exec (.registerWrite ch .pair a v .word) s = .next t ∧ s.onlyChan ch t ∧ (s.chan ch).sameBut [a] (t.chan ch) ∧
      (t.chan ch).bus = .ok 0 ∧
      (t.chan ch).regs.word a = BitVec.ofNat 32 (writeFlds ((s.chan ch).is STW_SEAL_SEAL)
        ((s.chan ch).regs.word a).toNat v.toNat row.flds)) ∧
  (∀ (ch : Chan) (a : Nat) (v : Word) (row : RegRow) (s : State), (s.chan ch).live = true → a % 4 = 0 →
    0x40000000 ≤ a → a < 0x50000000 → findRow channelRows a = some row → actingReg a = false → (s.chan ch).is STW_SEAL_SEAL = true →
    changesLck ((s.chan ch).regs.word a).toNat v.toNat row.flds = true → (s.chan ch).blockOn 0 = true →
    (s.chan ch).fcc.tag = none → (s.chan ch).spares 9 →
    ∃ t, exec (.registerWrite ch .pair a v .word) s = .next t ∧ s.onlyChan ch t ∧
      (t.chan ch).srcBit FCC_STAT_SRC 9 = true ∧ (t.chan ch).is STW_SEAL_VIOL = true ∧
      (t.chan ch).rd STW_SEAL_VIOL_CNT = satInc 16 ((s.chan ch).rd STW_SEAL_VIOL_CNT) ∧
      ((s.chan ch).is STW_SEAL_VIOL = false → (t.chan ch).rd STW_SEALADDR_ADDR = a % 2 ^ 32) ∧
      ∀ f ∈ row.flds, f.2.2 = .lck →
        ((t.chan ch).regs.word a).toNat / 2 ^ f.1 % 2 ^ f.2.1 = ((s.chan ch).regs.word a).toNat / 2 ^ f.1 % 2 ^ f.2.1) ∧
  (∀ (ch : Chan) (v : Word) (s : State), (s.chan ch).live = true → v.getLsbD 0 = true →
    ∃ t, exec (.registerWrite ch .pair STW_SEAL v .word) s = .next t ∧ s.onlyChan ch t ∧
      (s.chan ch).sameBut [STW_SEAL, FOL_STAT, FCC_EPIN] (t.chan ch) ∧ (t.chan ch).is STW_SEAL_SEAL = true ∧
      (t.chan ch).is FOL_STAT_SEALED = true) ∧
  (∀ (ch : Chan) (a : Nat) (v : Word) (z : AccSize) (s : State), (s.chan ch).live = true →
    (s.chan ch).is STW_SEAL_SEAL = false → inMem .sram a (AccSize.bytes z) = true →
    ∃ t, exec (.registerWrite ch .pair a v z) s = .next t ∧ s.onlyChan ch t ∧ (t.chan ch).regs = (s.chan ch).regs ∧
      (t.chan ch).bus = .ok 0 ∧
      (∀ i < AccSize.bytes z, (t.chan ch).sram.read (a + i) = BitVec.ofNat 8 (v.toNat / 256 ^ i)) ∧
      (∀ b, b < a ∨ a + AccSize.bytes z ≤ b → (t.chan ch).sram.read b = (s.chan ch).sram.read b)) ∧
  (∀ (ch : Chan) (ag : Agent) (m : MemId) (a : Nat) (v : Word) (z : AccSize) (s : State), (s.chan ch).live = true →
    agentTcm ag = some m → inMem m a (AccSize.bytes z) = true →
    ∃ t, exec (.registerWrite ch ag a v z) s = .next t ∧ s.onlyChan ch t ∧ (t.chan ch).regs = (s.chan ch).regs ∧
      (t.chan ch).bus = .ok 0 ∧
      (∀ i < AccSize.bytes z, ((t.chan ch).mem m).read (a + i) = BitVec.ofNat 8 (v.toNat / 256 ^ i)) ∧
      (∀ b, b < a ∨ a + AccSize.bytes z ≤ b → ((t.chan ch).mem m).read b = ((s.chan ch).mem m).read b) ∧
      ∀ n, n ≠ m → (t.chan ch).mem n = (s.chan ch).mem n) ∧
  (∀ (ch : Chan) (ag : Agent) (a : Nat) (v : Word) (s : State), (s.chan ch).live = true → ag = .fce0 ∨ ag = .fce1 →
    (0x40080000 ≤ a ∧ a < 0x40090000 ∨ 0x40060000 ≤ a ∧ a < 0x40070000) →
    ∃ t, exec (.registerWrite ch ag a v .word) s = .next t ∧ s.onlyChan ch t ∧ (s.chan ch).sameBut [] (t.chan ch)) ∧
  (∀ (ch : Chan) (ag : Agent) (a : Nat) (v : Word) (z : AccSize) (s : State), (s.chan ch).live = true → ag ≠ .mp →
    0x40000000 ≤ a →
    (z ≠ .word ∨ (agentAddr ag a = none ∧ agentReadOnly ag a = false) ∨ (ag = .pair ∧ a < 0x50000000 ∧
      findRow channelRows a = none ∧ ¬(0x400A8000 ≤ a ∧ a < 0x400A9000) ∧ ¬(0x400C1000 ≤ a ∧ a < 0x400C1700))) →
    ∃ t, exec (.registerWrite ch ag a v z) s = .next t ∧ s.onlyChan ch t ∧ (s.chan ch).sameBut [] (t.chan ch) ∧
      (t.chan ch).bus = .error) ∧
  (∀ (ch : Chan) (a : Nat) (v : Word) (z : AccSize) (s : State), s.mss.mpRuns = true →
    ∃ t, exec (.registerWrite ch .mp a v z) s = .next t ∧
      (a + AccSize.bytes z ≤ 0x80000 → s.onlyMss t ∧ t.mss.bus = .ok 0 ∧ t.mss.regs = s.mss.regs ∧
        (∀ i < AccSize.bytes z, t.mss.sram.read (a + i) = BitVec.ofNat 8 (v.toNat / 256 ^ i)) ∧
        ∀ b, b < a ∨ a + AccSize.bytes z ≤ b → t.mss.sram.read b = s.mss.sram.read b) ∧
      (0x80000 < a + AccSize.bytes z → (z ≠ .word ∨ findRow (mpRows ++ keyRows) a = none) →
        s.onlyMss t ∧ t.mss.bus = .error ∧ t.mss.regs = s.mss.regs ∧ t.mss.sram = s.mss.sram))

/-- R61, R62, R71, R139, R492, R493: the one honoured write of FOL_CTRL before the seal starts the load, from the MSS
for SRC 0 to 2 and from the peers for SRC 3, with HRD_NEXTSRC.VALID from the source and peer named there; a further one
changes nothing. The MSS answers with its slots, the ACTIVE one first for SRC 0; 20 ms without an answer the channel of
SRC 0 goes to the peers with 0x50 for the slots not tried; the request to the peers is repeated, answered by the
serving channel, or fails the load with 0x50. Where the spec leaves a corner open the statement rests on the model's
reading, log entry 21. -/
def Obligations.FolioSourcesAreTried : Prop :=
  (∀ (ch : Chan) (v : Word) (s : State), (s.chan ch).live = true → (s.chan ch).is STW_SEAL_SEAL = false →
    (s.chan ch).fol.started = false → (s.chan ch).is HRD_NEXTSRC_VALID = false → v.toNat % 4 ≠ 3 →
    (s.chan ch).mlink = true → (s.mss.port (s.chan ch).me).up = true →
    ∃ t, exec (.folCtrlWrite ch v) s = .next t ∧ s.onlyChan ch t ∧
      (s.chan ch).sameBut [FOL_CTRL, HRD_NEXTSRC, FOL_STAT] (t.chan ch) ∧ (t.chan ch).rd FOL_CTRL_SRC = v.toNat % 4 ∧
      (t.chan ch).rd HRD_NEXTSRC_VALID = 0 ∧ (t.chan ch).rd FOL_STAT_STAGE = 1 ∧ (t.chan ch).fol.started = true ∧
      (t.chan ch).fol.src = v.toNat % 4 ∧ (t.chan ch).fol.asked = true) ∧
  (∀ (ch : Chan) (v : Word) (s : State), (s.chan ch).live = true → (s.chan ch).is STW_SEAL_SEAL = false →
    (s.chan ch).fol.started = false → (s.chan ch).is HRD_NEXTSRC_VALID = false → v.toNat % 4 = 3 → v.toNat / 16 % 4 ≠ 0 → v.toNat / 16 % 4 ≠ (s.chan ch).me.num →
    ∃ t, exec (.folCtrlWrite ch v) s = .next t ∧ s.onlyChan ch t ∧
      (s.chan ch).sameBut [FOL_CTRL, HRD_NEXTSRC, FOL_STAT] (t.chan ch) ∧ (t.chan ch).fol.waitPeer = true ∧
      (t.chan ch).fol.src = 3 ∧ (t.chan ch).fol.peer = v.toNat / 16 % 4 ∧ (t.chan ch).rd FOL_STAT_STAGE = 1) ∧
  (∀ (ch : Chan) (v : Word) (s : State), (s.chan ch).live = true → (s.chan ch).is STW_SEAL_SEAL = false →
    (s.chan ch).fol.started = false → (s.chan ch).is HRD_NEXTSRC_VALID = true → (s.chan ch).rd HRD_NEXTSRC_SRC ≠ 3 →
    (s.chan ch).mlink = true → (s.mss.port (s.chan ch).me).up = true →
    ∃ t, exec (.folCtrlWrite ch v) s = .next t ∧ s.onlyChan ch t ∧
      (s.chan ch).sameBut [FOL_CTRL, HRD_NEXTSRC, FOL_STAT] (t.chan ch) ∧
      (t.chan ch).rd FOL_CTRL_SRC = (s.chan ch).rd HRD_NEXTSRC_SRC ∧ (t.chan ch).rd FOL_CTRL_PEER = (s.chan ch).rd HRD_NEXTSRC_PEER ∧
      (t.chan ch).rd HRD_NEXTSRC_VALID = 0 ∧ (t.chan ch).fol.src = (s.chan ch).rd HRD_NEXTSRC_SRC ∧
      (t.chan ch).fol.asked = true) ∧
  (∀ (ch : Chan) (v : Word) (s : State), (s.chan ch).live = true → (s.chan ch).is STW_SEAL_SEAL = false →
    (s.chan ch).fol.started = true →
    ∃ t, exec (.folCtrlWrite ch v) s = .next t ∧ s.onlyChan ch t ∧ t.chan ch = s.chan ch) ∧
  (∀ (ch : Chan) (s : State), (s.chan ch).live = true → (s.chan ch).fol.asked = true → (s.chan ch).mlink = true →
    (s.mss.port (s.chan ch).me).up = true → s.mss.ready = true → s.mss.mpRuns = true → s.mss.active < 2 →
    (s.chan ch).fol.src < 3 →
    ∃ t, exec (.folioRequest ch) s = .next t ∧ s.onlyChan ch t ∧ (s.chan ch).sameBut [FOL_STAT] (t.chan ch) ∧
      (t.chan ch).fol.asked = false ∧ (t.chan ch).rd FOL_STAT_STAGE = 1 ∧ (t.chan ch).fol.keys = s.mss.key.keys ∧
      (t.chan ch).otp = (s.chan ch).otp.join s.mss.key.otp ∧
      (t.chan ch).fol.cur = if (s.chan ch).fol.src = 0 then s.mss.active + 1 else (s.chan ch).fol.src) ∧
  (∀ (ch : Chan) (s : State), (s.chan ch).live = true → (s.chan ch).fol.asked = true → (s.chan ch).fol.src = 0 →
    (s.chan ch).spares 63 → (s.chan ch).rd (FOL_RES_CODE 0) = 0xFF → (s.chan ch).rd (FOL_RES_CODE 1) = 0xFF →
    ∃ t, exec (.mssFolioTimeout ch) s = .next t ∧ s.onlyChan ch t ∧ (t.chan ch).fol.waitPeer = true ∧
      (t.chan ch).fol.asked = false ∧ (t.chan ch).fol.cur = 0 ∧ (t.chan ch).rd FOL_STAT_STAGE = 1 ∧
      (t.chan ch).rd (FOL_RES_CODE 0) = 0x50 ∧ (t.chan ch).rd (FOL_RES_CODE 1) = 0x50) ∧
  (∀ (ch : Chan) (s : State), (s.chan ch).live = true → (s.chan ch).fol.waitPeer = true → (s.chan ch).fol.cur = 0 →
    ∃ t, exec (.peerLoadRetry ch) s = .next t ∧ s.onlyChan ch t ∧ (s.chan ch).sameBut [] (t.chan ch) ∧
      (t.chan ch).fol.peerAsked = (s.server (s.chan ch)).isSome) ∧
  (∀ (ch requester : Chan) (s : State), (s.chan requester).live = true → (s.chan requester).fol.waitPeer = true →
    (s.chan requester).fol.peerAsked = true → s.server (s.chan requester) = some ch →
    ∃ t, exec (.peerLoadServe ch requester) s = .next t ∧ s.onlyChan requester t ∧
      (s.chan requester).sameBut [] (t.chan requester) ∧ (t.chan requester).fol.cur = 3 ∧
      (t.chan requester).fol.peerHash = some (s.chan ch).bodyHash ∧ (t.chan requester).fol.keys = (s.chan ch).fol.keys) ∧
  (∀ (ch : Chan) (s : State), (s.chan ch).live = true → (s.chan ch).fol.waitPeer = true → (s.chan ch).fol.cur = 0 →
    (s.chan ch).fcc.tag = none → (s.chan ch).spares 8 →
    ∃ t, exec (.peerLoadTimeout ch) s = .next t ∧ s.onlyChan ch t ∧ (t.chan ch).fol.waitPeer = false ∧
      (t.chan ch).rd (FOL_RES_CODE 2) = 0x50 ∧ (t.chan ch).is FOL_STAT_FAILED = true ∧ (t.chan ch).rd FOL_STAT_STAGE = 0)

/-- R56 to R58, R61, R67, R539: the parts of the source in progress are checked in their order; a spine, colophon and
body without an error take the load to stages 2, 5 and 7; an error is reported in FOL_RES of that source and the next
slot is read. An accepted Folio is applied and sealed, its body hash goes to the MSS, and FCE0, FCE1 and NETE are
released. Where the spec leaves a corner open the statement rests on the model's reading, log entries 18, 19, 20, 23.
-/
def Obligations.FolioPartsAreCheckedAndApplied : Prop :=
  (∀ (ch : Chan) (src : Src) (size : Nat) (bs : List Byte) (s : State), (s.chan ch).live = true →
    (s.chan ch).fol.accepted = false → (s.chan ch).fol.cur = srcNum src → (s.chan ch).rd FOL_STAT_STAGE = 1 →
    stage1 (if srcNum src = 3 then size else 4194304) bs = none →
    ∃ t, exec (.folioPartReceived ch src size (.spine bs)) s = .next t ∧ s.onlyChan ch t ∧
      (s.chan ch).sameBut [FOL_STAT] (t.chan ch) ∧ (t.chan ch).rd FOL_STAT_STAGE = 2 ∧ (t.chan ch).fol.spine = bs) ∧
  (∀ (ch : Chan) (src : Src) (size : Nat) (bs : List Byte) (s : State), (s.chan ch).live = true →
    (s.chan ch).fol.accepted = false → (s.chan ch).fol.cur = srcNum src → (s.chan ch).rd FOL_STAT_STAGE = 2 →
    ∃ t, exec (.folioPartReceived ch src size (.colophon bs)) s = .next t ∧ s.onlyChan ch t ∧
      ((s.chan ch).colophonErr bs = none → (s.chan ch).sameBut [FOL_STAT] (t.chan ch) ∧
        (t.chan ch).rd FOL_STAT_STAGE = 5 ∧ (t.chan ch).fol.colophon = bs) ∧
      (src = .slotA → (s.chan ch).fol.todo = [2, 3] → (s.chan ch).spares 63 →
        ∀ e, (s.chan ch).colophonErr bs = some e → (t.chan ch).rd (FOL_RES_CODE 0) = e.code % 256 ∧
          (t.chan ch).fol.cur = 2 ∧ (t.chan ch).fol.todo = [3] ∧ (t.chan ch).rd FOL_STAT_STAGE = 1)) ∧
  (∀ (ch : Chan) (src : Src) (size : Nat) (bs : List Byte) (s : State), (s.chan ch).live = true →
    (s.chan ch).fol.accepted = false → (s.chan ch).fol.cur = srcNum src → (s.chan ch).rd FOL_STAT_STAGE = 5 →
    (∀ o, o ≠ ch → (s.chan o).voting = false) → (s.chan ch).me = ch →
    ∃ t, exec (.folioPartReceived ch src size (.body bs)) s = .next t ∧ s.onlyChan ch t ∧
      ((stage5 (s.chan ch).fol.spine (s.chan ch).fol.colophon bs).err = none →
        stage6 (stage5 (s.chan ch).fol.spine (s.chan ch).fol.colophon bs).recs = none →
        (s.chan ch).sameBut [FOL_STAT, FOL_RES (srcNum src - 1), FOL_POS (srcNum src - 1)] (t.chan ch) ∧
        (t.chan ch).rd FOL_STAT_STAGE = 7 ∧ (t.chan ch).rd FOL_STAT_SOURCE = srcNum src ∧ (t.chan ch).fol.accepted = true ∧
        (t.chan ch).rd (FOL_RES_CODE (srcNum src - 1)) = 0 ∧ (t.chan ch).fol.body = bs) ∧
      (src = .slotA → (s.chan ch).fol.todo = [2, 3] → (s.chan ch).spares 63 →
        ∀ e, (stage5 (s.chan ch).fol.spine (s.chan ch).fol.colophon bs).err = some e →
          (t.chan ch).rd (FOL_RES_CODE 0) = e.code % 256 ∧ (t.chan ch).fol.cur = 2 ∧ (t.chan ch).fol.todo = [3] ∧
          (t.chan ch).rd FOL_STAT_STAGE = 1)) ∧
  (∀ (ch : Chan) (size : Nat) (bs : List Byte) (e : FErr) (s : State), (s.chan ch).live = true →
    (s.chan ch).fol.accepted = false → (s.chan ch).fol.cur = 1 → (s.chan ch).rd FOL_STAT_STAGE = 1 →
    stage1 4194304 bs = some e → (s.chan ch).fol.todo = [2, 3] → (s.chan ch).spares 63 →
    ∃ t, exec (.folioPartReceived ch .slotA size (.spine bs)) s = .next t ∧ s.onlyChan ch t ∧
      (t.chan ch).rd (FOL_RES_CODE 0) = e.code % 256 ∧ (t.chan ch).fol.cur = 2 ∧ (t.chan ch).fol.todo = [3] ∧
      (t.chan ch).rd FOL_STAT_STAGE = 1) ∧
  (∀ (ch : Chan) (s : State), (s.chan ch).live = true → (s.chan ch).fol.accepted = true →
    ∃ t, exec (.folioApplyDone ch) s = .next t ∧ (∀ o, o ≠ ch → t.chan o = s.chan o) ∧ t.pending = s.pending ∧
      (t.chan ch).is STW_SEAL_SEAL = true ∧ (t.chan ch).is FOL_STAT_SEALED = true ∧ (t.chan ch).rd FOL_STAT_STAGE = 8 ∧
      (t.chan ch).rd PWR_BOOT_STEP = 7 ∧ (t.chan ch).fcc.engines = 14 ∧ (t.chan ch).fcc.loaded = true ∧
      (t.chan ch).fol.accepted = false ∧ (t.chan ch).rd FOL_COMPAT_VALUE = coCompat (s.chan ch).fol.colophon % 2 ^ 32 ∧
      (t.chan ch).sin.valid = 0 ∧ (t.chan ch).can.up = true)

/-- R112, R115, R183, R407: at a round start a member counts ROUND, sends the marker with its own TB and clears what it
held of the round before; the decision of the round before takes effect: view, mode and role; a channel whose severe
source removes it stops voting with its bridges under cause bit 9, and resets at a later boundary. The membership
decision is held for the next round start. R112, R113, R23, R25: a sealed channel forms its HB1 in the round; a
heartbeat of a peer that comes over a link that is up and in time is held by its origin, directly or by relay; one that
is late, or comes over a link that is down, leaves everything; one whose CRC fails is counted only; at 25 µs the HB1s
held directly are relayed with KIND 2 and the relay's number. Where the spec leaves a corner open the statement rests
on the model's reading, log entries 25, 27. -/
def Obligations.RoundsHoldHeartbeatsAndDecide : Prop :=
  (∀ (ch : Chan) (s : State), s.noTokens → (s.chan ch).live = true → (s.chan ch).voting = true →
    (s.chan ch).hrd.next = none → (s.chan ch).fcc.leave = false →
    ∃ t, exec (.roundStart ch) s = .next t ∧ s.onlyChan ch t ∧ (s.chan ch).sameBut [HRD_ROUND] (t.chan ch) ∧
      (t.chan ch).rd HRD_ROUND_VALUE = ((s.chan ch).rd HRD_ROUND_VALUE + 1) % 2 ^ 32 ∧
      (t.chan ch).hrd.round = (s.chan ch).hrd.round + 1 ∧ (t.chan ch).xlk.markOut = some (s.chan ch).tb ∧
      (t.chan ch).hrd.direct = [] ∧ (t.chan ch).hrd.relayed = [] ∧ (t.chan ch).hrd.hb1Out = none ∧
      (t.chan ch).hrd.cur = (s.chan ch).hrd.cur ∧ (t.chan ch).hrd.p1Now = (s.chan ch).pwr.p1Req) ∧
  (∀ (ch : Chan) (h : Herd) (s : State), s.noTokens → (s.chan ch).live = true → (s.chan ch).voting = true →
    (s.chan ch).hrd.next = some (h, 1) → (s.chan ch).fcc.leave = false → (s.chan ch).spares 48 → (s.chan ch).spares 49 →
    (s.chan ch).spares 50 →
    ∃ t, exec (.roundStart ch) s = .next t ∧ s.onlyChan ch t ∧ (t.chan ch).hrd.cur = h ∧ (t.chan ch).hrd.next = none ∧
      (t.chan ch).rd HRD_ROUND_VALUE = ((s.chan ch).rd HRD_ROUND_VALUE + 1) % 2 ^ 32 ∧ (t.chan ch).voting = true ∧
      (t.chan ch).rd STW_MODE_MODE = h.mode % 8) ∧
  (∀ (ch : Chan) (h : Herd) (s : State), s.noTokens → (s.chan ch).live = true → (s.chan ch).voting = true →
    (s.chan ch).hrd.next = some (h, 4) → (s.chan ch).fcc.leave = false →
    (∀ o, (s.chan o).hrd.cur.ret ≠ (s.chan ch).me.num) →
    ∃ t, exec (.roundStart ch) s = .next t ∧ s.onlyChan ch t ∧ (t.chan ch).voting = false ∧ (t.chan ch).role = 4 ∧
      (t.chan ch).hrd.next = none) ∧
  (∀ (ch : Chan) (s : State), s.noTokens → (s.chan ch).live = true → (s.chan ch).voting = true →
    (s.chan ch).fcc.leave = true → (∀ o, (s.chan o).hrd.cur.ret ≠ (s.chan ch).me.num) →
    ∃ t, exec (.roundStart ch) s = .next t ∧ s.onlyChan ch t ∧ (t.chan ch).voting = false ∧ (t.chan ch).role = 0 ∧
      ((t.chan ch).causes .S).testBit 9 = true ∧ ((t.chan ch).causes .P).testBit 9 = true ∧
      (t.chan ch).hrd.dropAt = boundary1 ((s.chan ch).hrd.round + 1 + 1)) ∧
  (∀ (ch : Chan) (env : Env) (s : State), (s.chan ch).live = true → (s.chan ch).voting = true → (s.chan ch).spares 15 →
    (s.chan ch).spares 16 →
    ∃ t, exec (.membershipDecision ch env) s = .next t ∧ s.onlyChan ch t ∧ (t.chan ch).hrd.cur = (s.chan ch).hrd.cur ∧
      (t.chan ch).hrd.next =
        some (((s.chan ch).decision env (s.crossIn (s.chan ch)) (s.newsOf (s.chan ch))).herd,
          ((s.chan ch).decision env (s.crossIn (s.chan ch)) (s.newsOf (s.chan ch))).role) ∧
      (t.chan ch).hrd.speed = env.speed ∧ (t.chan ch).voting = true) ∧
  (∀ (ch : Chan) (s : State), (s.chan ch).live = true → (s.chan ch).is STW_SEAL_SEAL = true →
    ∃ t, exec (.hb1Send ch false) s = .next t ∧ s.onlyChan ch t ∧ (s.chan ch).sameBut [HRD_STAT] (t.chan ch) ∧
      (t.chan ch).hrd.hb1Out = some (s.chan ch).hb1 ∧ (t.chan ch).rd HRD_STAT_ROLE = (s.chan ch).announced % 8) ∧
  (∀ (ch : Chan) (pkt : BitVec 64) (off : Nat) (s : State), (s.chan ch).live = true →
    hbGood (s.chan ch).me 1 20000 pkt off = true → (s.chan ch).hearsN (pktField pkt 4 2) = true →
    ∃ t, exec (.hb1Received ch pkt true off) s = .next t ∧ s.onlyChan ch t ∧ (s.chan ch).sameBut [] (t.chan ch) ∧
      kget none (t.chan ch).hrd.direct (pktField pkt 6 2 - 1) = some pkt ∧
      (t.chan ch).hrd.relayed = (s.chan ch).hrd.relayed) ∧
  (∀ (ch : Chan) (pkt : BitVec 64) (off : Nat) (s : State), (s.chan ch).live = true →
    hbGood (s.chan ch).me 2 45000 pkt off = true → (s.chan ch).hearsN (pktField pkt 4 2) = true →
    ∃ t, exec (.hb2Received ch pkt true off) s = .next t ∧ s.onlyChan ch t ∧ (s.chan ch).sameBut [] (t.chan ch) ∧
      kget none (t.chan ch).hrd.relayed (pktField pkt 6 2 - 1) = some pkt ∧
      (t.chan ch).hrd.direct = (s.chan ch).hrd.direct) ∧
  (∀ (ch : Chan) (pkt : BitVec 64) (off : Nat) (s : State), (s.chan ch).live = true → 20000 < off →
    ∃ t, exec (.hb1Received ch pkt true off) s = .next t ∧ s.onlyChan ch t ∧ t.chan ch = s.chan ch) ∧
  (∀ (ch : Chan) (pkt : BitVec 64) (off : Nat) (i : Instr) (s : State), (s.chan ch).live = true →
    (s.chan ch).hearsN (pktField pkt 4 2) = false → (i = .hb1Received ch pkt true off ∨ i = .hb2Received ch pkt true off) →
    ∃ t, exec i s = .next t ∧ s.onlyChan ch t ∧ t.chan ch = s.chan ch) ∧
  (∀ (ch : Chan) (pkt : BitVec 64) (off : Nat) (s : State), (s.chan ch).live = true →
    ∃ t, exec (.hb2Received ch pkt false off) s = .next t ∧ s.onlyChan ch t ∧ (s.chan ch).sameBut [] (t.chan ch) ∧
      (t.chan ch).hrd.crcBad = (s.chan ch).hrd.crcBad + 1 ∧ (t.chan ch).hrd.relayed = (s.chan ch).hrd.relayed) ∧
  (∀ (ch : Chan) (s : State), (s.chan ch).live = true →
    ∃ t, exec (.hb2Relay ch) s = .next t ∧ s.onlyChan ch t ∧ (s.chan ch).sameBut [] (t.chan ch) ∧
      (∀ p ∈ (t.chan ch).hrd.hb2Out, pktField p 0 4 = 2 ∧ pktField p 4 2 = (s.chan ch).me.num) ∧
      (t.chan ch).hrd.hb2Out.length =
        ((s.chan ch).me.peers.filter fun p => (kget none (s.chan ch).hrd.direct p.idx).isSome).length)

/-- R115: the view kept is a set of the candidates that are joined by links that are up, and no joined set of the
candidates has more channels. -/
def Obligations.ViewIsALargestJoinedSet : Prop :=
  ∀ (l : List (Nat × BitVec 64)) (cand m : Nat), cand < 8 → 0 < m → m < 8 → m &&& cand = m → joined l m = true →
    largestSet l cand &&& cand = largestSet l cand ∧ joined l (largestSet l cand) = true ∧
      countMask m ≤ countMask (largestSet l cand)

/-- R78, R99, R104, R107, R89: without a cause of SAFE-STOP, a hold or a request and with the key on, the mode of FULL,
DUPLEX and SIMPLEX follows the redundancy level: 2 FULL, 1 DUPLEX, 0 SIMPLEX, save that a planned absence keeps DUPLEX;
an expired SIMPLEX timer, without a request, gives SAFE-STOP with STOPCAUSE 1; no drive mode is entered from SAFE-STOP
without a request, and PREV takes the mode left. Where the spec leaves a corner open the statement rests on the model's
reading, log entry 25. -/
def Obligations.ModeFollowsTheLevel : Prop :=
  (∀ (h : Herd) (l : List FolRec) (i : ModeIn) (since : Nat), h.mode = 2 ∨ h.mode = 3 ∨ h.mode = 4 →
    h.stopCauses l i = [] → i.keyOff = false → h.hold = none → i.req = 0 → h.planned = false → i.grant = false →
    (h.modeStep l i since).1.mode = modeOfLevel i.level ∧
      (h.modeStep l i since).1.prev = if modeOfLevel i.level = h.mode then h.prev else h.mode) ∧
  (∀ (h : Herd) (l : List FolRec) (i : ModeIn) (since : Nat), h.mode = 3 → h.stopCauses l i = [] → i.keyOff = false →
    h.hold = none → i.req = 0 → h.planned = true → i.level = 2 → (h.modeStep l i since).1.mode = 3) ∧
  (∀ (h : Herd) (l : List FolRec) (i : ModeIn) (since : Nat), h.mode = 4 → expired h.simplex (simplexRounds l) = true →
    i.req = 0 → (h.modeStep l i since).1.mode = 5 ∧ (h.modeStep l i since).1.stopcause = 1 ∧
      (h.modeStep l i since).1.prev = 4 ∧ (h.modeStep l i since).1.simplex = none) ∧
  (∀ (h : Herd) (l : List FolRec) (i : ModeIn) (since : Nat), h.mode = 5 → i.req = 0 →
    (h.modeStep l i since).1.mode = 5 ∨ (h.modeStep l i since).1.mode = 7 ∧ i.keyOff = true ∧ h.stationary = true)

/-- R87, R89, R92, R93, R95, R97: the timers and events of the modes, in a voting member: SIMPLEX and input-degraded
timer at their end, the input-degraded state cleared when every vote is valid, the bring-up window, the end of the
brake's rise at DECEL, full brake below 0.5 × DECEL, standstill. Each changes the agreed value it names and the mode
registers only. R111, R173: a mode request of a voting member waits for its next heartbeat and changes nothing else; in
any other channel it sets REQREF. A split channel that sees its own STATIONARY-type input enters SERVICE from BRING-UP.
Where the spec leaves a corner open the statement rests on the model's reading, log entries 7, 25, 31. -/
def Obligations.ModeTimersAndRequests : Prop :=
  (∀ (ch : Chan) (s : State), (s.chan ch).live = true → (s.chan ch).voting = true → (s.chan ch).hrd.cur.mode = 4 →
    ∃ t, exec (.simplexTimerExpiry ch) s = .next t ∧ s.onlyChan ch t ∧ (s.chan ch).sameBut modeRegs (t.chan ch) ∧
      (t.chan ch).hrd.cur.simplex = some (simplexRounds (s.chan ch).fol.recs) ∧
      (t.chan ch).rd STW_MODETMR_SIMPLEX_REM = 0) ∧
  (∀ (ch : Chan) (s : State), (s.chan ch).live = true → (s.chan ch).voting = true → (s.chan ch).hrd.cur.idegRun ≠ none →
    ∃ t, exec (.idegTimerExpiry ch) s = .next t ∧ s.onlyChan ch t ∧ (s.chan ch).sameBut modeRegs (t.chan ch) ∧
      (t.chan ch).hrd.cur.idegRun = some (idegRounds (s.chan ch).fol.recs) ∧
      (t.chan ch).hrd.cur.ideg = (s.chan ch).hrd.cur.ideg) ∧
  (∀ (ch : Chan) (s : State), (s.chan ch).live = true → (s.chan ch).voting = true →
    votesValid (s.chan ch).hrd.cur.votes = true →
    ∃ t, exec (.idegClear ch) s = .next t ∧ s.onlyChan ch t ∧ (s.chan ch).sameBut modeRegs (t.chan ch) ∧
      (t.chan ch).hrd.cur.ideg = false ∧ (t.chan ch).hrd.cur.idegRun = none ∧ (t.chan ch).is STW_MODE_IDEG = false) ∧
  (∀ (ch : Chan) (s : State), (s.chan ch).live = true → (s.chan ch).voting = true → (s.chan ch).hrd.cur.mode = 1 →
    ∃ t, exec (.bringupWindowEnd ch) s = .next t ∧ s.onlyChan ch t ∧ (s.chan ch).sameBut [] (t.chan ch) ∧
      (t.chan ch).hrd.cur.window = true) ∧
  (∀ (ch : Chan) (s : State), (s.chan ch).live = true → (s.chan ch).voting = true → (s.chan ch).hrd.cur.mode = 5 →
    (s.chan ch).hrd.cur.brake = 1 →
    ∃ t, exec (.safeStopRampEnd ch) s = .next t ∧ s.onlyChan ch t ∧ (s.chan ch).sameBut [] (t.chan ch) ∧
      (t.chan ch).hrd.cur.brake = 2 ∧ (t.chan ch).hrd.cur.demand = decelOf (s.chan ch).fol.recs) ∧
  (∀ (ch : Chan) (s : State), (s.chan ch).live = true → (s.chan ch).voting = true → (s.chan ch).hrd.cur.mode = 5 →
    (s.chan ch).hrd.cur.stationary = false → 2 * (s.chan ch).hrd.decel < decelOf (s.chan ch).fol.recs →
    ∃ t, exec (.safeStopFullBrake ch) s = .next t ∧ s.onlyChan ch t ∧ (s.chan ch).sameBut [] (t.chan ch) ∧
      (t.chan ch).hrd.cur.brake = 3) ∧
  (∀ (ch : Chan) (s : State), (s.chan ch).live = true → (s.chan ch).voting = true → (s.chan ch).hrd.speed < 20 →
    (s.chan ch).reactDeclared 3 = false →
    ∃ t, exec (.stationaryDeclared ch) s = .next t ∧ s.onlyChan ch t ∧ (s.chan ch).sameBut [] (t.chan ch) ∧
      (t.chan ch).hrd.cur.stationary = true ∧ ((s.chan ch).hrd.cur.mode = 5 → (t.chan ch).hrd.cur.brake = 4)) ∧
  (∀ (ch : Chan) (i : Instr) (req : Nat) (s : State),
    (i = .modeReqLeaveService ch ∧ req = 2 ∨ i = .modeReqSafeStop ch ∧ req = 5 ∨ i = .modeReqPark ch ∧ req = 7 ∨
      i = .modeReqService ch ∧ req = 6 ∧ (s.chan ch).lockstep = true) →
    (s.chan ch).live = true → (s.chan ch).voting = true →
    ∃ t, exec i s = .next t ∧ s.onlyChan ch t ∧ (s.chan ch).sameBut [] (t.chan ch) ∧ (t.chan ch).hrd.mreq = req) ∧
  (∀ (ch : Chan) (i : Instr) (s : State),
    (i = .modeReqLeaveService ch ∨ i = .modeReqSafeStop ch ∨ i = .modeReqPark ch ∨
      i = .modeReqService ch ∧ (s.chan ch).lockstep = true) →
    (s.chan ch).live = true → (s.chan ch).voting = false →
    ∃ t, exec i s = .next t ∧ s.onlyChan ch t ∧ (s.chan ch).sameBut [STW_MODE] (t.chan ch) ∧
      (t.chan ch).is STW_MODE_REQREF = true ∧ (t.chan ch).hrd = (s.chan ch).hrd) ∧
  (∀ (ch : Chan) (s : State), (s.chan ch).live = true → (s.chan ch).lockstep = false → (s.chan ch).voting = false →
    (s.chan ch).localActive 3 = true → (s.chan ch).rd STW_MODE_MODE = 1 →
    ∃ t, exec (.modeReqService ch) s = .next t ∧ s.onlyChan ch t ∧ (t.chan ch).rd STW_MODE_MODE = 6 ∧
      (t.chan ch).rd STW_MODE_PREV = 1 ∧ (t.chan ch).is GDR_STAT_INRST = false ∧
      ((t.chan ch).causes .S).testBit 8 = false ∧ ((t.chan ch).causes .P).testBit 8 = false)

/-- R120 to R123, R183, R86, R23: a member holds a join record of a channel that it hears; the admission reply of a
member sets ROUND and TB and the role from the next round start; either one is discarded and counted when its CRC
fails; a channel that hears nobody at the end of its listen round forms a herd of one in BRING-UP with fawn service; a
complete shadow and the end of the recovery window are noted. Where the spec leaves a corner open the statement rests
on the model's reading, log entry 27. -/
def Obligations.ChannelsJoinAndForm : Prop :=
  (∀ (ch : Chan) (rec : JoinRec) (s : State), (s.chan ch).live = true → (s.chan ch).voting = true →
    rec.from_ ≠ (s.chan ch).me → (s.chan ch).hears rec.from_ = true →
    ∃ t, exec (.joinRecord ch ⟨rec, true⟩) s = .next t ∧ s.onlyChan ch t ∧ (s.chan ch).sameBut [] (t.chan ch) ∧
      kget none (t.chan ch).hrd.joins rec.from_.idx = some rec) ∧
  (∀ (ch from_ : Chan) (rec : JoinRec) (gen round : Word) (tb : BitVec 48) (i : Instr) (s : State),
    (s.chan ch).live = true → (i = .joinRecord ch ⟨rec, false⟩ ∨ i = .admissionReply ch from_ gen round ⟨tb, false⟩) →
    ∃ t, exec i s = .next t ∧ s.onlyChan ch t ∧ t.chan ch = (s.chan ch).badCrc) ∧
  (∀ (ch from_ : Chan) (gen round : Word) (tb : BitVec 48) (s : State), (s.chan ch).live = true →
    (s.chan from_).voting = true → (s.chan from_).hrd.next = none → (s.chan ch).role = 4 →
    (s.chan ch).hrd.asking = true → (s.chan ch).voting = false → (s.chan ch).hears from_ = true →
    (s.chan from_).hrd.cur.view.testBit ((s.chan ch).me.num - 1) = true →
    ∃ t, exec (.admissionReply ch from_ gen round ⟨tb, true⟩) s = .next t ∧ s.onlyChan ch t ∧
      (s.chan ch).sameBut [HRD_ROUND] (t.chan ch) ∧ (t.chan ch).rd HRD_ROUND_VALUE = round.toNat ∧ (t.chan ch).tb = tb ∧
      (t.chan ch).hrd.next = some ({ (s.chan from_).hrd.cur with gen := gen.toNat }, 1) ∧
      (t.chan ch).hrd.asking = false) ∧
  (∀ (ch : Chan) (s : State), (s.chan ch).live = true → (s.chan ch).role = 4 → (s.chan ch).pwr.done7 = true →
    (s.chan ch).fcc.stayOut = false → (s.chan ch).cmp.swept = false → (s.chan ch).lockstep = true →
    (s.chan ch).hrd.direct = [] → (s.chan ch).hrd.relayed = [] → s.hashOwner (s.chan ch).me = (s.chan ch).me →
    (s.chan ch).spares 15 →
    ∃ t, exec (.listenRoundEnd ch) s = .next t ∧ s.onlyChan ch t ∧ (t.chan ch).voting = true ∧
      (t.chan ch).rd HRD_ROUND_VALUE = 0 ∧ (t.chan ch).hrd.cur.gen = 1 ∧
      (t.chan ch).hrd.cur.view = 2 ^ (s.chan ch).me.idx ∧ (t.chan ch).rd STW_MODE_MODE = 1 ∧
      (t.chan ch).is STW_MODE_FAWN = true) ∧
  (∀ (ch : Chan) (s : State), (s.chan ch).live = true → (s.chan ch).voting = true → (s.chan ch).hrd.cur.shadow ≠ 0 →
    (s.chan ch).hrd.cur.shNeed ≤ (s.chan ch).hrd.cur.shCycles →
    ∃ t, exec (.shadowComplete ch) s = .next t ∧ s.onlyChan ch t ∧ (s.chan ch).sameBut [] (t.chan ch) ∧
      (t.chan ch).hrd.cur.shDone = true) ∧
  (∀ (ch : Chan) (s : State), (s.chan ch).live = true → (s.chan ch).voting = true →
    ∃ t, exec (.recoveryWindowExpiry ch) s = .next t ∧ s.onlyChan ch t ∧ (s.chan ch).sameBut herdRegs (t.chan ch) ∧
      (t.chan ch).hrd.cur.recov = (s.chan ch).hrd.cur.recov.tail)

/-- R127, R132 to R136, R407: at a control-cycle boundary the switches due are performed and a shadow's cycle counts;
the channel that a severe source removed resets with cause 6. Task state is sent by the former host, before the switch
or after it, and taken by the new one, or kept for the switch where it comes first; a word of a home is written to the
local replica, and the update of a peer likewise; a job's release and end are timed. Where the spec leaves a corner
open the statement rests on the model's reading, log entry 30. -/
def Obligations.PlacementSwitchesAndJobs : Prop :=
  (∀ (ch : Chan) (s : State), (s.chan ch).live = true → (s.chan ch).voting = true → (s.chan ch).hrd.dropAt = 0 →
    (s.chan ch).hrd.round % 10 = 0 →
    ∃ t, exec (.controlCycleBoundary ch) s = .next t ∧ s.onlyChan ch t ∧
      (t.chan ch).hrd.cur.tasks =
        (s.chan ch).hrd.cur.tasks.map (fun p => (p.1, p.2.at (s.chan ch).hrd.round)) ∧
      (t.chan ch).hrd.cur.homes =
        (s.chan ch).hrd.cur.homes.map (fun p => (p.1, p.2.at (s.chan ch).hrd.round)) ∧
      (t.chan ch).hrd.cur.shCycles =
        if (s.chan ch).hrd.cur.shadow = 0 then (s.chan ch).hrd.cur.shCycles else (s.chan ch).hrd.cur.shCycles + 1) ∧
  (∀ (ch : Chan) (s : State), (s.chan ch).live = true → (s.chan ch).hrd.round % 10 = 0 →
    (s.chan ch).hrd.dropAt ≠ 0 → (s.chan ch).hrd.dropAt ≤ (s.chan ch).hrd.round →
    ∃ t, exec (.controlCycleBoundary ch) s = .next t ∧ s.onlyChan ch t ∧ (t.chan ch).resetting = true ∧
      (t.chan ch).rd STW_RSTCAUSE_CAUSE = 6) ∧
  (∀ (ch : Chan) (task : Fin 256) (o : PObj) (s : State), (s.chan ch).live = true → (s.chan ch).taskDecl task = some o →
    (s.chan ch).addrOf true task ≠ 0 → (kget noPlace (s.chan ch).hrd.cur.tasks task).copy = true →
    (kget noPlace (s.chan ch).hrd.cur.tasks task).b1 ≠ 0 →
    ∃ t, exec (.migrationStateSend ch task) s = .next t ∧ s.onlyChan ch t ∧ (s.chan ch).sameBut [] (t.chan ch) ∧
      (t.chan ch).hrd.stateOut = (s.chan ch).hrd.stateOut ++
        [((task : Nat), (s.chan ch).sram.readBytes ((s.chan ch).addrOf true task) o.size)]) ∧
  (∀ (ch : Chan) (task : Fin 256) (o : PObj) (s : State), (s.chan ch).live = true → (s.chan ch).taskDecl task = some o →
    o.id = task → (s.chan ch).addrOf true task = 0 → kget 0 (s.chan ch).hrd.lastAddr task ≠ 0 →
    (kget noPlace (s.chan ch).hrd.cur.tasks task).moved = true →
    ∃ t, exec (.migrationStateSend ch task) s = .next t ∧ s.onlyChan ch t ∧ (s.chan ch).sameBut [] (t.chan ch) ∧
      kget 0 (t.chan ch).hrd.lastAddr task = 0 ∧
      (t.chan ch).hrd.stateOut = (s.chan ch).hrd.stateOut ++
        [((task : Nat), (s.chan ch).sram.readBytes (kget 0 (s.chan ch).hrd.lastAddr task) o.size)]) ∧
  (∀ (ch : Chan) (task : Fin 256) (bytes : List Byte) (o : PObj) (s : State), (s.chan ch).live = true →
    (s.chan ch).taskDecl task = some o → (s.chan ch).addrOf true task ≠ 0 → bytes.length = o.size →
    (kget {} (s.chan ch).hrd.jobs task).awaiting = true → (s.chan ch).hrd.links &&& ownLinks (s.chan ch).me ≠ 0 →
    ∃ t, exec (.migrationStateArrived ch task ⟨bytes, true⟩) s = .next t ∧ s.onlyChan ch t ∧
      (t.chan ch).regs = (s.chan ch).regs ∧ (kget {} (t.chan ch).hrd.jobs task).awaiting = false ∧
      (∀ i < o.size, (t.chan ch).sram.read ((s.chan ch).addrOf true task + i) = bytes.getD i 0) ∧
      (∀ b, b < (s.chan ch).addrOf true task ∨ (s.chan ch).addrOf true task + o.size ≤ b →
        (t.chan ch).sram.read b = (s.chan ch).sram.read b)) ∧
  (∀ (ch : Chan) (task : Fin 256) (bytes : List Byte) (o : PObj) (s : State), (s.chan ch).live = true →
    (s.chan ch).taskDecl task = some o → (s.chan ch).addrOf true task = 0 → bytes.length = o.size →
    (kget noPlace (s.chan ch).hrd.cur.tasks task).b1 ≠ 0 → (kget noPlace (s.chan ch).hrd.cur.tasks task).copy = true →
    (kget noPlace (s.chan ch).hrd.cur.tasks task).atB2.testBit ch.idx = true →
    (s.chan ch).hrd.links &&& ownLinks (s.chan ch).me ≠ 0 →
    ∃ t, exec (.migrationStateArrived ch task ⟨bytes, true⟩) s = .next t ∧ s.onlyChan ch t ∧
      (s.chan ch).sameBut [] (t.chan ch) ∧ kget [] (t.chan ch).hrd.arrived task = bytes) ∧
  (∀ (ch : Chan) (home : Fin 256) (off : Nat) (v : Word) (i : Instr) (s : State), (s.chan ch).live = true →
    (s.chan ch).homeHas home off = true → (s.chan ch).hrd.links &&& ownLinks (s.chan ch).me ≠ 0 →
    (i = .dataHomeWrite ch home off v ∨ i = .dataHomeUpdateReceived ch home off ⟨v, true⟩) →
    ∃ t, exec i s = .next t ∧ s.onlyChan ch t ∧ (t.chan ch).regs = (s.chan ch).regs ∧
      (∀ k < 4, (t.chan ch).sram.read ((s.chan ch).addrOf false home + off + k) = BitVec.ofNat 8 (v.toNat / 256 ^ k)) ∧
      (∀ b, b < (s.chan ch).addrOf false home + off ∨ (s.chan ch).addrOf false home + off + 4 ≤ b →
        (t.chan ch).sram.read b = (s.chan ch).sram.read b) ∧
      (i = .dataHomeWrite ch home off v →
        (t.chan ch).hrd.homeOut = (s.chan ch).hrd.homeOut ++ [((home : Nat), off, v)])) ∧
  (∀ (ch : Chan) (task : Fin 256) (s : State), (s.chan ch).live = true → (s.chan ch).runs task = true →
    (kget {} (s.chan ch).hrd.jobs task).awaiting = false →
    ∃ t, exec (.jobRelease ch task) s = .next t ∧ s.onlyChan ch t ∧ (s.chan ch).sameBut [] (t.chan ch) ∧
      (kget {} (t.chan ch).hrd.jobs task).starts =
        (kget {} (s.chan ch).hrd.jobs task).starts ++ [(s.chan ch).tb.toNat]) ∧
  (∀ (ch : Chan) (task : Fin 256) (s : State), (s.chan ch).live = true → (s.chan ch).runs task = true →
    (kget {} (s.chan ch).hrd.jobs task).awaiting = true →
    ∃ t, exec (.jobRelease ch task) s = .next t ∧ s.onlyChan ch t ∧ (s.chan ch).sameBut [HRD_MIG] (t.chan ch) ∧
      (t.chan ch).rd HRD_MIG_SKIP = satInc 16 ((s.chan ch).rd HRD_MIG_SKIP)) ∧
  (∀ (ch : Chan) (task : Fin 256) (crc : Word) (o : PObj) (t0 : Nat) (later : List Nat) (s : State),
    (s.chan ch).live = true → (s.chan ch).isShadow = false → (s.chan ch).taskDecl task = some o → o.id = task →
    (kget {} (s.chan ch).hrd.jobs task).starts = t0 :: later →
    ∃ t, exec (.hrdDone ch task crc) s = .next t ∧ s.onlyChan ch t ∧ (s.chan ch).sameBut [] (t.chan ch) ∧
      (kget {} (t.chan ch).hrd.jobs task).starts = later ∧ (kget {} (t.chan ch).hrd.jobs task).crc = crc.toNat ∧
      (ceilDiv ((s.chan ch).tb.toNat - t0) 200 ≤ (s.chan ch).effbud o →
        (kget {} (t.chan ch).hrd.jobs task).run = 0 ∧ (t.chan ch).hrd.report = (s.chan ch).hrd.report) ∧
      ((s.chan ch).effbud o < ceilDiv ((s.chan ch).tb.toNat - t0) 200 → (kget {} (s.chan ch).hrd.jobs task).run = 7 →
        (t.chan ch).hrd.report = (s.chan ch).hrd.report ++ [((task : Nat),
          max (kget {} (s.chan ch).hrd.jobs task).most (ceilDiv ((s.chan ch).tb.toNat - t0) 200))]))

/-- R105, R137, R140, R141, R145, R148, R149: requests for rotations, for their abort and for a repair absence wait for
the heartbeats in a voting member and are refused outside the herd; a request dropped is shown; the gap, the return
deadline and the proof-test schedule take effect in the agreed value; the repeated commit report is acknowledged by an
MSS whose commit is done. Where the spec leaves a corner open the statement rests on the model's reading, log entries
31, 70. -/
def Obligations.AbsencesAreRequestedAndScheduled : Prop :=
  (∀ (ch : Chan) (i : Instr) (req : Nat) (s : State),
    (i = .hreqUpdateRotation ch ∧ req = 1 ∨ i = .hreqProofTest ch ∧ req = 2 ∨ i = .hreqAbort ch ∧ req = 3) →
    (s.chan ch).live = true → (s.chan ch).voting = true →
    ∃ t, exec i s = .next t ∧ s.onlyChan ch t ∧ (s.chan ch).sameBut [] (t.chan ch) ∧ (t.chan ch).hrd.hreq = req) ∧
  (∀ (ch : Chan) (i : Instr) (s : State),
    (i = .hreqUpdateRotation ch ∨ i = .hreqProofTest ch ∨ i = .hreqAbort ch ∨ i = .repairRequest ch) →
    (s.chan ch).live = true → (s.chan ch).voting = false →
    ∃ t, exec i s = .next t ∧ s.onlyChan ch t ∧ (s.chan ch).sameBut [HRD_REQ] (t.chan ch) ∧
      (t.chan ch).is HRD_REQ_REFUSED = true ∧ (t.chan ch).hrd = (s.chan ch).hrd) ∧
  (∀ (ch : Chan) (s : State), (s.chan ch).live = true → (s.chan ch).voting = true → (s.chan ch).health ≠ 0 →
    ∃ t, exec (.repairRequest ch) s = .next t ∧ s.onlyChan ch t ∧ (s.chan ch).sameBut [] (t.chan ch) ∧
      (t.chan ch).hrd.repair = true) ∧
  (∀ (ch : Chan) (s : State), (s.chan ch).live = true → ((s.chan ch).hrd.hreq ≠ 0 ∨ (s.chan ch).hrd.repair = true) →
    ∃ t, exec (.absenceRequestDropped ch) s = .next t ∧ s.onlyChan ch t ∧ (s.chan ch).sameBut [HRD_REQ] (t.chan ch) ∧
      (t.chan ch).is HRD_REQ_REFUSED = true ∧ (t.chan ch).hrd.hreq = 0 ∧ (t.chan ch).hrd.repair = false) ∧
  (∀ (ch : Chan) (s : State), (s.chan ch).live = true → (s.chan ch).voting = true → (s.chan ch).hrd.cur.gap ≠ none →
    ∃ t, exec (.rotationNextRequest ch) s = .next t ∧ s.onlyChan ch t ∧ (s.chan ch).sameBut [] (t.chan ch) ∧
      (t.chan ch).hrd.cur.gap = some (s.chan ch).hrd.round) ∧
  (∀ (ch : Chan) (s : State), (s.chan ch).live = true → (s.chan ch).voting = true → (s.chan ch).hrd.cur.hold ≠ none →
    ∃ t, exec (.returnDeadline ch) s = .next t ∧ s.onlyChan ch t ∧ (s.chan ch).sameBut [] (t.chan ch) ∧
      (t.chan ch).hrd.cur.hold = some 2000) ∧
  (∀ (ch : Chan) (s : State), (s.chan ch).live = true → (s.chan ch).voting = true →
    ∃ t, exec (.proofTestDue ch) s = .next t ∧ s.onlyChan ch t ∧ (s.chan ch).sameBut herdRegs (t.chan ch) ∧
      (t.chan ch).hrd.cur.proofDue = true ∧ (t.chan ch).is HRD_PROOF_PENDING = true) ∧
  (∀ (ch : Chan) (s : State), (s.chan ch).live = true → (s.chan ch).voting = true →
    (s.chan ch).hrd.cur.overdue = false → (s.chan ch).blockOn 3 = true → (s.chan ch).fcc.tag = none →
    (s.chan ch).spares 17 →
    ∃ t, exec (.proofOverdue ch) s = .next t ∧ s.onlyChan ch t ∧ (t.chan ch).hrd.cur.overdue = true ∧
      (t.chan ch).is HRD_PROOF_OVERDUE = true ∧ (t.chan ch).srcBit FCC_STAT_SRC 17 = true ∧
      (t.chan ch).rd STW_MODE_MODE = (s.chan ch).rd STW_MODE_MODE) ∧
  (∀ (ch : Chan) (s : State), (s.chan ch).live = true → (s.chan ch).voting = true → (s.chan ch).hrd.cur.commitPend = true → s.served ch = true →
    s.mss.trial = none →
    ∃ t, exec (.commitReportRepeat ch) s = .next t ∧ t.pending = s.pending ∧ (t.chan ch).hrd.cur.commitPend = false)

/-- R158, R159, R174: a divergence or a checker fault of a pair in lockstep is captured in CMP_LAST and CMP_LASTPC,
makes the channel fail-silent and takes both bridges to cause bit 5; FAIL_SILENT_RESET hands the report that waits to
the MSS over the management link, resets the channel with cause 2 and keeps the capture. R160, R162: a digest that is
due sets DIGBUSY; the digest taken leaves the CRC-32C of each core's words in CMP_DIGL and CMP_DIGT and counts TAKEN; a
mismatch counts in CMP_LATCNT and raises CMP_LATENT (2). R165, R166: a step of the running sweep whose report is the
expected one passes without a status bit and the next step is due; a step that times out ends the sweep: FAILED, no
SWEEPOK, and the channel stays out of the herd. Where the spec leaves a corner open the statement rests on the model's
reading, log entries 32, 33. -/
def Obligations.ComparatorAndDigestsStopTheChannel : Prop :=
  (∀ (ch : Chan) (group : Fin 64) (pc : Word) (s : State), (s.chan ch).live = true → (s.chan ch).is CMP_STAT_SPLIT = false →
    ∃ t, exec (.cmpDiv ch group pc) s = .next t ∧ s.onlyChan ch t ∧ (t.chan ch).failSilent = true ∧
      (t.chan ch).rd CMP_LAST_KIND = 1 ∧ (t.chan ch).rd CMP_LAST_GROUP = group ∧
      (t.chan ch).rd CMP_LAST_EVENTS = satInc 16 ((s.chan ch).rd CMP_LAST_EVENTS) ∧
      (t.chan ch).regs.word CMP_LASTPC = pc ∧
      ((t.chan ch).causes .S).testBit 5 = true ∧ ((t.chan ch).causes .P).testBit 5 = true) ∧
  (∀ (ch : Chan) (kind : SelfKind) (pc : Word) (s : State), (s.chan ch).live = true →
    (s.chan ch).is CMP_STAT_SPLIT = false →
    ∃ t, exec (.cmpSelf ch kind pc) s = .next t ∧ s.onlyChan ch t ∧ (t.chan ch).failSilent = true ∧
      (t.chan ch).rd CMP_LAST_KIND = (match kind with
        | .checker _ => 2
        | .parity _ => 3) ∧
      (t.chan ch).rd CMP_LAST_GROUP = (match kind with
        | .checker n => (n : Nat)
        | .parity n => (n : Nat)) ∧
      (t.chan ch).regs.word CMP_LASTPC = pc ∧
      ((t.chan ch).causes .S).testBit 5 = true ∧ ((t.chan ch).causes .P).testBit 5 = true) ∧
  (∀ (ch : Chan) (s : State), (s.chan ch).failSilent = true → (s.chan ch).pwr.off = false →
    ∃ t, exec (.failSilentReset ch) s = .next t ∧ (∀ o, o ≠ ch → t.chan o = s.chan o) ∧ t.pending = s.pending ∧
      t.mss = (s.divergeReport ch).mss ∧
      ((∀ x ∈ (s.chan ch).logq, x.src ≠ 0x0101) → t.mss = s.mss) ∧
      ((∃ x ∈ (s.chan ch).logq, x.src = 0x0101) → (s.chan ch).mlink = true → s.mss.on = true →
        (s.mss.port ch).up = true → s.mss.log.intake.length < 256 →
        ∃ x, t.mss.log.intake = s.mss.log.intake ++ [x] ∧ x.src = 0x0101) ∧
      (t.chan ch).resetting = true ∧
      (t.chan ch).failSilent = false ∧ (t.chan ch).rd STW_RSTCAUSE_CAUSE = 2 ∧
      (t.chan ch).regs.word CMP_LAST = (s.chan ch).regs.word CMP_LAST ∧
      (t.chan ch).regs.word CMP_LASTPC = (s.chan ch).regs.word CMP_LASTPC) ∧
  (∀ (ch : Chan) (s : State), (s.chan ch).live = true → (s.chan ch).is CMP_STAT_SPLIT = false →
    (s.chan ch).rd STW_DBG_HALTED % 2 = 0 →
    ∃ t, exec (.digestDue ch) s = .next t ∧ s.onlyChan ch t ∧ (s.chan ch).sameBut [CMP_STAT] (t.chan ch) ∧
      (t.chan ch).is CMP_STAT_DIGBUSY = true) ∧
  (∀ (ch : Chan) (lead trail : List Word) (stall : Nat) (s : State), (s.chan ch).live = true →
    (s.chan ch).is CMP_STAT_DIGBUSY = true → crc32c (wordBytes lead) = crc32c (wordBytes trail) →
    ∃ t, exec (.digestTaken ch lead trail stall) s = .next t ∧ s.onlyChan ch t ∧
      (s.chan ch).sameBut [CMP_STAT, CMP_DIGL, CMP_DIGT, CMP_DIGSTAT] (t.chan ch) ∧
      (t.chan ch).is CMP_STAT_DIGBUSY = false ∧ (t.chan ch).rd CMP_DIGL_CRC = crc32c (wordBytes lead) % 2 ^ 32 ∧
      (t.chan ch).rd CMP_DIGT_CRC = crc32c (wordBytes trail) % 2 ^ 32 ∧
      (t.chan ch).rd CMP_DIGSTAT_TAKEN = ((s.chan ch).rd CMP_DIGSTAT_TAKEN + 1) % 2 ^ 16) ∧
  (∀ (ch : Chan) (lead trail : List Word) (stall : Nat) (s : State), (s.chan ch).live = true →
    (s.chan ch).is CMP_STAT_DIGBUSY = true → crc32c (wordBytes lead) ≠ crc32c (wordBytes trail) →
    (s.chan ch).blockOn 2 = true → (s.chan ch).fcc.tag = none → (s.chan ch).spares 2 →
    ∃ t, exec (.digestTaken ch lead trail stall) s = .next t ∧ s.onlyChan ch t ∧
      (t.chan ch).rd CMP_LATCNT_COUNT = satInc 16 ((s.chan ch).rd CMP_LATCNT_COUNT) ∧
      (t.chan ch).srcBit FCC_STAT_SRC 2 = true ∧ (t.chan ch).cmp.latent = true) ∧
  (∀ (ch : Chan) (v : Word) (s : State), (s.chan ch).live = true → (s.chan ch).is STW_SEAL_SEAL = false →
    (s.chan ch).is CMP_STAT_SWEEPRUN = true → v.toNat / 2 ^ 31 = 1 → (s.chan ch).hasRoom = true →
    (s.chan ch).cmp.step < (s.chan ch).lastStep → (s.chan ch).cmp.step < 128 →
    v.toNat / 2 ^ 10 % 4 = 0 → v.toNat / 2 ^ 8 % 2 = (s.chan ch).cmp.step / 64 → v.toNat % 64 = (s.chan ch).cmp.step % 64 →
    ∃ t, exec (.cmpInjStart ch v .expected) s = .next t ∧ s.onlyChan ch t ∧
      (t.chan ch).cmp.step = (s.chan ch).cmp.step + 1 ∧ (t.chan ch).rd CMP_SWEEP_STEP = (s.chan ch).cmp.step ∧
      (t.chan ch).is CMP_STAT_SWEEPRUN = true ∧ (t.chan ch).failSilent = false ∧
      (∀ n < 2, (t.chan ch).rd (FCC_STAT_SRC n) = (s.chan ch).rd (FCC_STAT_SRC n))) ∧
  (∀ (ch : Chan) (s : State), (s.chan ch).live = true → (s.chan ch).is CMP_STAT_SWEEPRUN = true →
    (s.chan ch).voted = false → (s.chan ch).hasRoom = true → (s.chan ch).fcc.tag = none →
    ((s.chan ch).severe 1 = true ∨ (s.chan ch).severeN 1 ≤ kget 0 (s.chan ch).fcc.runs 1 + 1) →
    ∃ t, exec (.sweepStepTimeout ch) s = .next t ∧ s.onlyChan ch t ∧ (t.chan ch).is CMP_SWEEP_FAILED = true ∧
      (t.chan ch).is CMP_STAT_SWEEPRUN = false ∧ (t.chan ch).is CMP_STAT_SWEEPOK = false ∧ (t.chan ch).cmp.swept = true ∧
      (t.chan ch).resetting = false)

/-- R36, R168, R169: a clean load delivers the bytes of the memory and changes nothing; a clean store writes its bytes
and no other byte; a single-bit error is corrected, counted and its word address shown; an access outside the memory,
and a store into the retained copy after the seal (R66), is a bus error and changes nothing. R169, R170: a double-bit
error met by a core access ends it in a bus error and leaves the memory, counted in CMP_ECC.UE; the patrol scrub counts
what it finds alike. Where the spec leaves a corner open the statement rests on the model's reading, log entries 9, 34.
-/
def Obligations.CoreAccessesAndMemoryErrors : Prop :=
  (∀ (ch : Chan) (m : MemId) (a : Nat) (z : AccSize) (s : State), (s.chan ch).live = true → inMem m a (AccSize.bytes z) = true →
    ∃ t, exec (.coreMemoryAccess ch m a (.load z) .clean) s = .next t ∧ s.onlyChan ch t ∧
      (s.chan ch).sameBut [] (t.chan ch) ∧
      (t.chan ch).bus = .ok (BitVec.ofNat 32 (leNat (((s.chan ch).mem m).readBytes a (AccSize.bytes z))))) ∧
  (∀ (ch : Chan) (m : MemId) (a : Nat) (z : AccSize) (v : Word) (s : State), (s.chan ch).live = true →
    inMem m a (AccSize.bytes z) = true → (m = .sram → (s.chan ch).is STW_SEAL_SEAL = false) →
    ∃ t, exec (.coreMemoryAccess ch m a (.store z v) .clean) s = .next t ∧ s.onlyChan ch t ∧
      (t.chan ch).regs = (s.chan ch).regs ∧ (t.chan ch).bus = .ok 0 ∧
      (∀ i < AccSize.bytes z, ((t.chan ch).mem m).read (a + i) = BitVec.ofNat 8 (v.toNat / 256 ^ i)) ∧
      (∀ b, b < a ∨ a + AccSize.bytes z ≤ b → ((t.chan ch).mem m).read b = ((s.chan ch).mem m).read b) ∧
      ∀ o, o ≠ m → (t.chan ch).mem o = (s.chan ch).mem o) ∧
  (∀ (ch : Chan) (m : MemId) (a : Nat) (z : AccSize) (s : State), (s.chan ch).live = true →
    inMem m a (AccSize.bytes z) = true → (s.chan ch).spares 3 →
    ∃ t, exec (.coreMemoryAccess ch m a (.load z) .single) s = .next t ∧ s.onlyChan ch t ∧
      (s.chan ch).sameButEvents [CMP_ECC, CMP_ECCCEA] (t.chan ch) ∧
      (t.chan ch).bus = .ok (BitVec.ofNat 32 (leNat (((s.chan ch).mem m).readBytes a (AccSize.bytes z)))) ∧
      (t.chan ch).rd CMP_ECC_CE = satInc 16 ((s.chan ch).rd CMP_ECC_CE) ∧
      (t.chan ch).rd CMP_ECCCEA_ADDR = eccAddr m a % 2 ^ 32) ∧
  (∀ (ch : Chan) (m : MemId) (a : Nat) (op : MemOp) (ecc : Ecc) (s : State), (s.chan ch).live = true →
    (inMem m a (MemOp.bytes op) = false ∨ (m = .sram ∧ (s.chan ch).is STW_SEAL_SEAL = true ∧ (∃ z v, op = .store z v) ∧
      0x20200000 - (s.chan ch).fol.retained < a + MemOp.bytes op ∧ a < 0x20200000)) →
    ∃ t, exec (.coreMemoryAccess ch m a op ecc) s = .next t ∧ s.onlyChan ch t ∧ (s.chan ch).sameBut [] (t.chan ch) ∧
      (t.chan ch).bus = .error) ∧
  (∀ (ch : Chan) (m : MemId) (a : Nat) (z : AccSize) (s : State), (s.chan ch).live = true →
    inMem m a (AccSize.bytes z) = true → (s.chan ch).sparesNow 4 →
    ∃ t, exec (.coreMemoryAccess ch m a (.load z) .double) s = .next t ∧ s.onlyChan ch t ∧
      (s.chan ch).sameButEvents [CMP_ECC, CMP_ECCUEA] (t.chan ch) ∧ (t.chan ch).bus = .error ∧
      (t.chan ch).mem m = (s.chan ch).mem m ∧ (t.chan ch).rd CMP_ECC_UE = satInc 16 ((s.chan ch).rd CMP_ECC_UE) ∧
      (t.chan ch).rd CMP_ECCUEA_ADDR = eccAddr m a % 2 ^ 32) ∧
  (∀ (ch : Chan) (m : MemId) (a : Nat) (s : State), (s.chan ch).live = true → inMem m a 1 = true → (s.chan ch).spares 3 →
    ∃ t, exec (.patrolScrub ch m a .single) s = .next t ∧ s.onlyChan ch t ∧
      (s.chan ch).sameButEvents [CMP_ECC, CMP_ECCCEA] (t.chan ch) ∧ (t.chan ch).mem m = (s.chan ch).mem m ∧
      (t.chan ch).rd CMP_ECC_CE = satInc 16 ((s.chan ch).rd CMP_ECC_CE)) ∧
  (∀ (ch : Chan) (m : MemId) (a : Nat) (s : State), (s.chan ch).live = true → inMem m a 1 = true →
    (s.chan ch).sparesNow 4 →
    ∃ t, exec (.patrolScrub ch m a .double) s = .next t ∧ s.onlyChan ch t ∧
      (s.chan ch).sameButEvents [CMP_ECC, CMP_ECCUEA] (t.chan ch) ∧ (t.chan ch).mem m = (s.chan ch).mem m ∧
      (t.chan ch).rd CMP_ECC_UE = satInc 16 ((s.chan ch).rd CMP_ECC_UE))

/-- R181, R185, R187, R188, R210, R211, R233: the bridge S valley latches TB and the link voltage, shows RUN and the
DC-link current and holds the samples, and with a silent digital die moves the power die alone; the completed
conversions give the own sample packet; the bridge P valley shows its sample delay and moves nothing of a pump at rest;
a bridge without a cause enters service at its peak with a result that is due; the offset calibration takes the means
of 256 samples and is good within OFSTOL. R183, R184, R196: a marker of the carrier reference moves TB of a channel
outside fawn service by at most 5 counts towards it; any other marker, and one over a link that is down, changes
nothing, and one that fails its CRC is only counted (R23); in fawn service the error is held for the valley that ends
it; the third error above 40 ns in a row raises CARRIER_SYNC (18). Rotor lock that ends makes the settled count angle 0
and aligns the encoder by 3. Where the spec leaves a corner open the statement rests on the model's reading, log
entries 37, 38. -/
def Obligations.CarrierValleysAndAlignment : Prop :=
  (∀ (ch : Chan) (v : SValley) (s : State), (s.chan ch).live = true → (s.chan ch).f0.fawnStep = false →
    (s.chan ch).spares 20 →
    ∃ t, exec (.bridgeSValley ch v) s = .next t ∧ s.onlyChan ch t ∧ (t.chan ch).rd GDR_LINK_VLC = v.vlc.toNat ∧
      (t.chan ch).rd (FCE_STAT_RUN 0) = 1 ∧ (t.chan ch).rd (FCE_IDC_VALUE 0) = ofSigned 32 v.idc ∧
      (t.chan ch).f0.pend = some v ∧ (t.chan ch).f0.t0 = (s.chan ch).tb.toNat ∧
      (t.chan ch).f0.bst0 = (s.chan ch).bstate .S) ∧
  (∀ (ch : Chan) (v : SValley) (s : State), (s.chan ch).live = false → (s.chan ch).pwr.off = false →
    ∃ t, exec (.bridgeSValley ch v) s = .next t ∧ s.onlyChan ch t ∧
      (s.chan ch).sameBut [GDR_LINK, GDR_MSTATE, GDR_LADCNT] (t.chan ch) ∧ (t.chan ch).rd GDR_LINK_VLC = v.vlc.toNat ∧
      (t.chan ch).f0 = (s.chan ch).f0) ∧
  (∀ (ch : Chan) (v : SValley) (s : State), (s.chan ch).live = true → (s.chan ch).f0.pend = some v →
    ∃ t, exec (.adcConversionDone ch) s = .next t ∧ s.onlyChan ch t ∧ (s.chan ch).sameBut [] (t.chan ch) ∧
      (t.chan ch).f0.pend = none ∧ ((t.chan ch).f0.set (s.chan ch).me).pkt = some (t.chan ch).f0.pktOut ∧
      pk (t.chan ch).f0.pktOut 0 4 = 1 ∧ spOrigin (t.chan ch).f0.pktOut = (s.chan ch).me.num ∧
      spVlc (t.chan ch).f0.pktOut = v.vlc.toNat) ∧
  (∀ (ch : Chan) (codeU codeV delay : Nat) (s : State), (s.chan ch).live = true → (s.chan ch).pump = 0 →
    ∃ t, exec (.bridgePValley ch codeU codeV delay) s = .next t ∧ s.onlyChan ch t ∧
      (s.chan ch).sameBut [FCE_PUMP, FCE_STAT 1, FCE_CONF 1, FCE_REGEN 1, GDR_MSTATE] (t.chan ch) ∧
      (t.chan ch).rd FCE_PUMP_SDLY = min 255 delay ∧ (t.chan ch).rd (FCE_STAT_RUN 1) = 1 ∧ (t.chan ch).pump = 0 ∧
      (t.chan ch).f1.iuPrev = phaseCurrent ((codeU : Int) - (s.chan ch).f1.offU)) ∧
  (∀ (ch : Chan) (b : Bridge) (s : State), (s.chan ch).pwr.off = false → (s.chan ch).causes b = 0 →
    (match b with
      | .S => (s.chan ch).xlk.used
      | .P => (s.chan ch).f1.issued) = true →
    ∃ t, exec (.carrierPeak ch b) s = .next t ∧ s.onlyChan ch t ∧ (s.chan ch).sameBut [GDR_MSTATE] (t.chan ch) ∧
      (t.chan ch).bstate b = 0 ∧ (t.chan ch).guard b = false ∧ (t.chan ch).causes b = 0) ∧
  (∀ (ch : Chan) (b : Bridge) (s : State), (s.chan ch).pwr.off = false → (s.chan ch).causes b ≠ 0 →
    ∃ t, exec (.carrierPeak ch b) s = .next t ∧ s.onlyChan ch t ∧ (s.chan ch).sameBut [] (t.chan ch) ∧
      ((match b with
        | .S => (s.chan ch).xlk.used
        | .P => (s.chan ch).f1.issued) = false → t.chan ch = s.chan ch)) ∧
  (∀ (ch : Chan) (sumU sumV : Nat) (s : State), (s.chan ch).live = true →
    ((((rdiv sumU 256).toNat : Int) - 8192).natAbs ≤ (s.chan ch).parF 0 26 16 16 ∧
      (((rdiv sumV 256).toNat : Int) - 8192).natAbs ≤ (s.chan ch).parF 0 26 16 16) →
    ∃ t, exec (.offsetCalibrationDone ch .S sumU sumV) s = .next t ∧ s.onlyChan ch t ∧
      (s.chan ch).sameBut [FCE_STAT 0, FCE_STAT 1] (t.chan ch) ∧ (t.chan ch).bit (FCE_STAT_OFSOK 0) 0 = true ∧
      (t.chan ch).f0.offU = (rdiv sumU 256).toNat ∧ (t.chan ch).f0.offV = (rdiv sumV 256).toNat) ∧
  (∀ (ch : Chan) (b : Bridge) (sumU sumV : Nat) (s : State), (s.chan ch).live = true →
    (s.chan ch).parF 0 26 16 16 < (((rdiv sumU 256).toNat : Int) - 8192).natAbs → (s.chan ch).fcc.tag = none →
    (s.chan ch).blockOn (match b with
      | .S => 4
      | .P => 5) = true → (s.chan ch).spares 19 →
    ∃ t, exec (.offsetCalibrationDone ch b sumU sumV) s = .next t ∧ s.onlyChan ch t ∧
      (t.chan ch).srcBit FCC_STAT_SRC 19 = true ∧
      (t.chan ch).bit (FCE_STAT_OFSOK 0) (match b with
        | .S => 0
        | .P => 1) = false) ∧
  (∀ (ch from_ : Chan) (tb : BitVec 48) (latency : Nat) (s : State), (s.chan ch).live = true → from_ ≠ (s.chan ch).me →
    (s.chan ch).rd HRD_STAT_REF = from_.num → (s.chan ch).is STW_MODE_FAWN = false →
    (s.chan ch).hears from_ = true → (s.chan ch).is (FCE_STAT_FAWN10 0) = false → (s.chan ch).f0.fawnStep = false →
    5 * (tbDiff (tb + BitVec.ofNat 48 latency) (s.chan ch).tb).natAbs ≤ 40 →
    ∃ t, exec (.carrierMarker ch from_ ⟨tb, true⟩ latency) s = .next t ∧ s.onlyChan ch t ∧
      (s.chan ch).sameBut [FCE_CARR 0, FCE_CARR 1] (t.chan ch) ∧ (t.chan ch).f0.lateMarks = 0 ∧
      (t.chan ch).tb = (s.chan ch).tb +
        BitVec.ofInt 48 (clampI (tbDiff (tb + BitVec.ofNat 48 latency) (s.chan ch).tb) (-5) 5)) ∧
  (∀ (ch from_ : Chan) (tb : BitVec 48) (latency : Nat) (s : State), (s.chan ch).live = true →
    (s.chan ch).rd HRD_STAT_REF ≠ from_.num ∨ (s.chan ch).hears from_ = false →
    ∃ t, exec (.carrierMarker ch from_ ⟨tb, true⟩ latency) s = .next t ∧ s.onlyChan ch t ∧ t.chan ch = s.chan ch) ∧
  (∀ (ch from_ : Chan) (tb : BitVec 48) (latency : Nat) (s : State), (s.chan ch).live = true →
    ∃ t, exec (.carrierMarker ch from_ ⟨tb, false⟩ latency) s = .next t ∧ s.onlyChan ch t ∧
      (s.chan ch).sameBut [XLK_LINK] (t.chan ch) ∧ (t.chan ch).tb = (s.chan ch).tb ∧
      (t.chan ch).rd XLK_LINK_CRCERR = satInc 8 ((s.chan ch).rd XLK_LINK_CRCERR)) ∧
  (∀ (ch from_ : Chan) (tb : BitVec 48) (latency : Nat) (s : State), (s.chan ch).live = true → from_ ≠ (s.chan ch).me →
    (s.chan ch).rd HRD_STAT_REF = from_.num → (s.chan ch).hears from_ = true → (s.chan ch).is STW_MODE_FAWN = true →
    ∃ t, exec (.carrierMarker ch from_ ⟨tb, true⟩ latency) s = .next t ∧ s.onlyChan ch t ∧
      (s.chan ch).sameBut [FCE_CARR 0, FCE_CARR 1] (t.chan ch) ∧ (t.chan ch).tb = (s.chan ch).tb ∧
      (t.chan ch).f0.align = tbDiff (tb + BitVec.ofNat 48 latency) (s.chan ch).tb) ∧
  (∀ (ch from_ : Chan) (tb : BitVec 48) (latency : Nat) (s : State), (s.chan ch).live = true → from_ ≠ (s.chan ch).me →
    (s.chan ch).rd HRD_STAT_REF = from_.num → (s.chan ch).is STW_MODE_FAWN = false → (s.chan ch).f0.lateMarks = 2 →
    (s.chan ch).hears from_ = true → (s.chan ch).is (FCE_STAT_FAWN10 0) = false → (s.chan ch).f0.fawnStep = false →
    40 < 5 * (tbDiff (tb + BitVec.ofNat 48 latency) (s.chan ch).tb).natAbs → (s.chan ch).blockOn 4 = true →
    (s.chan ch).fcc.tag = none → (s.chan ch).spares 18 →
    ∃ t, exec (.carrierMarker ch from_ ⟨tb, true⟩ latency) s = .next t ∧ s.onlyChan ch t ∧ (t.chan ch).f0.lateMarks = 0 ∧
      (t.chan ch).srcBit FCC_STAT_SRC 18 = true ∧
      (t.chan ch).rd (FCE_CARR_SYNCERR 0) = satInc 8 ((s.chan ch).rd (FCE_CARR_SYNCERR 0))) ∧
  (∀ (ch : Chan) (s : State), (s.chan ch).live = true → (s.chan ch).f0.rotorLock = true →
    (s.chan ch).is (FCE_STAT_ALIGNED 0) = false →
    ∃ t, exec (.rotorLockDone ch) s = .next t ∧ s.onlyChan ch t ∧ (s.chan ch).sameBut [FCE_STAT 0] (t.chan ch) ∧
      (t.chan ch).f0.rotorLock = false ∧ (t.chan ch).f0.cref = (s.chan ch).f0.latch ∧ (t.chan ch).f0.aoff = 0 ∧
      (t.chan ch).is (FCE_STAT_ALIGNED 0) = true ∧ (t.chan ch).rd (FCE_STAT_ALIGNBY 0) = 3)

/-- R200 to R202, R206, R248, R250: a pump that may start begins attempt 1 with its sector detection on a setpoint; the
phases of the start follow each other; a handover that does not come fails the attempt, the third failure declares the
pump faulty (source 24); a retry begins the next attempt; a stop that lasts 2 s raises PUMP_STOP (25). FCE_SETPT of
FCE0 is held as written. R204, R206: a current sample adds to its coil's mean alone; the tick shows each coil's mean
and begins the next one; a setpoint is limited to IMAXC. Where the spec leaves a corner open the statement rests on the
model's reading, log entry 40. -/
def Obligations.PumpStartsAndSolenoidsTick : Prop :=
  (∀ (ch : Chan) (v : Word) (s : State), (s.chan ch).live = true →
    ∃ t, exec (.fceSetptWrite ch 0 v) s = .next t ∧ s.onlyChan ch t ∧ (s.chan ch).sameBut [FCE_SETPT 0] (t.chan ch) ∧
      (t.chan ch).regs.word (FCE_SETPT 0) = v) ∧
  (∀ (ch : Chan) (v : Word) (s : State), (s.chan ch).live = true → (s.chan ch).pump = 0 → (s.chan ch).pumpMay = true →
    (s.chan ch).f1.conf < (s.chan ch).pconf → 0 < (s.chan ch).parF 1 1 16 16 → v.toInt ≠ 0 →
    ∃ t, exec (.fceSetptWrite ch 1 v) s = .next t ∧ s.onlyChan ch t ∧
      (s.chan ch).sameBut [FCE_SETPT 1, FCE_PUMP, GDR_MSTATE] (t.chan ch) ∧ (t.chan ch).pump = 1 ∧
      (t.chan ch).rd FCE_PUMP_ATTEMPT = 1 ∧ ((t.chan ch).causes .P).testBit 7 = false ∧
      (t.chan ch).f1.fwd = decide (0 < v.toInt)) ∧
  (∀ (ch : Chan) (dir : Fin 6) (s : State), (s.chan ch).live = true → (s.chan ch).pump = 1 →
    ∃ t, exec (.pumpSectorDetectDone ch dir) s = .next t ∧ s.onlyChan ch t ∧ (s.chan ch).sameBut [FCE_PUMP] (t.chan ch) ∧
      (t.chan ch).pump = 2 ∧ (t.chan ch).f1.theta0 = dir.val * 2 ^ 32 / 6) ∧
  (∀ (ch : Chan) (s : State), (s.chan ch).live = true → (s.chan ch).pump = 2 →
    ∃ t, exec (.pumpHoldEnd ch) s = .next t ∧ s.onlyChan ch t ∧ (s.chan ch).sameBut [FCE_PUMP] (t.chan ch) ∧
      (t.chan ch).pump = 3 ∧ (t.chan ch).f1.rampN = 0) ∧
  (∀ (ch : Chan) (s : State), (s.chan ch).live = true → (s.chan ch).pump = 3 →
    ∃ t, exec (.pumpRampEnd ch) s = .next t ∧ s.onlyChan ch t ∧ (s.chan ch).sameBut [FCE_PUMP] (t.chan ch) ∧
      (t.chan ch).pump = 4 ∧ (t.chan ch).f1.confRun = 0) ∧
  (∀ (ch : Chan) (s : State), (s.chan ch).live = true → (s.chan ch).pump = 4 → (s.chan ch).rd FCE_PUMP_ATTEMPT < 3 →
    ∃ t, exec (.pumpHandoverTimeout ch) s = .next t ∧ s.onlyChan ch t ∧
      (s.chan ch).sameBut [FCE_PUMP, GDR_MSTATE] (t.chan ch) ∧ (t.chan ch).pump = 6 ∧
      ((t.chan ch).rd FCE_PUMP_CAUSE = 1 ∨ (t.chan ch).rd FCE_PUMP_CAUSE = 3) ∧
      ((t.chan ch).causes .P).testBit 7 = true) ∧
  (∀ (ch : Chan) (s : State), (s.chan ch).live = true → (s.chan ch).pump = 4 → (s.chan ch).rd FCE_PUMP_ATTEMPT = 3 →
    (s.chan ch).blockOn 5 = true → (s.chan ch).fcc.tag = none → (s.chan ch).spares 24 →
    ∃ t, exec (.pumpHandoverTimeout ch) s = .next t ∧ s.onlyChan ch t ∧ (t.chan ch).pump = 0 ∧
      (t.chan ch).is FCE_PUMP_FAULTY = true ∧ (t.chan ch).srcBit FCC_STAT_SRC 24 = true) ∧
  (∀ (ch : Chan) (s : State), (s.chan ch).live = true → (s.chan ch).pump = 6 → (s.chan ch).pumpMay = true →
    (s.chan ch).f1.conf < (s.chan ch).pconf → ((s.chan ch).causes .P).testBit 1 = false →
    ((s.chan ch).causes .P).testBit 3 = false → (s.chan ch).f1.again = false → (s.chan ch).rd FCE_PUMP_ATTEMPT < 3 →
    ∃ t, exec (.pumpRetry ch) s = .next t ∧ s.onlyChan ch t ∧ (s.chan ch).sameBut [FCE_PUMP, GDR_MSTATE] (t.chan ch) ∧
      (t.chan ch).pump = 1 ∧ (t.chan ch).rd FCE_PUMP_ATTEMPT = (s.chan ch).rd FCE_PUMP_ATTEMPT + 1) ∧
  (∀ (ch : Chan) (s : State), (s.chan ch).live = true → (s.chan ch).pump = 7 → (s.chan ch).f1.stopLate = false →
    (s.chan ch).blockOn 5 = true → (s.chan ch).fcc.tag = none → (s.chan ch).spares 25 →
    ∃ t, exec (.pumpStopTimeout ch) s = .next t ∧ s.onlyChan ch t ∧ (t.chan ch).f1.stopLate = true ∧
      (t.chan ch).srcBit FCC_STAT_SRC 25 = true ∧
      (t.chan ch).pump = if (s.chan ch).belowOs .P then 0 else 7) ∧
  (∀ (ch : Chan) (n : Fin 4) (ma : Nat) (s : State), (s.chan ch).live = true →
    ∃ t, exec (.solenoidCurrentSample ch n ma) s = .next t ∧ s.onlyChan ch t ∧ (s.chan ch).sameBut [] (t.chan ch) ∧
      ((t.chan ch).f1.sol n).sum = ((s.chan ch).f1.sol n).sum + ma ∧
      ((t.chan ch).f1.sol n).count = ((s.chan ch).f1.sol n).count + 1 ∧
      ∀ m : Fin 4, m ≠ n → (t.chan ch).f1.sol m = (s.chan ch).f1.sol m) ∧
  (∀ (ch : Chan) (n : Fin 4) (v : Word) (s : State), (s.chan ch).live = true →
    ∃ t, exec (.fceSolnSetWrite ch n v) s = .next t ∧ s.onlyChan ch t ∧
      (s.chan ch).sameBut [FCE_SOLSET n] (t.chan ch) ∧
      (t.chan ch).rd (FCE_SOLSET_MA n) = min (v.toNat % 2 ^ 16) ((s.chan ch).solF n 3 0 16)) ∧
  (∀ (ch : Chan) (s : State), (s.chan ch).live = true → (s.chan ch).spares 26 →
    ∃ t, exec (.solenoidTick ch) s = .next t ∧ s.onlyChan ch t ∧
      ∀ n : Fin 4, ((t.chan ch).f1.sol n).sum = 0 ∧ ((t.chan ch).f1.sol n).count = 0 ∧
        (t.chan ch).rd (FCE_SOLMEAS_MA n) =
          (if ((s.chan ch).f1.sol n).count = 0 then 0
            else (rdiv ((s.chan ch).f1.sol n).sum ((s.chan ch).f1.sol n).count).toNat) % 2 ^ 16)

/-- R211, R215, R217, R218, R23, R25, R143, R225: a peer's sample packet in time is held for its set while its link is
up, one with a failed CRC is only counted; a computed set leaves its triplet of KIND 2 by CDL, which a shadow does not
send, and later is an overrun; SDL counts a packet not held and an echo missing, and the echo of the new period is due;
an overrun drops the packet. Where the spec leaves a corner open the statement rests on the model's reading, log entry
38. -/
def Obligations.SetsAreComputedInTime : Prop :=
  (∀ (ch j : Chan) (p : BitVec 176) (off : Nat) (s : State), (s.chan ch).live = true → Chan.ofNum (spOrigin p) = some j →
    j ≠ (s.chan ch).me → (s.chan ch).hears j = true → off ≤ 440 → pk p 0 4 = 1 →
    ∃ t, exec (.samplePacketReceived ch p true off) s = .next t ∧ s.onlyChan ch t ∧ (s.chan ch).sameBut [] (t.chan ch) ∧
      ((t.chan ch).f0.set j).pkt = some p ∧ ((t.chan ch).f0.set j).got = true ∧ ((t.chan ch).f0.set j).here = true ∧
      ∀ k, k ≠ j → (t.chan ch).f0.set k = (s.chan ch).f0.set k) ∧
  (∀ (ch j : Chan) (p : BitVec 176) (off : Nat) (s : State), (s.chan ch).live = true → Chan.ofNum (spOrigin p) = some j →
    ((s.chan ch).hears j = false ∨ 440 < off) →
    ∃ t, exec (.samplePacketReceived ch p true off) s = .next t ∧ s.onlyChan ch t ∧ t.chan ch = s.chan ch) ∧
  (∀ (ch : Chan) (p : BitVec 176) (off : Nat) (s : State), (s.chan ch).live = true →
    ∃ t, exec (.samplePacketReceived ch p false off) s = .next t ∧ s.onlyChan ch t ∧
      (s.chan ch).sameBut [XLK_LINK] (t.chan ch) ∧ (t.chan ch).f0 = (s.chan ch).f0 ∧
      (t.chan ch).rd XLK_LINK_CRCERR = satInc 8 ((s.chan ch).rd XLK_LINK_CRCERR)) ∧
  (∀ (ch k : Chan) (accepted : Nat) (p : BitVec 176) (s : State), (s.chan ch).live = true →
    ((s.chan ch).f0.set k).pkt = some p →
    (s.chan ch).computes ((s.chan ch).maskAt ((s.chan ch).t0Of k)) k = true → ((s.chan ch).f0.set k).agreed = true →
    spSV p = true → accepted ≤ cdlOf ((s.chan ch).half 0) → (s.chan ch).spares 21 → (s.chan ch).spares 22 →
    (s.chan ch).spares 23 →
    ∃ t, exec (.setComputeDone ch k accepted) s = .next t ∧ s.onlyChan ch t ∧ ((t.chan ch).f0.set k).pkt = none ∧
      (∃ x, ((t.chan ch).f0.set k).trip = some x ∧ trKind x = 2 ∧ trOrigin x = (s.chan ch).me.num ∧ trSet x = k.num ∧
        trPseq x = spPseq p) ∧
      (((s.chan ch).voting = true ∨ (s.chan ch).lockstep = false) →
        (t.chan ch).rd XLK_CMPT_LAST = min accepted 2047)) ∧
  (∀ (ch k : Chan) (accepted : Nat) (p : BitVec 176) (s : State), (s.chan ch).live = true →
    ((s.chan ch).f0.set k).pkt = some p →
    (s.chan ch).computes ((s.chan ch).maskAt ((s.chan ch).t0Of k)) k = true → ((s.chan ch).f0.set k).agreed = true →
    spSV p = true → cdlOf ((s.chan ch).half 0) < accepted →
    ∃ t, exec (.setComputeDone ch k accepted) s = .next t ∧ s.onlyChan ch t ∧
      (s.chan ch).sameBut [XLK_SELF] (t.chan ch) ∧ ((t.chan ch).f0.set k).pkt = none ∧
      (t.chan ch).rd XLK_SELF_OVERRUN = satInc 8 ((s.chan ch).rd XLK_SELF_OVERRUN) ∧
      ((t.chan ch).f0.set k).trip = ((s.chan ch).f0.set k).trip) ∧
  (∀ (ch k : Chan) (s : State), (s.chan ch).live = true →
    ∃ t, exec (.sampleDeadline ch k) s = .next t ∧ s.onlyChan ch t ∧ (s.chan ch).sameBut [XLK_LINK, FCE_STAT 0] (t.chan ch) ∧
      ((t.chan ch).f0.set k).got = false ∧ ((t.chan ch).f0.set k).here = ((s.chan ch).f0.set k).got ∧
      ((t.chan ch).f0.set k).due = some ((s.chan ch).pseqOf k) ∧
      (((s.chan ch).f0.set k).echoed = false →
        (t.chan ch).rd XLK_LINK_ECHOMISS = satInc 8 ((s.chan ch).rd XLK_LINK_ECHOMISS)) ∧
      (((s.chan ch).f0.set k).got = false → ((t.chan ch).f0.set k).pkt = none) ∧
      (((s.chan ch).f0.set k).got = false → k ≠ (s.chan ch).me →
        inMask ((s.chan ch).maskAt ((s.chan ch).t0Of k)) k = true →
        (t.chan ch).rd XLK_LINK_LATES = satInc 8 ((s.chan ch).rd XLK_LINK_LATES))) ∧
  (∀ (ch k : Chan) (s : State), (s.chan ch).live = true → ((s.chan ch).f0.set k).pkt ≠ none →
    ∃ t, exec (.tripletOverrun ch k) s = .next t ∧ s.onlyChan ch t ∧ (s.chan ch).sameBut [XLK_SELF] (t.chan ch) ∧
      ((t.chan ch).f0.set k).pkt = none ∧
      (t.chan ch).rd XLK_SELF_OVERRUN = satInc 8 ((s.chan ch).rd XLK_SELF_OVERRUN))

/-- R221: the value that a ballot uses is one that at least two members sent bit for bit, or the only one sent under a
mask of the own channel alone; with all three present and two equal that value is used and the third is outvoted. R325:
the vote of a pair does not depend on the order of the members; two of three that show ACTIVE are ACTIVE, two that show
IDLE are IDLE; of two, one ACTIVE is enough; a lone member's state is its own; nothing is voted where no member
declares the pair. Where the spec leaves a corner open the statement rests on the model's reading, log entry 48. -/
def Obligations.VotesAreByMajority : Prop :=
  (∀ (solo : Bool) (a b c : Option (BitVec 240)) (v : BitVec 240), (ballot solo a b c).use = some v →
    (a = some v ∧ b = some v) ∨ (a = some v ∧ c = some v) ∨ (b = some v ∧ c = some v) ∨
      (solo = true ∧ (ballot solo a b c).out = 2 ∧ (a = some v ∧ b = none ∧ c = none ∨ a = none ∧ b = some v ∧ c = none ∨
        a = none ∧ b = none ∧ c = some v))) ∧
  (∀ (solo : Bool) (x y : BitVec 240), x ≠ y →
    (ballot solo (some x) (some x) (some y)).use = some x ∧ (ballot solo (some x) (some x) (some y)).odd = some .C ∧
    (ballot solo (some x) (some y) (some x)).use = some x ∧ (ballot solo (some x) (some y) (some x)).odd = some .B ∧
    (ballot solo (some y) (some x) (some x)).use = some x ∧ (ballot solo (some y) (some x) (some x)).odd = some .A) ∧
  (∀ (solo : Bool) (x y : BitVec 240), x ≠ y →
    (ballot solo (some x) (some y) none).use = none ∧ (ballot solo (some x) (some y) none).src = some 28 ∧
    (ballot solo (some x) none (some y)).use = none ∧ (ballot solo none (some x) (some y)).use = none) ∧
  (∀ (l m : List Nat) (prev : Nat), l.Perm m → votePair l prev = votePair m prev) ∧
  (∀ (x y z prev : Nat), x ∈ [1, 2, 3, 4] → y ∈ [1, 2, 3, 4] → z ∈ [1, 2, 3, 4] →
    (2 ≤ [x, y, z].count 2 → votePair [x, y, z] prev = 2) ∧ (2 ≤ [x, y, z].count 1 → votePair [x, y, z] prev = 1)) ∧
  (∀ (x prev : Nat), x ∈ [1, 2, 3, 4] → votePair [2, x] prev = 2 ∧ votePair [] prev = 0) ∧
  (∀ (prev : Nat), votePair [1] prev = 1 ∧ votePair [2] prev = 2 ∧ votePair [3] prev = prev ∧ votePair [4] prev = 3)

/-- R213, R220, R221, R222, R224, R225, R228, R240: a triplet of the period is held by its origin, one with a failed
CRC or of another set is counted; three equal triplets of a full mask are used: the result is held for the peak, the
counters show the vote and causes 2 and 6 of bridge S end; three that differ hold the last result and raise VOTE_SPLIT
(28). An echo of the period that is due overwrites the set's state; any other changes nothing. Where the spec leaves a
corner open the statement rests on the model's reading, log entry 39. -/
def Obligations.VotesUseOrHold : Prop :=
  (∀ (ch o : Chan) (p : BitVec 256) (off : Nat) (s : State), (s.chan ch).live = true → trKind p = 2 →
    trSet p = (s.chan ch).me.num → Chan.ofNum (trOrigin p) = some o → off ≤ vdlOf ((s.chan ch).half 0) →
    trPseq p = (s.chan ch).pseqOf (s.chan ch).me →
    inMask ((s.chan ch).maskAt ((s.chan ch).t0Of (s.chan ch).me)) o = true → (s.chan ch).triplet o = none →
    (o ≠ (s.chan ch).me → (s.chan ch).hears o = true) →
    ∃ t, exec (.dutyTripletReceived ch p true off) s = .next t ∧ s.onlyChan ch t ∧ (s.chan ch).sameBut [] (t.chan ch) ∧
      (t.chan ch).triplet o = some p ∧ ∀ k, k ≠ o → (t.chan ch).triplet k = (s.chan ch).triplet k) ∧
  (∀ (ch : Chan) (p : BitVec 256) (off : Nat) (s : State), (s.chan ch).live = true → trKind p = 2 →
    trSet p ≠ (s.chan ch).me.num →
    ∃ t, exec (.dutyTripletReceived ch p true off) s = .next t ∧ s.onlyChan ch t ∧
      (s.chan ch).sameBut [XLK_LINK] (t.chan ch) ∧ (t.chan ch).xlk = (s.chan ch).xlk ∧
      (t.chan ch).rd XLK_LINK_MISROUTE = satInc 8 ((s.chan ch).rd XLK_LINK_MISROUTE)) ∧
  (∀ (ch : Chan) (a b c : BitVec 256) (s : State), (s.chan ch).live = true →
    (s.chan ch).maskAt ((s.chan ch).t0Of (s.chan ch).me) = 7 → (s.chan ch).unused .S = false →
    (s.chan ch).triplet .A = some a → (s.chan ch).triplet .B = some b → (s.chan ch).triplet .C = some c →
    trBody a = trBody b → trBody b = trBody c → (s.chan ch).role ≠ 2 →
    ∃ t, exec (.vote ch) s = .next t ∧ s.onlyChan ch t ∧ (t.chan ch).xlk.held = some (trBody a) ∧
      (t.chan ch).xlk.used = true ∧ (t.chan ch).triplet .A = none ∧ (t.chan ch).triplet .B = none ∧
      (t.chan ch).triplet .C = none ∧ (t.chan ch).rd XLK_STAT_OUT = 0 ∧ (t.chan ch).rd XLK_STAT_ODD = 0 ∧
      (t.chan ch).rd XLK_STAT_HOLDRUN = 0 ∧
      (t.chan ch).rd XLK_STAT_RULE = (if ((s.chan ch).causes .S).testBit 2 then 0 else 3) ∧
      (t.chan ch).rd XLK_VCNT_VOTES = ((s.chan ch).rd XLK_VCNT_VOTES + 1) % 2 ^ 16 ∧
      ((t.chan ch).causes .S).testBit 2 = false ∧ ((t.chan ch).causes .S).testBit 6 = false ∧
      (t.chan ch).sram = (s.chan ch).sram) ∧
  (∀ (ch : Chan) (a b c : BitVec 256) (s : State), (s.chan ch).live = true →
    (s.chan ch).maskAt ((s.chan ch).t0Of (s.chan ch).me) = 7 → (s.chan ch).unused .S = false →
    (s.chan ch).triplet .A = some a → (s.chan ch).triplet .B = some b → (s.chan ch).triplet .C = some c →
    trBody a ≠ trBody b → trBody b ≠ trBody c → trBody a ≠ trBody c → (s.chan ch).role ≠ 2 →
    (s.chan ch).rd XLK_STAT_HOLDRUN < 3 → (s.chan ch).blockOn 6 = true → (s.chan ch).fcc.tag = none →
    (s.chan ch).spares 28 →
    ∃ t, exec (.vote ch) s = .next t ∧ s.onlyChan ch t ∧ (t.chan ch).xlk.held = (s.chan ch).xlk.held ∧
      (t.chan ch).xlk.used = false ∧ (t.chan ch).rd XLK_STAT_OUT = 3 ∧
      (t.chan ch).rd XLK_STAT_HOLDRUN = (s.chan ch).rd XLK_STAT_HOLDRUN + 1 ∧
      (t.chan ch).rd XLK_VCNT_HOLDS = satInc 16 ((s.chan ch).rd XLK_VCNT_HOLDS) ∧
      (t.chan ch).srcBit FCC_STAT_SRC 28 = true) ∧
  (∀ (ch k : Chan) (p : BitVec 256) (s : State), (s.chan ch).live = true → trSet p = k.num →
    (trKind p = 3 ∨ trKind p = 4) → trOrigin p ≠ (s.chan ch).me.num → (s.chan ch).role ≠ 2 →
    (k ≠ ch → (s.chan ch).hears k = true) → ((s.chan ch).f0.set k).due = some (trPseq p) →
    ∃ t, exec (.voteEchoReceived ch k p true) s = .next t ∧ s.onlyChan ch t ∧ (s.chan ch).sameBut [] (t.chan ch) ∧
      ((t.chan ch).f0.set k).agreed = true ∧ ((t.chan ch).f0.set k).oth = trOth p ∧
      ((t.chan ch).f0.set k).oom = trOom p ∧ ((t.chan ch).f0.set k).intd = trIntd p ∧
      ((t.chan ch).f0.set k).intq = trIntq p ∧ ((t.chan ch).f0.set k).idfw = trIdfw p ∧
      ((t.chan ch).f0.set k).trip = none) ∧
  (∀ (ch k : Chan) (p : BitVec 256) (s : State), (s.chan ch).live = true →
    ((k ≠ ch ∧ (s.chan ch).hears k = false) ∨ ((s.chan ch).f0.set k).due ≠ some (trPseq p) ∨ trSet p ≠ k.num) →
    ∃ t, exec (.voteEchoReceived ch k p true) s = .next t ∧ s.onlyChan ch t ∧ t.chan ch = s.chan ch) ∧
  (∀ (ch : Chan) (mask : BitVec 3) (tb : BitVec 48) (s : State), (s.chan ch).live = true →
    ∃ t, exec (.memberMaskDelivery ch mask tb) s = .next t ∧ s.onlyChan ch t ∧ (s.chan ch).sameBut [] (t.chan ch) ∧
      (t.chan ch).xlk.next = some (mask, tb.toNat) ∧
      (∀ n, tb.toNat ≤ n → (t.chan ch).maskAt n = mask) ∧
      (t.chan ch).xlk.mask = (s.chan ch).maskAt (s.chan ch).tb.toNat)

/-- R237, R260: which state the causes of a bridge give: off for bits 0 to 2, whatever else is set, and while a
gate-drive block reset that met an overvoltage waits for its end; then, for bit 3, active short of bridge S and open of
bridge P; without a cause the state stays. R232, R241: a speed word is held and the selector decides anew: short at or
above the open-safe speed or on the probe, open below 0.9 of it, its previous choice between. -/
def Obligations.BridgeStateFollowsCausesAndSpeed : Prop :=
  (∀ (c : Channel) (b : Bridge),
    (c.settle b).causes b = c.causes b ∧
    (((c.causes b).testBit 0 = true ∨ (c.causes b).testBit 1 = true ∨ (c.causes b).testBit 2 = true ∨
        (c.causes b ≠ 0 ∧ c.ovHeld b = true)) →
      (c.settle b).bstate b = 3) ∧
    ((c.causes b).testBit 0 = false → (c.causes b).testBit 1 = false → (c.causes b).testBit 2 = false →
      c.ovHeld b = false → (c.causes b).testBit 3 = true → (c.settle b).bstate b = (match b with
        | .S => 2
        | .P => 1)) ∧
    (c.causes b = 0 → (c.settle b).bstate b = c.bstate b) ∧
    (c.causes b ≠ 0 → (c.settle b).bstate b ≠ 0)) ∧
  (∀ (ch : Chan) (b : Bridge) (omega : Nat) (probe : Bool) (s : State), (s.chan ch).live = true →
    ∃ t, exec (.speedWord ch b omega probe) s = .next t ∧ s.onlyChan ch t ∧
      (s.chan ch).sameBut [GDR_LINK, GDR_MSTATE] (t.chan ch) ∧
      (b = .S → (t.chan ch).pow.omegaS = omega ∧ (t.chan ch).is GDR_LINK_PROBE = probe) ∧
      (b = .P → (t.chan ch).pow.omegaP = omega) ∧
      ((t.chan ch).aboveOs b = true → (t.chan ch).short b = true) ∧
      (b = .S → probe = true → (t.chan ch).short b = true) ∧
      ((t.chan ch).belowOs b = true → (b = .S → probe = false) → (t.chan ch).aboveOs b = false →
        (t.chan ch).short b = false) ∧
      ((t.chan ch).belowOs b = false → (t.chan ch).aboveOs b = false → (b = .S → probe = false) →
        (t.chan ch).short b = (s.chan ch).short b) ∧
      (t.chan ch).causes b = (s.chan ch).causes b)

/-- R252 to R254, R68: the chopper turns on at CHON where its driver may, which needs PINS, and off; its check starts
from V0 and the slope of the two valley samples before; a check within its margin counts a pass and clears RUN; one
beyond it counts a failure, and the one that reaches CHOP_N sets FAILED, takes regeneration to 0 and raises CHOP_FAIL
(31). R236, R238, R257 to R259: the link comparators set their bit, count and put both bridges under their cause: OV1
bit 3, OV2 bit 1 with the chopper off, UV bit 4; each clear ends its cause; a lost die-to-die link and a silent digital
die put both bridges under bit 5. Where the spec leaves a corner open the statement rests on the model's reading, log
entries 40, 41. -/
def Obligations.ChopperAndLinkVoltageEvents : Prop :=
  (∀ (ch : Chan) (link v0 : Nat) (s : State), (s.chan ch).pwr.off = false → (s.chan ch).chopMay = true →
    (s.chan ch).chon ≤ link →
    ∃ t, exec (.chopperOn ch link v0) s = .next t ∧ s.onlyChan ch t ∧ (s.chan ch).sameBut [GDR_LINK] (t.chan ch) ∧
      (t.chan ch).is GDR_LINK_CHOPON = true ∧ (t.chan ch).pow.chk = some (v0, (s.chan ch).slope)) ∧
  (∀ (ch : Chan) (link v0 : Nat) (s : State),
    ((s.chan ch).enc.pins = false ∨ (s.chan ch).chopMay = false ∨ link < (s.chan ch).chon) →
    ∃ t, exec (.chopperOn ch link v0) s = .next t ∧ s.onlyChan ch t ∧ t.chan ch = s.chan ch) ∧
  (∀ (ch : Chan) (s : State), (s.chan ch).pwr.off = false →
    ∃ t, exec (.chopperOff ch) s = .next t ∧ s.onlyChan ch t ∧ (s.chan ch).sameBut [GDR_LINK] (t.chan ch) ∧
      (t.chan ch).is GDR_LINK_CHOPON = false ∧ (t.chan ch).pow.chk = none) ∧
  (∀ (ch : Chan) (v0 v1 : Nat) (slope : Int) (s : State), (s.chan ch).pwr.off = false →
    (s.chan ch).pow.chk = some (v0, slope) →
    0 ≤ (s.chan ch).chkMargin v0 slope ((s.chan ch).rd (GDR_LL_VALUE 4) % 2 ^ 8) v1 →
    ∃ t, exec (.chopperCheck ch v1) s = .next t ∧ s.onlyChan ch t ∧
      (s.chan ch).sameBut [GDR_CHKMARG, GDR_CHOP] (t.chan ch) ∧ (t.chan ch).pow.chk = none ∧
      (t.chan ch).rd GDR_CHOP_PASSES = satInc 16 ((s.chan ch).rd GDR_CHOP_PASSES) ∧ (t.chan ch).rd GDR_CHOP_RUN = 0 ∧
      (t.chan ch).rd GDR_CHOP_FAILS = (s.chan ch).rd GDR_CHOP_FAILS) ∧
  (∀ (ch : Chan) (v0 v1 : Nat) (slope : Int) (s : State), (s.chan ch).pwr.off = false →
    (s.chan ch).pow.chk = some (v0, slope) → (s.chan ch).rd GDR_CHOP_RUN < 15 →
    (s.chan ch).chkMargin v0 slope ((s.chan ch).rd (GDR_LL_VALUE 4) % 2 ^ 8) v1 < 0 →
    (s.chan ch).rd (GDR_LL_VALUE 4) / 2 ^ 8 % 16 = (s.chan ch).rd GDR_CHOP_RUN + 1 → (s.chan ch).blockOn 7 = true →
    (s.chan ch).resetting = false → (s.chan ch).fcc.tag = none → (s.chan ch).spares 31 →
    ∃ t, exec (.chopperCheck ch v1) s = .next t ∧ s.onlyChan ch t ∧
      (s.chan ch).sameButEvents [GDR_CHKMARG, GDR_CHOP] (t.chan ch) ∧
      (t.chan ch).rd GDR_CHOP_FAILS = satInc 8 ((s.chan ch).rd GDR_CHOP_FAILS) ∧
      (t.chan ch).is GDR_CHOP_FAILED = true ∧ (t.chan ch).rd (FCE_REGEN_REGEN 0) = 0 ∧
      (t.chan ch).rd (FCE_REGEN_REGEN 1) = 0 ∧ (t.chan ch).srcBit FCC_STAT_SRC 31 = true) ∧
  (∀ (ch : Chan) (s : State), (s.chan ch).pwr.off = false → (s.chan ch).spares 32 →
    ∃ t, exec (.linkOv1 ch) s = .next t ∧ s.onlyChan ch t ∧
      (s.chan ch).sameButEvents [GDR_LINK, GDR_LADCNT, FCE_PUMP] (t.chan ch) ∧ (t.chan ch).is GDR_LINK_OV1 = true ∧
      (t.chan ch).rd GDR_LADCNT_OV1CNT = satInc 8 ((s.chan ch).rd GDR_LADCNT_OV1CNT) ∧
      ((t.chan ch).causes .S).testBit 3 = true ∧ ((t.chan ch).causes .P).testBit 3 = true) ∧
  (∀ (ch : Chan) (s : State), (s.chan ch).pwr.off = false → (s.chan ch).spares 33 →
    ∃ t, exec (.linkOv2 ch) s = .next t ∧ s.onlyChan ch t ∧
      (s.chan ch).sameButEvents [GDR_LINK, GDR_LADCNT, FCE_PUMP] (t.chan ch) ∧ (t.chan ch).is GDR_LINK_OV2 = true ∧
      (t.chan ch).rd GDR_LADCNT_OV2CNT = satInc 8 ((s.chan ch).rd GDR_LADCNT_OV2CNT) ∧
      (t.chan ch).is GDR_LINK_CHOPON = false ∧
      ((t.chan ch).causes .S).testBit 1 = true ∧ ((t.chan ch).causes .P).testBit 1 = true) ∧
  (∀ (ch : Chan) (s : State), (s.chan ch).pwr.off = false → (s.chan ch).spares 34 →
    ∃ t, exec (.linkUv ch) s = .next t ∧ s.onlyChan ch t ∧
      (s.chan ch).sameButEvents [GDR_LINK, GDR_LADCNT] (t.chan ch) ∧ (t.chan ch).is GDR_LINK_UV = true ∧
      (t.chan ch).rd GDR_LADCNT_UVCNT = satInc 8 ((s.chan ch).rd GDR_LADCNT_UVCNT) ∧
      ((t.chan ch).causes .S).testBit 4 = true ∧ ((t.chan ch).causes .P).testBit 4 = true) ∧
  (∀ (ch : Chan) (s : State), (s.chan ch).pwr.off = false →
    ∃ t, exec (.ov1Clear ch) s = .next t ∧ s.onlyChan ch t ∧ (s.chan ch).sameBut [GDR_LINK, GDR_MSTATE] (t.chan ch) ∧
      (t.chan ch).is GDR_LINK_OV1 = false ∧ ((t.chan ch).causes .S).testBit 3 = false ∧
      ((t.chan ch).causes .P).testBit 3 = false) ∧
  (∀ (ch : Chan) (s : State), (s.chan ch).pwr.off = false → (s.chan ch).is GDR_LINK_OV2 = true →
    (s.chan ch).pump ≠ 5 →
    ∃ t, exec (.ov2Clear ch) s = .next t ∧ s.onlyChan ch t ∧ (s.chan ch).sameBut [GDR_LINK, GDR_MSTATE] (t.chan ch) ∧
      (t.chan ch).is GDR_LINK_OV2 = false ∧ ((t.chan ch).causes .S).testBit 1 = false ∧
      ((t.chan ch).causes .P).testBit 1 = false ∧
      ((t.chan ch).causes .S = 0 → (t.chan ch).bstate .S = 1 ∨ (t.chan ch).bstate .S = 2)) ∧
  (∀ (ch : Chan) (s : State), (s.chan ch).pwr.off = false →
    ∃ t, exec (.uvClear ch) s = .next t ∧ s.onlyChan ch t ∧ (s.chan ch).sameBut [GDR_LINK, GDR_MSTATE] (t.chan ch) ∧
      (t.chan ch).is GDR_LINK_UV = false ∧ ((t.chan ch).causes .S).testBit 4 = false ∧
      ((t.chan ch).causes .P).testBit 4 = false) ∧
  (∀ (ch : Chan) (i : Instr) (s : State), (i = .dieToDieLoss ch ∨ i = .digitalDieSilent ch) →
    (s.chan ch).pwr.off = false →
    ∃ t, exec i s = .next t ∧ s.onlyChan ch t ∧ (s.chan ch).sameBut [GDR_MSTATE] (t.chan ch) ∧
      ((t.chan ch).causes .S).testBit 5 = true ∧ ((t.chan ch).causes .P).testBit 5 = true ∧
      (t.chan ch).pow.d2dCause = ((s.chan ch).pow.d2dCause || decide (i = .dieToDieLoss ch)) ∧
      (t.chan ch).pow.fsCause = ((s.chan ch).pow.fsCause || decide (i = .digitalDieSilent ch)))

/-- R264, R267, R269 to R271, R277: detectors of the gate-drive block: a leg commanded on twice is flagged and counted;
latches of armed desaturation detectors are set beside those already set, the first fills GDR_FIRST, and GDR_SNAP with
the gate commands in force; overcurrent sets bit 17, undervoltage of VGD bit 18 with both bridges held off,
overtemperature bit 19. A VGD that recovers sets VGDOK alone. Where the spec leaves a corner open the statement rests
on the model's reading, log entry 43. -/
def Obligations.GateDriveLatchesAreSet : Prop :=
  (∀ (ch : Chan) (leg : Fin 6) (s : State), (s.chan ch).pwr.off = false → (s.chan ch).spares 42 →
    ∃ t, exec (.gdStcmd ch leg) s = .next t ∧ s.onlyChan ch t ∧
      (s.chan ch).sameButEvents [GDR_STCMD] (t.chan ch) ∧ (t.chan ch).bit GDR_STCMD_LEG leg = true ∧
      (t.chan ch).rd GDR_STCMD_COUNT = satInc 8 ((s.chan ch).rd GDR_STCMD_COUNT)) ∧
  (∀ (ch : Chan) (latches : BitVec 17) (sol : BitVec 4) (same : Bool) (s : State), (s.chan ch).pwr.off = false →
    (∀ n, 35 ≤ n → n ≤ 38 → (s.chan ch).spares n) →
    ∃ t, exec (.desatLatch ch latches sol same) s = .next t ∧ s.onlyChan ch t ∧
      (s.chan ch).sameButEvents [GDR_FLT, GDR_FIRST, GDR_SNAP, GDR_CNT] (t.chan ch) ∧
      (∀ b < 20, (t.chan ch).bit GDR_FLT_LATCH b = ((s.chan ch).bit GDR_FLT_LATCH b ||
        (latches.getLsbD b && ((s.chan ch).armed sol).testBit b))) ∧
      ((s.chan ch).rd GDR_FLT_LATCH = 0 → latches.toNat &&& ((s.chan ch).armed sol) ≠ 0 →
        (t.chan ch).rd GDR_FIRST_BITS = latches.toNat &&& ((s.chan ch).armed sol) ∧
        (t.chan ch).rd GDR_SNAP_BITS = (s.chan ch).gateCommands sol)) ∧
  (∀ (ch : Chan) (sol : BitVec 4) (same : Bool) (s : State), (s.chan ch).pwr.off = false → (s.chan ch).spares 39 →
    (s.chan ch).bit GDR_FLT_LATCH 17 = false →
    ∃ t, exec (.ocLatch ch sol same) s = .next t ∧ s.onlyChan ch t ∧
      (s.chan ch).sameButEvents [GDR_FLT, GDR_FIRST, GDR_SNAP, GDR_CNT] (t.chan ch) ∧ (t.chan ch).bit GDR_FLT_LATCH 17 = true ∧
      (t.chan ch).rd GDR_CNT_OC = satInc 8 ((s.chan ch).rd GDR_CNT_OC)) ∧
  (∀ (ch : Chan) (sol : BitVec 4) (same : Bool) (s : State), (s.chan ch).pwr.off = false → (s.chan ch).spares 40 →
    ∃ t, exec (.gdUvlo ch sol same) s = .next t ∧ s.onlyChan ch t ∧
      (s.chan ch).sameButEvents [GDR_FLT, GDR_FIRST, GDR_SNAP, GDR_CNT, GDR_LINK] (t.chan ch) ∧
      (t.chan ch).is GDR_LINK_CHOPON = false ∧ (t.chan ch).bit GDR_FLT_LATCH 18 = true ∧
      ((t.chan ch).causes .S).testBit 0 = true ∧
      ((t.chan ch).causes .P).testBit 0 = true) ∧
  (∀ (ch : Chan) (sol : BitVec 4) (same : Bool) (s : State), (s.chan ch).pwr.off = false → (s.chan ch).spares 41 →
    ∃ t, exec (.gdOt ch sol same) s = .next t ∧ s.onlyChan ch t ∧
      (s.chan ch).sameButEvents [GDR_FLT, GDR_FIRST, GDR_SNAP, GDR_CNT] (t.chan ch) ∧ (t.chan ch).bit GDR_FLT_LATCH 19 = true) ∧
  (∀ (ch : Chan) (s : State), (s.chan ch).pwr.off = false →
    ∃ t, exec (.vgdRecovered ch) s = .next t ∧ s.onlyChan ch t ∧ (s.chan ch).sameBut [GDR_STAT] (t.chan ch) ∧
      (t.chan ch).is GDR_STAT_VGDOK = true ∧ (t.chan ch).rd GDR_STAT_PEND = (s.chan ch).rd GDR_STAT_PEND)

/-- R173, R274 to R276, R279, R280, R282: the block reset holds both bridges under cause bit 0 with the chopper off and
counts, from the steward or from the supervisor after a latch; its release ends INRST and the steward's bit. GDEN_x low
holds every gate off and counts GD_ENLOW unless the channel pulses it; a low of at least 2.0 µs clears the latches that
nothing keeps, one below 1.9 µs none. R187, R284, R490: the power-stage self-test ends step 7 once both bridges have
passed their offset calibration: with no failed detector the channel goes to step 8 and ROLE 4 in lockstep and no
status bit is set; with failed detectors, which are counted as real events, the step is complete too. Without the
calibration the channel stays at step 7. Where the spec leaves a corner open the statement rests on the model's
reading, log entries 42, 44. -/
def Obligations.GateDriveResetsAndSelfTest : Prop :=
  (∀ (ch : Chan) (s : State), (s.chan ch).live = true → (s.chan ch).bit STW_BLKSTAT_BLK 7 = true →
    ∃ t, exec (.gdrBlockReset ch) s = .next t ∧ s.onlyChan ch t ∧
      (s.chan ch).sameBut [GDR_STAT, GDR_CNT, GDR_LINK, GDR_MSTATE] (t.chan ch) ∧ (t.chan ch).is GDR_STAT_INRST = true ∧
      (t.chan ch).rd GDR_CNT_BRST = satInc 8 ((s.chan ch).rd GDR_CNT_BRST) ∧ (t.chan ch).is GDR_LINK_CHOPON = false ∧
      ((t.chan ch).causes .S).testBit 0 = true ∧ ((t.chan ch).causes .P).testBit 0 = true) ∧
  (∀ (ch : Chan) (s : State), (s.chan ch).pwr.off = false → (s.chan ch).is GDR_STAT_PEND = true →
    (s.chan ch).is GDR_STAT_INRST = false →
    ∃ t, exec (.localBlockReset ch) s = .next t ∧ s.onlyChan ch t ∧
      (s.chan ch).sameBut [GDR_STAT, GDR_CNT, GDR_LINK, GDR_MSTATE] (t.chan ch) ∧ (t.chan ch).is GDR_STAT_INRST = true ∧
      (t.chan ch).is GDR_STAT_LOCALRST = true ∧ ((t.chan ch).causes .S).testBit 0 = true) ∧
  (∀ (ch : Chan) (s : State), (s.chan ch).pwr.off = false → (s.chan ch).is GDR_STAT_INRST = true →
    (s.chan ch).gdrHeld = false → (s.chan ch).pump ≠ 5 →
    ∃ t, exec (.gdrResetRelease ch) s = .next t ∧ s.onlyChan ch t ∧
      (s.chan ch).sameBut [GDR_STAT, STW_BLKSTAT, GDR_MSTATE] (t.chan ch) ∧ (t.chan ch).is GDR_STAT_INRST = false ∧
      (t.chan ch).bit STW_BLKSTAT_BLK 7 = false ∧ (t.chan ch).xlk.used = false) ∧
  (∀ (ch : Chan) (s : State), (s.chan ch).pwr.off = false → (s.chan ch).pow.gdeno = true →
    ∃ t, exec (.gdenFall ch) s = .next t ∧ s.onlyChan ch t ∧
      (s.chan ch).sameBut [GDR_STAT, GDR_LINK, GDR_MSTATE] (t.chan ch) ∧ (t.chan ch).pow.gden = false ∧
      (t.chan ch).is GDR_STAT_GDEN = false ∧ ((t.chan ch).causes .S).testBit 0 = true ∧
      ((t.chan ch).causes .P).testBit 0 = true) ∧
  (∀ (ch : Chan) (s : State), (s.chan ch).pwr.off = false → (s.chan ch).pow.gdeno = false → (s.chan ch).spares 43 →
    ∃ t, exec (.gdenFall ch) s = .next t ∧ s.onlyChan ch t ∧
      (s.chan ch).sameButEvents [GDR_LINK, GDR_CNT] (t.chan ch) ∧ (t.chan ch).pow.gden = false ∧
      (t.chan ch).rd GDR_CNT_ENLOW = satInc 8 ((s.chan ch).rd GDR_CNT_ENLOW) ∧
      ((t.chan ch).causes .S).testBit 0 = true) ∧
  (∀ (ch : Chan) (low : Nat) (present : BitVec 20) (s : State), (s.chan ch).pwr.off = false →
    (s.chan ch).pow.gden = false → 2000 ≤ low → (s.chan ch).pump ≠ 5 →
    ∃ t, exec (.gdenRise ch low present) s = .next t ∧ s.onlyChan ch t ∧
      (s.chan ch).sameBut [GDR_STAT, GDR_MSTATE, GDR_FLT, GDR_FIRST, GDR_SNAP, GDR_GDENO] (t.chan ch) ∧ (t.chan ch).pow.gden = true ∧
      (t.chan ch).rd GDR_FLT_LATCH = ((s.chan ch).rd GDR_FLT_LATCH &&& (s.chan ch).latchKept present.toNat) ∧
      (t.chan ch).rd GDR_GDENO_CLRCNT = satInc 16 ((s.chan ch).rd GDR_GDENO_CLRCNT)) ∧
  (∀ (ch : Chan) (low : Nat) (present : BitVec 20) (s : State), (s.chan ch).pwr.off = false →
    (s.chan ch).pow.gden = false → low < 1900 → (s.chan ch).pump ≠ 5 →
    ∃ t, exec (.gdenRise ch low present) s = .next t ∧ s.onlyChan ch t ∧
      (s.chan ch).sameBut [GDR_STAT, GDR_MSTATE] (t.chan ch) ∧ (t.chan ch).pow.gden = true ∧
      (t.chan ch).is GDR_STAT_GDEN = true) ∧
  (∀ (ch : Chan) (s : State), (s.chan ch).live = true →
    ∃ t, exec (.gdenoPulse ch) s = .next t ∧ s.onlyChan ch t ∧ (s.chan ch).sameBut [] (t.chan ch) ∧
      (t.chan ch).pow.gdeno = true) ∧
  (∀ (ch : Chan) (s : State), (s.chan ch).pwr.off = false →
    ∃ t, exec (.gdenoPulseEnd ch) s = .next t ∧ s.onlyChan ch t ∧ (s.chan ch).sameBut [] (t.chan ch) ∧
      (t.chan ch).pow.gdeno = false ∧
      (t.chan ch).pow.lowAfter = ((s.chan ch).pow.gdeno && !(s.chan ch).pow.gden)) ∧
  (∀ (ch : Chan) (chop : Option (Nat × Nat)) (s : State), (s.chan ch).live = true → (s.chan ch).rd PWR_BOOT_STEP = 7 →
    (∀ x, chop = some x → x.1 < 20000) → (s.chan ch).offsetsOk = true →
    (s.chan ch).lockstep = true → (∀ n, 35 ≤ n → n ≤ 39 → (s.chan ch).spares n) → s.a.logq.length ≤ 40 →
    s.b.logq.length ≤ 40 → s.c.logq.length ≤ 40 →
    ∃ t, exec (.powerStageSelfTestDone ch 0 chop) s = .next t ∧ s.onlyChan ch t ∧
      (s.chan ch).sameButEvents [PWR_BOOT, HRD_STAT] (t.chan ch) ∧ (t.chan ch).rd PWR_BOOT_STEP = 8 ∧
      (t.chan ch).pwr.done7 = true ∧ (t.chan ch).role = 4 ∧ (t.chan ch).rd GDR_STAT_STFAIL = (s.chan ch).rd GDR_STAT_STFAIL ∧
      ∀ n < 2, (t.chan ch).rd (FCC_STAT_SRC n) = (s.chan ch).rd (FCC_STAT_SRC n)) ∧
  (∀ (ch : Chan) (failed : BitVec 18) (chop : Option (Nat × Nat)) (s : State), (s.chan ch).live = true →
    (s.chan ch).rd PWR_BOOT_STEP = 7 → (∀ x, chop = some x → x.1 < 20000) →
    (s.chan ch).offsetsOk = true →
    (∀ n, 35 ≤ n → n ≤ 39 → (s.chan ch).spares n) → failed ≠ 0 →
    ∃ t, exec (.powerStageSelfTestDone ch failed chop) s = .next t ∧ s.onlyChan ch t ∧
      (s.chan ch).sameButEvents [PWR_BOOT, HRD_STAT] (t.chan ch) ∧
      (t.chan ch).rd PWR_BOOT_STEP = 8 ∧ (t.chan ch).pwr.done7 = true ∧ (t.chan ch).is GDR_STAT_STFAIL = true ∧
      (t.chan ch).pow.stLock.toNat = failed.toNat) ∧
  (∀ (ch : Chan) (chop : Option (Nat × Nat)) (s : State), (s.chan ch).live = true → (s.chan ch).rd PWR_BOOT_STEP = 7 →
    (∀ x, chop = some x → x.1 < 20000) → (s.chan ch).offsetsOk = false → (∀ n, 35 ≤ n → n ≤ 39 → (s.chan ch).spares n) →
    ∃ t, exec (.powerStageSelfTestDone ch 0 chop) s = .next t ∧ s.onlyChan ch t ∧
      (t.chan ch).rd PWR_BOOT_STEP = 7 ∧ (t.chan ch).pwr.done7 = (s.chan ch).pwr.done7)

/-- R286, R287, R289, R290, R300: a change on the inputs of a unit is taken, and the pass-through outputs follow it;
one of a unit that is on closer than MINEDGE counts an edge fault, and the one beyond the limit of its run declares the
unit faulty (source 44). A settled quadrature step counts by one, a step of two is a QERR that coasts and leaves the
count. The end of an error window ends its run. Where the spec leaves a corner open the statement rests on the model's
reading, log entry 45. -/
def Obligations.EncoderInputsAreCounted : Prop :=
  (∀ (ch : Chan) (n : Fin 6) (levels : BitVec 3) (since : Nat) (s : State), (s.chan ch).resetting = false →
    (s.chan ch).pwr.off = false → (s.chan ch).encOn n = false ∨ (s.chan ch).ucfg n 1 16 16 ≤ since →
    ∃ t, exec (.encInputChange ch n levels since) s = .next t ∧ s.onlyChan ch t ∧ (s.chan ch).sameBut [] (t.chan ch) ∧
      ((t.chan ch).unit n).lvl = levels ∧ ((t.chan ch).unit n).stored = ((s.chan ch).unit n).stored ∧
      (t.chan ch).enc.pto0 = (if (s.chan ch).enc.pins && !(s.chan ch).bit STW_BLKSTAT_BLK 8 then (t.chan ch).passLevel 1 else 0) ∧
      (t.chan ch).enc.pto1 = (if (s.chan ch).enc.pins && !(s.chan ch).bit STW_BLKSTAT_BLK 8 then (t.chan ch).passLevel 2 else 0)) ∧
  (∀ (ch : Chan) (n : Fin 6) (levels : BitVec 3) (since : Nat) (s : State), (s.chan ch).resetting = false →
    (s.chan ch).pwr.off = false → (s.chan ch).encOn n = true → since < (s.chan ch).ucfg n 1 16 16 →
    ((s.chan ch).unit n).erun + 1 ≤ (s.chan ch).ucfg n 4 8 8 →
    ∃ t, exec (.encInputChange ch n levels since) s = .next t ∧ s.onlyChan ch t ∧
      (s.chan ch).sameBut [ENC_ERR n] (t.chan ch) ∧
      (t.chan ch).rd (ENC_ERR_EDGEF n) = satInc 16 ((s.chan ch).rd (ENC_ERR_EDGEF n)) ∧
      ((t.chan ch).unit n).erun = ((s.chan ch).unit n).erun + 1) ∧
  (∀ (ch : Chan) (n : Fin 6) (levels : BitVec 3) (since : Nat) (s : State), (s.chan ch).resetting = false →
    (s.chan ch).pwr.off = false → (s.chan ch).encOn n = true → since < (s.chan ch).ucfg n 1 16 16 →
    (s.chan ch).ucfg n 4 8 8 < ((s.chan ch).unit n).erun + 1 → (s.chan ch).is (ENC_USTAT_UFAULT n) = false →
    (s.chan ch).blockOn 8 = true → (s.chan ch).fcc.tag = none → (s.chan ch).spares 44 →
    ∃ t, exec (.encInputChange ch n levels since) s = .next t ∧ s.onlyChan ch t ∧
      (s.chan ch).sameButEvents [ENC_ERR n, ENC_USTAT n, ENC_STAT] (t.chan ch) ∧
      (t.chan ch).is (ENC_USTAT_UFAULT n) = true ∧ (t.chan ch).rd (ENC_USTAT_CAUSE n) = 1 ∧
      (t.chan ch).srcBit FCC_STAT_SRC 44 = true) ∧
  (∀ (ch : Chan) (n : Fin 6) (cycles : Nat) (d : Int) (s : State), (s.chan ch).resetting = false →
    (s.chan ch).pwr.off = false → (s.chan ch).encOn n = true → (s.chan ch).ucfg n 1 8 1 = 0 →
    (s.chan ch).ucfg n 1 6 1 = 0 → (s.chan ch).is (ENC_USTAT_IDXSEEN n) = false →
    settledCount ((s.chan ch).ucfg n 1 4 2) ((s.chan ch).unit n).stored ((s.chan ch).unit n).lvl = some d →
    ∃ t, exec (.encSettlement ch n cycles) s = .next t ∧ s.onlyChan ch t ∧
      (s.chan ch).sameBut [ENC_COUNT n, ENC_USTAT n, ENC_POS n, ENC_SPEED n, ENC_ACC n, ENC_STAT, ENC_DIST n, ENC_CMPV n] (t.chan ch) ∧
      ((t.chan ch).unit n).stored = ((s.chan ch).unit n).lvl ∧
      (t.chan ch).rd (ENC_COUNT_VALUE n) = ofSigned 32 ((s.chan ch).rd (ENC_COUNT_VALUE n) + d)) ∧
  (∀ (ch : Chan) (n : Fin 6) (cycles : Nat) (s : State), (s.chan ch).resetting = false → (s.chan ch).pwr.off = false →
    (s.chan ch).encOn n = true → (s.chan ch).ucfg n 1 6 1 = 0 → (s.chan ch).is (ENC_USTAT_IDXSEEN n) = false →
    settledCount ((s.chan ch).ucfg n 1 4 2) ((s.chan ch).unit n).stored ((s.chan ch).unit n).lvl = none →
    ((s.chan ch).unit n).qrun + 1 ≤ (s.chan ch).ucfg n 4 0 8 →
    ∃ t, exec (.encSettlement ch n cycles) s = .next t ∧ s.onlyChan ch t ∧
      (s.chan ch).sameBut [ENC_ERR n, ENC_USTAT n] (t.chan ch) ∧ (t.chan ch).is (ENC_USTAT_COAST n) = true ∧
      (t.chan ch).rd (ENC_ERR_QERR n) = satInc 8 ((s.chan ch).rd (ENC_ERR_QERR n)) ∧
      (t.chan ch).rd (ENC_USTAT_UNC n) = min 255 ((s.chan ch).rd (ENC_USTAT_UNC n) + 2)) ∧
  (∀ (ch : Chan) (n : Fin 9) (q : Bool) (s : State), (s.chan ch).resetting = false → (s.chan ch).pwr.off = false →
    ∃ t, exec (.encErrorWindowEnd ch n q) s = .next t ∧ s.onlyChan ch t ∧ (s.chan ch).sameBut [] (t.chan ch) ∧
      (n < (6 : Nat) → q = true → ((t.chan ch).unit n).qrun = 0) ∧
      (n < (6 : Nat) → q = false → ((t.chan ch).unit n).erun = 0) ∧
      (6 ≤ (n : Nat) → ((t.chan ch).rx (n - 6)).err = 0))

/-- R294 to R299: in TRACK an update of the observer shows the position, advances UPD and writes its unit's speed,
acceleration, position and status alone; the standstill timeout stops the unit; the end of a compare pulse lowers the
output; CMPV is written for a unit that is on. R301 to R304: a frame that passes its checks is counted, valid and of
age 0, with its tick and the stamp of TB; one that fails a check is counted for the first check it fails, the
calibration pulse, the form or the CRC, and leaves the data; a timeout ends VALID and is counted. Where the spec leaves
a corner open the statement rests on the model's reading, log entries 45, 46. -/
def Obligations.EncoderObserversAndSentFrames : Prop :=
  (∀ (ch : Chan) (n : Fin 6) (s : State), (s.chan ch).resetting = false → (s.chan ch).pwr.off = false →
    (s.chan ch).encOn n = true → (s.chan ch).rd (ENC_USTAT_STATE n) = 2 →
    ∃ t, exec (.observerUpdate ch n) s = .next t ∧ s.onlyChan ch t ∧
      (s.chan ch).sameBut [ENC_SPEED n, ENC_ACC n, ENC_POS n, ENC_USTAT n] (t.chan ch) ∧
      (t.chan ch).rd (ENC_POS_VALUE n) = ofSigned 32 ((s.chan ch).unit n).pos ∧
      (t.chan ch).rd (ENC_USTAT_UPD n) = ((s.chan ch).rd (ENC_USTAT_UPD n) + 1) % 256 ∧
      ((t.chan ch).unit n).pos = ((s.chan ch).unit n).pos) ∧
  (∀ (ch : Chan) (n : Fin 6) (s : State), (s.chan ch).resetting = false → (s.chan ch).pwr.off = false →
    (s.chan ch).encOn n = true → (s.chan ch).rd (ENC_USTAT_STATE n) ≠ 0 →
    ∃ t, exec (.standstillTimeout ch n) s = .next t ∧ s.onlyChan ch t ∧
      (s.chan ch).sameBut [ENC_SPEED n, ENC_ACC n, ENC_POS n, ENC_USTAT n, ENC_STAT] (t.chan ch) ∧
      (t.chan ch).rd (ENC_USTAT_STATE n) = 0 ∧ (t.chan ch).rd (ENC_SPEED_VALUE n) = 0 ∧
      (t.chan ch).rd (ENC_ACC_VALUE n) = 0 ∧ (t.chan ch).bit ENC_STAT_STILL n = true) ∧
  (∀ (ch : Chan) (n : Fin 6) (s : State), (s.chan ch).resetting = false → (s.chan ch).pwr.off = false →
    (s.chan ch).ucfg n 6 0 1 = 1 →
    ∃ t, exec (.comparePulseEnd ch n) s = .next t ∧ s.onlyChan ch t ∧ (s.chan ch).sameBut [] (t.chan ch) ∧
      ((t.chan ch).unit n).cmpOut = false) ∧
  (∀ (ch : Chan) (n : Fin 6) (v : Word) (s : State), (s.chan ch).live = true → (s.chan ch).encOn n = true →
    ∃ t, exec (.encCmpvWrite ch n v) s = .next t ∧ s.onlyChan ch t ∧ (s.chan ch).sameBut [ENC_CMPV n] (t.chan ch) ∧
      (t.chan ch).rd (ENC_CMPV_CMPV n) = v.toNat) ∧
  (∀ (ch : Chan) (m : Fin 3) (f : SentFrame) (s : State), (s.chan ch).resetting = false → (s.chan ch).pwr.off = false →
    (s.chan ch).sentOn m = true →
    5 * ((f.cal - 56 * 40 * (s.chan ch).scfg m 1 16 16) + (56 * 40 * (s.chan ch).scfg m 1 16 16 - f.cal)) ≤
      56 * 40 * (s.chan ch).scfg m 1 16 16 →
    (∀ p, ((s.chan ch).rx m).prev = some p → 64 * ((f.cal - p) + (p - f.cal)) ≤ p) →
    f.pulses.length = (s.chan ch).scfg m 1 4 3 + 2 →
    (∀ p ∈ f.pulses, 12 ≤ sentTicks f p.1 ∧ sentTicks f p.1 ≤ 27 ∧ 4 * f.cal ≤ 56 * p.2) →
    ((s.chan ch).scfg m 1 8 1 = 1 → ∃ p, f.pause = some p ∧ 12 * f.cal ≤ 56 * p ∧ 56 * p ≤ 768 * f.cal) →
    sentCrc ((s.chan ch).scfg m 1 7 1 == 1) (sentData f) = (sentNibbles f).getLastD 0 →
    ∃ t, exec (.sentFrame ch m f) s = .next t ∧ s.onlyChan ch t ∧
      (s.chan ch).sameBut [ENC_SDATA m, ENC_SSIG1 m, ENC_SSIG2 m, ENC_STS m, ENC_STICK m, ENC_SSTAT m, ENC_STAT,
        ENC_SSLOW m] (t.chan ch) ∧
      (t.chan ch).rd (ENC_SSTAT_FRAMES m) = ((s.chan ch).rd (ENC_SSTAT_FRAMES m) + 1) % 256 ∧
      (t.chan ch).is (ENC_SSTAT_VALID m) = true ∧ (t.chan ch).rd (ENC_SSTAT_AGE m) = 0 ∧
      (t.chan ch).rd (ENC_STS_VALUE m) = (s.chan ch).tb.toNat % 2 ^ 32 ∧
      (t.chan ch).rd (ENC_STICK_VALUE m) = sentTick f % 2 ^ 32 ∧ ((t.chan ch).rx m).prev = some f.cal) ∧
  (∀ (ch : Chan) (m : Fin 3) (f : SentFrame) (g : Fld) (s : State), (s.chan ch).resetting = false →
    (s.chan ch).pwr.off = false → (s.chan ch).sentOn m = true →
    (sentCalOk f ((s.chan ch).scfg m 1 16 16) ((s.chan ch).rx m).prev = false ∧ g = ENC_SERR_CAL m ∨
      sentCalOk f ((s.chan ch).scfg m 1 16 16) ((s.chan ch).rx m).prev = true ∧
        sentFormOk f ((s.chan ch).scfg m 1 4 3) ((s.chan ch).scfg m 1 8 1 == 1) = false ∧ g = ENC_SERR_FORM m ∨
      sentCalOk f ((s.chan ch).scfg m 1 16 16) ((s.chan ch).rx m).prev = true ∧
        sentFormOk f ((s.chan ch).scfg m 1 4 3) ((s.chan ch).scfg m 1 8 1 == 1) = true ∧
        sentCrc ((s.chan ch).scfg m 1 7 1 == 1) (sentData f) ≠ (sentNibbles f).getLastD 0 ∧ g = ENC_SERR_CRC m) →
    ((s.chan ch).rx m).err + 1 ≤ (s.chan ch).scfg m 2 16 8 →
    ∃ t, exec (.sentFrame ch m f) s = .next t ∧ s.onlyChan ch t ∧ (s.chan ch).sameBut [ENC_SERR m] (t.chan ch) ∧
      (t.chan ch).rd g = satInc 8 ((s.chan ch).rd g) ∧ ((t.chan ch).rx m).err = ((s.chan ch).rx m).err + 1) ∧
  (∀ (ch : Chan) (m : Fin 3) (s : State), (s.chan ch).resetting = false → (s.chan ch).pwr.off = false →
    (s.chan ch).sentOn m = true → (s.chan ch).spares 45 →
    ∃ t, exec (.sentTimeout ch m) s = .next t ∧ s.onlyChan ch t ∧
      (s.chan ch).sameButEvents [ENC_SSTAT m, ENC_STAT, ENC_SERR m] (t.chan ch) ∧ (t.chan ch).is (ENC_SSTAT_VALID m) = false ∧
      (t.chan ch).bit ENC_STAT_SVALID m = false ∧
      (t.chan ch).rd (ENC_SERR_TOUT m) = satInc 8 ((s.chan ch).rd (ENC_SERR_TOUT m)))

/-- R322 to R326, R332, R173: a sample of the contacts shows in SIN_LEVEL.RAW and moves no register but the levels and
the local states, with a split channel's own flags and speed request; a PENDING pair at its discrepancy time goes to
FAULT with CAUSE 1, counted and raised (46); a pair in FAULT that shows ACTIVE comes back to it unless a test has
failed meanwhile; a test pulse lowers its output, and at TPA_x is counted; its check raises the output again and takes
a failing pair to FAULT (47); states received of a peer over a link that is up are held and shown. Where the spec
leaves a corner open the statement rests on the model's reading, log entries 47, 48. -/
def Obligations.SafetyPairsAreWatched : Prop :=
  (∀ (ch : Chan) (raw : BitVec 12) (s : State), (s.chan ch).live = true → (s.chan ch).blockOn 9 = true →
    ∃ t, exec (.sinSample ch raw) s = .next t ∧ s.onlyChan ch t ∧
      (s.chan ch).sameBut [SIN_LEVEL, SIN_LOCAL, SIN_PEER (s.chan ch).me.idx, SIN_STAT, STW_SPDREQ] (t.chan ch) ∧
      ((s.chan ch).lockstep = true → (t.chan ch).regs.word SIN_STAT = (s.chan ch).regs.word SIN_STAT ∧
        (t.chan ch).regs.word STW_SPDREQ = (s.chan ch).regs.word STW_SPDREQ) ∧
      (t.chan ch).rd SIN_LEVEL_RAW = raw.toNat ∧ (t.chan ch).sin.exclA = (s.chan ch).sin.exclA - 1) ∧
  (∀ (ch : Chan) (p : Fin 6) (s : State), (s.chan ch).live = true → (s.chan ch).blockOn 9 = true →
    (s.chan ch).pairState p = 3 → (s.chan ch).fcc.tag = none → (s.chan ch).spares 46 →
    ∃ t, exec (.discrepancyTimeout ch p) s = .next t ∧ s.onlyChan ch t ∧
      (s.chan ch).sameButEvents [SIN_LOCAL, SIN_PEER (s.chan ch).me.idx, SIN_PAIR p, SIN_STAT, STW_SPDREQ] (t.chan ch) ∧
      (t.chan ch).pairState p = 4 ∧
      (∀ q : Fin 6, q ≠ p → (t.chan ch).pairState q = (s.chan ch).pairState q) ∧
      (t.chan ch).rd (SIN_PAIR_CAUSE p) = 1 ∧
      (t.chan ch).rd (SIN_PAIR_DISC p) = satInc 8 ((s.chan ch).rd (SIN_PAIR_DISC p)) ∧
      (t.chan ch).srcBit FCC_STAT_SRC 46 = true) ∧
  (∀ (ch : Chan) (p : Fin 6) (s : State), (s.chan ch).live = true → (s.chan ch).blockOn 9 = true →
    (s.chan ch).pairState p = 4 → (s.chan ch).decoded p = some 2 → (s.chan ch).sin.failed.testBit p = false →
    ∃ t, exec (.faultRearm ch p) s = .next t ∧ s.onlyChan ch t ∧
      (s.chan ch).sameBut [SIN_LOCAL, SIN_PEER (s.chan ch).me.idx, SIN_STAT, STW_SPDREQ] (t.chan ch) ∧
      (t.chan ch).pairState p = 2 ∧ (t.chan ch).rd (SIN_PAIR_CAUSE p) = (s.chan ch).rd (SIN_PAIR_CAUSE p)) ∧
  (∀ (ch : Chan) (p : Fin 6) (s : State), (s.chan ch).live = true → (s.chan ch).blockOn 9 = true →
    (s.chan ch).pairState p = 4 → (s.chan ch).decoded p = some 2 → (s.chan ch).sin.failed.testBit p = true →
    ∃ t, exec (.faultRearm ch p) s = .next t ∧ s.onlyChan ch t ∧ (s.chan ch).sameBut [] (t.chan ch) ∧
      (t.chan ch).sin.failed.testBit p = false) ∧
  (∀ (ch : Chan) (w : Nat) (s : State), (s.chan ch).live = true → (s.chan ch).blockOn 9 = true →
    (s.chan ch).tpw = some w →
    ∃ t, exec (.testPulseStart ch true) s = .next t ∧ s.onlyChan ch t ∧
      (s.chan ch).sameBut [SIN_LEVEL] (t.chan ch) ∧ (t.chan ch).is SIN_LEVEL_TPB = false ∧
      (t.chan ch).sin.exclB = w + 3 ∧ (t.chan ch).sin.beforeB = (s.chan ch).rd SIN_LEVEL_RAW) ∧
  (∀ (ch : Chan) (w : Nat) (s : State), (s.chan ch).live = true → (s.chan ch).blockOn 9 = true →
    (s.chan ch).tpw = some w →
    ∃ t, exec (.testPulseStart ch false) s = .next t ∧ s.onlyChan ch t ∧
      (s.chan ch).sameBut [SIN_LEVEL, SIN_STAT] (t.chan ch) ∧ (t.chan ch).is SIN_LEVEL_TPA = false ∧
      (t.chan ch).rd SIN_STAT_TPCNT = ((s.chan ch).rd SIN_STAT_TPCNT + 1) % 256 ∧ (t.chan ch).sin.exclA = w + 3 ∧
      (t.chan ch).sin.beforeA = (s.chan ch).rd SIN_LEVEL_RAW) ∧
  (∀ (ch : Chan) (b : Bool) (raw : BitVec 12) (s : State), (s.chan ch).live = true → (s.chan ch).blockOn 9 = true →
    (s.chan ch).is (if b then SIN_LEVEL_TPB else SIN_LEVEL_TPA) = false → (s.chan ch).failing b raw.toNat = [] →
    ∃ t, exec (.testPulseCheck ch b raw) s = .next t ∧ s.onlyChan ch t ∧
      (s.chan ch).sameBut [SIN_LEVEL, FCC_EPIN] (t.chan ch) ∧
      (t.chan ch).is (if b then SIN_LEVEL_TPB else SIN_LEVEL_TPA) = true ∧
      (∀ p : Fin 6, (s.chan ch).pairTested p = true → (s.chan ch).pulseVerdict b raw.toNat p ≠ 0 →
        (t.chan ch).sin.failed.testBit p = true) ∧
      (t.chan ch).rd SIN_LEVEL_FILT = (s.chan ch).rd SIN_LEVEL_FILT) ∧
  (∀ (ch : Chan) (b : Bool) (raw : BitVec 12) (p : Fin 6) (s : State), (s.chan ch).live = true →
    (s.chan ch).blockOn 9 = true → (s.chan ch).is (if b then SIN_LEVEL_TPB else SIN_LEVEL_TPA) = false →
    (s.chan ch).failing b raw.toNat = [(p : Nat)] → (s.chan ch).fcc.tag = none → (s.chan ch).spares 47 →
    ∃ t, exec (.testPulseCheck ch b raw) s = .next t ∧ s.onlyChan ch t ∧
      (s.chan ch).sameButEvents [SIN_LEVEL, SIN_LOCAL, SIN_PEER (s.chan ch).me.idx, SIN_PAIR p, SIN_STAT, STW_SPDREQ]
        (t.chan ch) ∧ (t.chan ch).pairState p = 4 ∧
      (t.chan ch).rd (SIN_PAIR_TEST p) = satInc 8 ((s.chan ch).rd (SIN_PAIR_TEST p)) ∧
      (t.chan ch).rd (SIN_PAIR_CAUSE p) = (s.chan ch).pulseVerdict b raw.toNat p ∧
      (t.chan ch).srcBit FCC_STAT_SRC 47 = true) ∧
  (∀ (ch : Chan) (pkt : BitVec 64) (off : Nat) (i : Instr) (s : State), (s.chan ch).live = true →
    (i = .sb1Received ch pkt false off ∨ i = .sb2Received ch pkt false off) →
    ∃ t, exec i s = .next t ∧ s.onlyChan ch t ∧ t.chan ch = (s.chan ch).badCrc) ∧
  (∀ (ch o : Chan) (pkt : BitVec 64) (off : Nat) (s : State), (s.chan ch).live = true → o ≠ (s.chan ch).me →
    (s.chan ch).hears o = true → Chan.ofNum (pktField pkt 6 2) = some o → Chan.ofNum (pktField pkt 4 2) = some o → pktField pkt 0 4 = 5 → off ≤ 20000 →
    ∃ t, exec (.sb1Received ch pkt true off) s = .next t ∧ s.onlyChan ch t ∧
      (s.chan ch).sameBut [SIN_PEER o.idx] (t.chan ch) ∧
      kget none (t.chan ch).sin.direct o.idx = some (pktField pkt 16 18) ∧
      (t.chan ch).rd (SIN_PEER_STATE o.idx) = pktField pkt 16 18 ∧
      (t.chan ch).rd (SIN_PEER_ROUND o.idx) = pktField pkt 8 8) ∧
  (∀ (ch o q : Chan) (pkt : BitVec 64) (off : Nat) (s : State), (s.chan ch).live = true → o ≠ (s.chan ch).me →
    q ≠ (s.chan ch).me → q ≠ o → (s.chan ch).hears q = true → Chan.ofNum (pktField pkt 6 2) = some o → Chan.ofNum (pktField pkt 4 2) = some q →
    pktField pkt 0 4 = 6 → off ≤ 45000 →
    ∃ t, exec (.sb2Received ch pkt true off) s = .next t ∧ s.onlyChan ch t ∧
      (s.chan ch).sameBut [SIN_PEER o.idx] (t.chan ch) ∧
      kget none (t.chan ch).sin.relayed o.idx = some (pktField pkt 16 18) ∧
      (t.chan ch).sin.direct = (s.chan ch).sin.direct)

/-- R333, R335, R355: a port that goes down clears its LINK bit, in a ring sets BRK, and raises TT_LINK (51); one that
comes up sets its bit. An own frame that returns is stripped and counted; a whole one leaves on the other port with
HOPS one less and the residence and link delay in CORR, and is counted; one with HOPS = 0 is counted and leaves ended
by a transmit-error symbol. Where the spec leaves a corner open the statement rests on the model's reading, log entry
49. -/
def Obligations.TetherPortsAndForwarding : Prop :=
  (∀ (ch : Chan) (port : Fin 2) (s : State), (s.chan ch).live = true → (s.chan ch).tteOn = true →
    (s.chan ch).portUp port = true → (s.chan ch).fcc.tag = none → (s.chan ch).spares 51 →
    ∃ t, exec (.portDown ch port) s = .next t ∧ s.onlyChan ch t ∧ (s.chan ch).sameButEvents [TTE_STAT] (t.chan ch) ∧
      (t.chan ch).portUp port = false ∧ (∀ q : Fin 2, q ≠ port → (t.chan ch).portUp q = (s.chan ch).portUp q) ∧
      ((s.chan ch).isRingTopo = true → (t.chan ch).is TTE_STAT_BRK = true) ∧
      (t.chan ch).srcBit FCC_STAT_SRC 51 = true) ∧
  (∀ (ch : Chan) (port : Fin 2) (s : State), (s.chan ch).live = true → (s.chan ch).tteOn = true →
    ∃ t, exec (.portUp ch port) s = .next t ∧ s.onlyChan ch t ∧ (s.chan ch).sameBut [TTE_STAT] (t.chan ch) ∧
      (t.chan ch).portUp port = true ∧ ∀ q : Fin 2, q ≠ port → (t.chan ch).portUp q = (s.chan ch).portUp q) ∧
  (∀ (ch : Chan) (f : Frame) (ttx : Int) (s : State), (s.chan ch).live = true → (s.chan ch).tteOn = true →
    (s.chan ch).portUp f.port = true → (s.chan ch).ownFrame f = true →
    ∃ t, exec (.frameForward ch f ttx) s = .next t ∧ s.onlyChan ch t ∧ (s.chan ch).sameBut [TTE_FWD] (t.chan ch) ∧
      (t.chan ch).rd TTE_FWD_STRIPPED = ((s.chan ch).rd TTE_FWD_STRIPPED + 1) % 2 ^ 16 ∧
      (t.chan ch).rd TTE_FWD_FWD = (s.chan ch).rd TTE_FWD_FWD ∧ (t.chan ch).tte.out = (s.chan ch).tte.out ∧
      (t.chan ch).tte.returned = true) ∧
  (∀ (ch : Chan) (f : Frame) (ttx : Int) (s : State), (s.chan ch).live = true → (s.chan ch).tteOn = true →
    (s.chan ch).portUp f.port = true → (s.chan ch).portUp (f.port + 1 : Fin 2) = true → (s.chan ch).ownFrame f = false →
    f.kind < 7 → f.etype = (s.chan ch).etypeOwn → f.hops ≠ 0 → f.fcsOk = true →
    ∃ t, exec (.frameForward ch f ttx) s = .next t ∧ s.onlyChan ch t ∧ (s.chan ch).sameBut [TTE_FWD] (t.chan ch) ∧
      (t.chan ch).rd TTE_FWD_FWD = ((s.chan ch).rd TTE_FWD_FWD + 1) % 2 ^ 16 ∧
      ∃ g, (t.chan ch).tte.out = [(((f.port + 1 : Fin 2) : Nat), g)] ∧ g.fcsOk = true ∧ g.hops = f.hops - 1 ∧
        g.corr = f.corr + (ttx - f.trx) + (s.chan ch).ldIn f.port ∧ g.src = f.src ∧ g.seq = f.seq ∧ g.code = f.code ∧
        (f.kind ≠ 3 → g.payload = f.payload)) ∧
  (∀ (ch : Chan) (f : Frame) (ttx : Int) (s : State), (s.chan ch).live = true → (s.chan ch).tteOn = true →
    (s.chan ch).portUp f.port = true → (s.chan ch).portUp (f.port + 1 : Fin 2) = true → (s.chan ch).ownFrame f = false →
    f.kind < 7 → f.etype = (s.chan ch).etypeOwn → f.hops = 0 →
    ∃ t, exec (.frameForward ch f ttx) s = .next t ∧ s.onlyChan ch t ∧ (s.chan ch).sameBut [TTE_ERR2] (t.chan ch) ∧
      (t.chan ch).rd TTE_ERR2_HOPS0 = satInc 8 ((s.chan ch).rd TTE_ERR2_HOPS0) ∧
      ∃ g, (t.chan ch).tte.out = [(((f.port + 1 : Fin 2) : Nat), g)] ∧ g.fcsOk = false)

/-- R335, R343, R346, R349, R350, R351, R354: the fetch of a committed stream swaps its two buffers and clears COMMIT,
a status stream is refreshed first; without a commit it changes nothing; a slot sends the SEND buffer under the
stream's safety code on the ports that are up, after the frames it waits behind, and a port where that takes longer
than half the window counts COLL and sends nothing; the guardian withholds it, counts it and, on the first of a run,
raises TT_GUARD (53). A write of a port takes LEN and COMMIT of a transmit context; a selection maps a context. Where
the spec leaves a corner open the statement rests on the model's reading, log entry 50. -/
def Obligations.TetherStreamsAreSent : Prop :=
  (∀ (ch : Chan) (id : Fin 128) (s : State), (s.chan ch).live = true → (s.chan ch).maySend = true →
    (s.chan ch).isTx id = true → (s.chan ch).tte.enumFlag = false → (s.chan ch).hasSlot id = true →
    ((s.chan ch).isStatus id = true ∨ kget false (s.chan ch).tte.commit id = true) →
    ∃ t, exec (.streamFetch ch id) s = .next t ∧ s.onlyChan ch t ∧ (s.chan ch).sameBut portRegs (t.chan ch) ∧
      (t.chan ch).curBuf id = (if (s.chan ch).isStatus id = true then (s.chan ch).statusPayload
        else (s.chan ch).fillBytes id (kget 0 (s.chan ch).tte.fillLen id)) ∧
      kget [] (t.chan ch).tte.fill id = kget [] (s.chan ch).tte.whole id ∧
      ((s.chan ch).isStatus id = false → kget [] (t.chan ch).tte.whole id = kget [] (s.chan ch).tte.fill id) ∧
      kget false (t.chan ch).tte.commit id = false ∧ (t.chan ch).genOf id = ((s.chan ch).genOf id + 1) % 65536 ∧
      ∀ k, k ≠ (id : Nat) → (t.chan ch).curBuf k = (s.chan ch).curBuf k) ∧
  (∀ (ch : Chan) (id : Fin 128) (s : State), (s.chan ch).isStatus id = false →
    kget false (s.chan ch).tte.commit id = false →
    ∃ t, exec (.streamFetch ch id) s = .next t ∧ s.onlyChan ch t ∧ t.chan ch = s.chan ch) ∧
  (∀ (ch : Chan) (id : Fin 128) (nth : Nat) (fold : Bool) (w : SlotWait) (ofs : Nat) (ports : List Nat) (s : State),
    (s.chan ch).live = true → (s.chan ch).hasSlots = true → (s.chan ch).isTx id = true →
    (s.chan ch).tte.enumFlag = false → (s.chan ch).slotOf id nth fold = some (ofs, ports) →
    (ports.any fun p => (s.chan ch).portUp p && decide (waitOn w p ≤ (s.chan ch).halfWindow)) = true →
    (s.chan ch).guardBlocks = false →
    ∃ t, exec (.streamSlot ⟨ch, w⟩ id nth fold) s = .next t ∧ s.onlyChan ch t ∧
      (s.chan ch).sameBut [TTE_GUARD, TTE_CTXCNT id, TTE_CTXSTAT id, TTE_CTXTIME id] (t.chan ch) ∧
      (t.chan ch).rd (TTE_CTXCNT_ACCEPT id) = ((s.chan ch).rd (TTE_CTXCNT_ACCEPT id) + 1) % 2 ^ 16 ∧
      (t.chan ch).rd (TTE_CTXSTAT_SEQ id) = (s.chan ch).genOf id % 65536 ∧
      (t.chan ch).tte.out.map (·.1) =
        ports.filter (fun p => (s.chan ch).portUp p && decide (waitOn w p ≤ (s.chan ch).halfWindow)) ∧
      (∀ q, (t.chan ch).tte.out.head? = some q → (t.chan ch).rd (TTE_CTXTIME_NS id) = (q.2.trx / 65536).toNat % 2 ^ 32) ∧
      ∀ q ∈ (t.chan ch).tte.out, q.2.trx = (s.chan ch).slotAt ofs + (waitOn w q.1 : Nat) ∧ q.2.kind = 1 ∧
        q.2.payload = (s.chan ch).curBuf id ∧ q.2.fcopy = fold ∧ q.2.codeOk ((s.chan ch).ctx id 2) = true) ∧
  (∀ (ch : Chan) (id : Fin 128) (nth : Nat) (fold : Bool) (w : SlotWait) (ofs : Nat) (ports : List Nat) (s : State),
    (s.chan ch).live = true → (s.chan ch).hasSlots = true → (s.chan ch).isTx id = true →
    (s.chan ch).tte.enumFlag = false → (s.chan ch).slotOf id nth fold = some (ofs, ports) →
    (ports.any fun p => (s.chan ch).portUp p) = true → (s.chan ch).guardBlocks = false →
    ∃ t, exec (.streamSlot ⟨ch, w⟩ id nth fold) s = .next t ∧ s.onlyChan ch t ∧
      (t.chan ch).is TTE_GUARD_BLOCK = false ∧
      (t.chan ch).rd TTE_GUARD_COLL =
        (ports.filter fun p => (s.chan ch).portUp p && decide ((s.chan ch).halfWindow < waitOn w p)).foldl
          (fun n _ => satInc 8 n) ((s.chan ch).rd TTE_GUARD_COLL) ∧
      ((∀ p ∈ ports, (s.chan ch).portUp p = true → (s.chan ch).halfWindow < waitOn w p) →
        (s.chan ch).sameBut [TTE_GUARD] (t.chan ch) ∧ (t.chan ch).tte.out = (s.chan ch).tte.out)) ∧
  (∀ (ch : Chan) (id : Fin 128) (nth : Nat) (fold : Bool) (w : SlotWait) (ofs : Nat) (ports : List Nat) (s : State),
    (s.chan ch).live = true → (s.chan ch).hasSlots = true → (s.chan ch).isTx id = true →
    (s.chan ch).tte.enumFlag = false → (s.chan ch).slotOf id nth fold = some (ofs, ports) →
    (ports.any fun p => (s.chan ch).portUp p) = true →
    (s.chan ch).guardBlocks = true → (s.chan ch).fcc.tag = none → (s.chan ch).spares 53 →
    ∃ t, exec (.streamSlot ⟨ch, w⟩ id nth fold) s = .next t ∧ s.onlyChan ch t ∧
      (s.chan ch).sameButEvents [TTE_GUARD] (t.chan ch) ∧ (t.chan ch).is TTE_GUARD_BLOCK = true ∧
      (t.chan ch).rd TTE_GUARD_WITHHELD = satInc 16 ((s.chan ch).rd TTE_GUARD_WITHHELD) ∧
      (t.chan ch).tte.out = (s.chan ch).tte.out ∧
      ((s.chan ch).is TTE_GUARD_BLOCK = false → (t.chan ch).srcBit FCC_STAT_SRC 53 = true)) ∧
  (∀ (ch : Chan) (port : Fin 4) (v : Word) (s : State), (s.chan ch).live = true → (s.chan ch).tteOn = true →
    (s.chan ch).isTx ((s.chan ch).rd (TTE_PSEL_CTX port)) = true →
    bitsOf v.toNat 8 11 ≤ (s.chan ch).bufLen ((s.chan ch).rd (TTE_PSEL_CTX port)) →
    ∃ t, exec (.txCommit ch port v) s = .next t ∧ s.onlyChan ch t ∧ (s.chan ch).sameBut portRegs (t.chan ch) ∧
      (t.chan ch).bus = .ok 0 ∧
      kget 0 (t.chan ch).tte.fillLen ((s.chan ch).rd (TTE_PSEL_CTX port)) = bitsOf v.toNat 8 11 ∧
      kget false (t.chan ch).tte.commit ((s.chan ch).rd (TTE_PSEL_CTX port)) =
        (kget false (s.chan ch).tte.commit ((s.chan ch).rd (TTE_PSEL_CTX port)) || v.toNat.testBit 23)) ∧
  (∀ (ch : Chan) (port : Fin 4) (v : Word) (s : State), (s.chan ch).live = true → (s.chan ch).tteOn = true →
    ∃ t, exec (.portSelect ch port v) s = .next t ∧ s.onlyChan ch t ∧
      (s.chan ch).sameBut [TTE_PSEL port, TTE_PSTAT port] (t.chan ch) ∧ (t.chan ch).bus = .ok 0 ∧
      (t.chan ch).rd (TTE_PSEL_CTX port) = v.toNat % 2 ^ 7 ∧ (t.chan ch).tte = (s.chan ch).tte)

/-- R339, R348, R352, R353, R362: a stream frame in its window with a good safety code and a newer SEQ becomes the
current buffer of its context; one with a bad code and one outside its window are counted and leave the buffer; the
third window rejection of a source in a row marks it unreliable and raises TT_WIN (54). A cycle without a frame is a
miss, STALE at STALEN. Where the spec leaves a corner open the statement rests on the model's reading, log entries 49,
50. -/
def Obligations.TetherStreamsAreReceived : Prop :=
  (∀ (ch : Chan) (f : Frame) (o : Nat) (s : State), (s.chan ch).live = true → (s.chan ch).goodFrame f 1 →
    (s.chan ch).isRx f.stream = true → (s.chan ch).joined = true → (s.chan ch).roleT ≠ 0 →
    f.stream < 128 → (bitsOf ((s.chan ch).ctx f.stream 3) 8 6 = 0 ∨ bitsOf ((s.chan ch).ctx f.stream 3) 8 6 = f.src) →
    (s.chan ch).unreliable f.src = false → o ∈ (s.chan ch).dueOfs f.stream f.fcopy →
    (s.chan ch).inWindow f o = true → f.codeOk ((s.chan ch).ctx f.stream 2) = true →
    ((s.chan ch).rd (TTE_CTXSTAT_STATE f.stream) ≠ 1 ∨
      (1 ≤ (f.seq + 65536 - (s.chan ch).rd (TTE_CTXSTAT_SEQ f.stream)) % 65536 ∧
        (f.seq + 65536 - (s.chan ch).rd (TTE_CTXSTAT_SEQ f.stream)) % 65536 ≤ 32767)) →
    ∃ t, exec (.streamDataReceived ch f) s = .next t ∧ s.onlyChan ch t ∧
      (s.chan ch).sameBut (portRegs ++ [TTE_CTXSTAT f.stream, TTE_CTXTIME f.stream, TTE_CTXCNT f.stream]) (t.chan ch) ∧
      (t.chan ch).curBuf f.stream = f.payload ∧ (t.chan ch).rd (TTE_CTXSTAT_STATE f.stream) = 1 ∧
      (t.chan ch).rd (TTE_CTXSTAT_SEQ f.stream) = f.seq % 2 ^ 16 ∧ (t.chan ch).rd (TTE_CTXSTAT_MISSRUN f.stream) = 0 ∧
      (t.chan ch).rd (TTE_CTXCNT_ACCEPT f.stream) = ((s.chan ch).rd (TTE_CTXCNT_ACCEPT f.stream) + 1) % 2 ^ 16 ∧
      kget false (t.chan ch).tte.got f.stream = true ∧
      ∀ k, k ≠ f.stream → (t.chan ch).curBuf k = (s.chan ch).curBuf k) ∧
  (∀ (ch : Chan) (f : Frame) (o : Nat) (s : State), (s.chan ch).live = true → (s.chan ch).goodFrame f 1 →
    (s.chan ch).isRx f.stream = true → (s.chan ch).joined = true → (s.chan ch).roleT ≠ 0 →
    f.stream < 128 → (bitsOf ((s.chan ch).ctx f.stream 3) 8 6 = 0 ∨ bitsOf ((s.chan ch).ctx f.stream 3) 8 6 = f.src) →
    (s.chan ch).unreliable f.src = false → o ∈ (s.chan ch).dueOfs f.stream f.fcopy →
    (s.chan ch).inWindow f o = true → f.codeOk ((s.chan ch).ctx f.stream 2) = false →
    ∃ t, exec (.streamDataReceived ch f) s = .next t ∧ s.onlyChan ch t ∧
      (s.chan ch).sameBut [TTE_CTXERR f.stream, TTE_ERR] (t.chan ch) ∧
      (t.chan ch).rd (TTE_CTXERR_CODE f.stream) = satInc 8 ((s.chan ch).rd (TTE_CTXERR_CODE f.stream)) ∧
      (t.chan ch).rd TTE_ERR_CODE = satInc 8 ((s.chan ch).rd TTE_ERR_CODE) ∧ (t.chan ch).tte.cur = (s.chan ch).tte.cur) ∧
  (∀ (ch : Chan) (f : Frame) (s : State), (s.chan ch).live = true → (s.chan ch).goodFrame f 1 →
    (s.chan ch).isRx f.stream = true → (s.chan ch).joined = true → (s.chan ch).roleT ≠ 0 →
    f.stream < 128 → (bitsOf ((s.chan ch).ctx f.stream 3) 8 6 = 0 ∨ bitsOf ((s.chan ch).ctx f.stream 3) 8 6 = f.src) →
    (s.chan ch).unreliable f.src = false → 0 < f.src → f.src < 63 →
    ((s.chan ch).dueOfs f.stream f.fcopy).any (fun o => (s.chan ch).inWindow f o) = false →
    kget 0 (s.chan ch).tte.rej f.src = 2 → (s.chan ch).fcc.tag = none → (s.chan ch).spares 54 →
    ∃ t, exec (.streamDataReceived ch f) s = .next t ∧ s.onlyChan ch t ∧
      (s.chan ch).sameButEvents [TTE_CTXERR f.stream, TTE_WIN, TTE_UNREL (f.src / 32)] (t.chan ch) ∧
      (t.chan ch).rd (TTE_CTXERR_REJECT f.stream) = satInc 8 ((s.chan ch).rd (TTE_CTXERR_REJECT f.stream)) ∧
      (t.chan ch).rd TTE_WIN_REJECT = satInc 16 ((s.chan ch).rd TTE_WIN_REJECT) ∧
      (t.chan ch).unreliable f.src = true ∧ (t.chan ch).srcBit FCC_STAT_SRC 54 = true ∧
      (t.chan ch).tte.cur = (s.chan ch).tte.cur) ∧
  (∀ (ch : Chan) (id : Fin 128) (s : State), (s.chan ch).live = true → (s.chan ch).tteOn = true →
    (s.chan ch).isRx id = true → (s.chan ch).joined = true → (s.chan ch).dueOfs id false ≠ [] →
    kget false (s.chan ch).tte.got id = false → (s.chan ch).spares 50 →
    ∃ t, exec (.acceptanceWindowEnd ch id) s = .next t ∧ s.onlyChan ch t ∧
      (s.chan ch).sameButEvents (portRegs ++ [TTE_CTXCNT id, TTE_CTXSTAT id]) (t.chan ch) ∧
      (t.chan ch).rd (TTE_CTXCNT_MISS id) = satInc 8 ((s.chan ch).rd (TTE_CTXCNT_MISS id)) ∧
      (t.chan ch).rd (TTE_CTXSTAT_MISSRUN id) = satInc 8 ((s.chan ch).rd (TTE_CTXSTAT_MISSRUN id)) ∧
      ((s.chan ch).rd (TTE_CTXSTAT_STATE id) = 1 →
        bitsOf ((s.chan ch).ctx id 3) 0 8 ≤ satInc 8 ((s.chan ch).rd (TTE_CTXSTAT_MISSRUN id)) →
        (t.chan ch).rd (TTE_CTXSTAT_STATE id) = 2) ∧ (t.chan ch).tte.cur = (s.chan ch).tte.cur)

/-- R341, R342, R346, R355, R356, R361, R384: a cycle start moves the grid of a joined node by one cycle and its ROW by
one, and a report that is owed is then due no more; a lead sends the cycle frame on the ports that are up; the first
cycle frame of a cycle makes a listening or following node a follower and gives it CYCLE, row, lead and flags; a lead
withdraws for one that ranks before it; a claim is held for its slot; a claim that is due goes out in a free slot.
Where the spec leaves a corner open the statement rests on the model's reading, log entries 51, 52. -/
def Obligations.TetherCyclesAndClaims : Prop :=
  (∀ (ch : Chan) (w : SlotWait) (s : State), (s.chan ch).live = true → (s.chan ch).tteOn = true → (s.chan ch).roleT = 4 →
    (s.chan ch).joined = true → (s.chan ch).spares 50 → (s.chan ch).spares 53 →
    ∃ t, exec (.cycleStart ⟨ch, w⟩) s = .next t ∧ s.onlyChan ch t ∧
      (s.chan ch).sameButEvents [TTE_STAT, TTE_ROLL, TTE_GUARD, NTC_STAT, NTC_CSTART] (t.chan ch) ∧
      (t.chan ch).rd TTE_ROLL_ROW = (if (s.chan ch).rd TTE_ROLL_NROWS = 0 then 0
        else ((s.chan ch).rd TTE_ROLL_ROW + 1) % (s.chan ch).rd TTE_ROLL_NROWS) % 2 ^ 8 ∧
      (t.chan ch).tte.cyc = ((s.chan ch).tte.cyc + 1) % 2 ^ 32 ∧
      (t.chan ch).tte.grid = (s.chan ch).tte.grid + ((s.chan ch).cycleNs * 65536 : Nat) ∧
      (t.chan ch).tte.framed = false ∧ (t.chan ch).tte.got = [] ∧ (t.chan ch).tte.owed = none ∧
      ((s.chan ch).tte.owed = none → (t.chan ch).tte.out = (s.chan ch).tte.out) ∧
      (t.chan ch).tte.missing = (if (s.chan ch).tte.framed = true then 0 else (s.chan ch).tte.missing + 1)) ∧
  (∀ (ch : Chan) (p : Fin 2) (w : SlotWait) (s : State), (s.chan ch).live = true → (s.chan ch).tteOn = true →
    (s.chan ch).roleT = 3 →
    (s.chan ch).joined = true → (s.chan ch).portUp p = true → (s.chan ch).tte.enumFlag = false →
    ∃ t, exec (.cycleStart ⟨ch, w⟩) s = .next t ∧ s.onlyChan ch t ∧
      (s.chan ch).sameButEvents [TTE_STAT, TTE_ROLL, TTE_CYCLE, TTE_CLAIM, NTC_STAT, NTC_CSTART] (t.chan ch) ∧
      (t.chan ch).tte.cyc = ((s.chan ch).tte.cyc + 1) % 2 ^ 32 ∧ (t.chan ch).rd TTE_CYCLE_CYCLE = (t.chan ch).tte.cyc ∧
      (t.chan ch).tte.framed = true ∧ (t.chan ch).tte.missing = 0 ∧
      (∃ g, ((p : Nat), g) ∈ (t.chan ch).tte.out) ∧
      ∀ q ∈ (t.chan ch).tte.out, q.2.kind = 0 ∧ q.2.payload.length = 64 ∧ q.2.num 0 4 = (t.chan ch).tte.cyc ∧
        q.2.codeOk 0xFFFFFFFF = true) ∧
  (∀ (ch : Chan) (f : Frame) (w : SlotWait) (s : State), (s.chan ch).live = true → (s.chan ch).goodFrame f 0 →
    ((s.chan ch).roleT = 1 ∨ (s.chan ch).roleT = 4) → f.codeOk 0xFFFFFFFF = true →
    f.num 16 2 = (s.chan ch).ringWord 1 0 14 → (s.chan ch).tte.framed = false →
    (s.chan ch).spares 53 → (s.chan ch).spares 55 → (s.chan ch).spares 56 →
    ∃ t, exec (.cycleFrameReceived ⟨ch, w⟩ f) s = .next t ∧ s.onlyChan ch t ∧
      (s.chan ch).sameButEvents (followRegs ++ [TTE_STAT, TTE_CYCLE, TTE_ROLL, TTE_CLAIM, TTE_GUARD]) (t.chan ch) ∧
      (t.chan ch).roleT = 4 ∧ (t.chan ch).rd TTE_CYCLE_CYCLE = f.num 0 4 % 2 ^ 32 ∧
      (t.chan ch).rd TTE_ROLL_LEAD = f.num 18 1 % 2 ^ 6 ∧ (t.chan ch).rd TTE_ROLL_ROW = f.num 4 1 % 2 ^ 8 ∧
      (t.chan ch).tte.cyc = f.num 0 4 ∧ (t.chan ch).tte.framed = true ∧ (t.chan ch).tte.missing = 0 ∧
      (t.chan ch).tte.fold = (f.num 5 1).testBit 0 ∧ (t.chan ch).tte.enumFlag = (f.num 5 1).testBit 1) ∧
  (∀ (ch : Chan) (f : Frame) (w : SlotWait) (s : State), (s.chan ch).live = true → (s.chan ch).goodFrame f 0 →
    (s.chan ch).roleT = 3 →
    f.codeOk 0xFFFFFFFF = true → f.num 16 2 = (s.chan ch).ringWord 1 0 14 → f.num 18 1 ≠ 0 →
    f.num 18 1 < (s.chan ch).addrT → (s.chan ch).spares 53 → (s.chan ch).spares 55 → (s.chan ch).spares 56 →
    ∃ t, exec (.cycleFrameReceived ⟨ch, w⟩ f) s = .next t ∧ s.onlyChan ch t ∧
      (s.chan ch).sameButEvents (followRegs ++ [TTE_STAT, TTE_CYCLE, TTE_ROLL, TTE_CLAIM, TTE_GUARD]) (t.chan ch) ∧
      (t.chan ch).roleT = 4 ∧ (t.chan ch).is NTC_STAT_LEAD = false) ∧
  (∀ (ch : Chan) (f : Frame) (slot : Fin 16) (ofs len : Nat) (s : State), (s.chan ch).live = true →
    (s.chan ch).goodFrame f 2 → (s.chan ch).roleT = 3 → ((s.chan ch).claimSlots.find? fun x => x.1 == (slot : Nat)) = some ((slot : Nat), ofs, len) →
    ((s.chan ch).joined = false ∨ ((s.chan ch).unreliable f.src = false ∧ (s.chan ch).inWindow f ofs = true)) →
    f.codeOk 0xFFFFFFFF = true → f.num 6 1 ≤ 1 → kget 0 (s.chan ch).tte.grants slot = 0 →
    kget none (s.chan ch).tte.claims slot = none →
    ∃ t, exec (.claimReceived ch f slot) s = .next t ∧ s.onlyChan ch t ∧ (s.chan ch).sameBut [] (t.chan ch) ∧
      kget none (t.chan ch).tte.claims slot = some (f.src, f.num 0 6, f.num 6 1, f.num 7 1) ∧
      (t.chan ch).tte.grants = (s.chan ch).tte.grants) ∧
  (∀ (ch : Chan) (w : Nat) (wt : SlotWait) (p : Fin 2) (s : State), (s.chan ch).live = true → (s.chan ch).maySend = true →
    (s.chan ch).tte.enumFlag = false → (s.chan ch).rd TTE_CLAIM_STATE = 3 → (s.chan ch).claimDue = some w →
    (s.chan ch).guardBlocks = false → ((s.chan ch).claimSlots.any fun x => kget 0 (s.chan ch).tte.grants x.1 == 0) = true →
    (s.chan ch).portUp p = true → waitOn wt p ≤ (s.chan ch).halfWindow →
    ∃ t, exec (.claimRetry ⟨ch, wt⟩) s = .next t ∧ s.onlyChan ch t ∧ (s.chan ch).sameBut [TTE_CLAIM, TTE_GUARD] (t.chan ch) ∧
      (t.chan ch).rd TTE_CLAIM_STATE = 1 ∧ (t.chan ch).tte.claimFor = w ∧ (∃ g, ((p : Nat), g) ∈ (t.chan ch).tte.out) ∧
      ∀ q ∈ (t.chan ch).tte.out, q.2.kind = 2 ∧ q.2.num 7 1 = w % 256)

/-- R358 to R361: a listening lead-capable node starts the ring and withdraws for a start-up frame that ranks before
it; at the end of the wait it is lead and has joined; the second lost cycle frame raises TT_LEAD (52) and a
lead-capable node listens again; an unaddressed node takes COUNT + 1 of an outgoing enumeration pass; the lead repeats
a pass without a return after two cycles. Where the spec leaves a corner open the statement rests on the model's
reading, log entries 51, 52. -/
def Obligations.TetherStartsAndEnumerates : Prop :=
  (∀ (ch : Chan) (s : State), (s.chan ch).live = true → (s.chan ch).tteOn = true → (s.chan ch).roleT = 1 →
    (s.chan ch).leadCap = true →
    ∃ t, exec (.listenTimeout ch) s = .next t ∧ s.onlyChan ch t ∧ (s.chan ch).sameBut [TTE_STAT] (t.chan ch) ∧
      (t.chan ch).roleT = 2 ∧
      (∀ p : Fin 2, (s.chan ch).portUp p = true → ∃ g, ((p : Nat), g) ∈ (t.chan ch).tte.out ∧ g.kind = 4)) ∧
  (∀ (ch : Chan) (f : Frame) (s : State), (s.chan ch).live = true → (s.chan ch).goodFrame f 4 → (s.chan ch).roleT = 2 →
    f.codeOk 0xFFFFFFFF = true →
    ∃ t, exec (.startupFrame ch f) s = .next t ∧ s.onlyChan ch t ∧ (s.chan ch).sameBut [TTE_STAT] (t.chan ch) ∧
      (t.chan ch).roleT =
        (if ranksBefore (f.num 6 1) (f.num 0 6) (s.chan ch).addrT (s.chan ch).devId = true then 1 else 2)) ∧
  (∀ (ch : Chan) (w : SlotWait) (s : State), (s.chan ch).live = true → (s.chan ch).tteOn = true →
    (s.chan ch).roleT = 2 → (s.chan ch).joined = true →
    ∃ t, exec (.startupWaitEnd ⟨ch, w⟩) s = .next t ∧ s.onlyChan ch t ∧
      (s.chan ch).sameBut [TTE_STAT, TTE_ROLL, NTC_STAT] (t.chan ch) ∧ (t.chan ch).roleT = 3 ∧
      (t.chan ch).is NTC_STAT_LEAD = true ∧ (t.chan ch).tte.grid = (s.chan ch).tte.grid ∧
      (t.chan ch).tte.out = (s.chan ch).tte.out) ∧
  (∀ (ch : Chan) (w : SlotWait) (s : State), (s.chan ch).live = true → (s.chan ch).tteOn = true → (s.chan ch).roleT = 2 →
    (s.chan ch).joined = false →
    ∃ t, exec (.startupWaitEnd ⟨ch, w⟩) s = .next t ∧ s.onlyChan ch t ∧
      (s.chan ch).sameBut [TTE_STAT, TTE_ROLL, TTE_GUARD, TTE_CYCLE, TTE_CLAIM, NTC_STAT, NTC_EPOCH, NTC_CSTART] (t.chan ch) ∧
      (t.chan ch).roleT = 3 ∧ (t.chan ch).is NTC_STAT_LEAD = true ∧ (t.chan ch).joined = true ∧ (t.chan ch).tte.cyc = 0 ∧
      (t.chan ch).rd NTC_EPOCH_EPOCH = ((s.chan ch).rd NTC_EPOCH_EPOCH + 1) % 2 ^ 16 ∧
      (t.chan ch).tte.framed = true) ∧
  (∀ (ch : Chan) (s : State), (s.chan ch).live = true → (s.chan ch).tteOn = true → (s.chan ch).roleT = 4 →
    (s.chan ch).tte.framed = false → (s.chan ch).tte.missing = 2 → (s.chan ch).fcc.tag = none → (s.chan ch).spares 52 →
    ∃ t, exec (.cycleFrameLoss ch) s = .next t ∧ s.onlyChan ch t ∧ (s.chan ch).sameButEvents [TTE_STAT] (t.chan ch) ∧
      (t.chan ch).roleT = (if (s.chan ch).leadCap = true then 1 else 4) ∧ (t.chan ch).srcBit FCC_STAT_SRC 52 = true) ∧
  (∀ (ch : Chan) (f : Frame) (s : State), (s.chan ch).live = true → (s.chan ch).goodFrame f 3 →
    (s.chan ch).roleT ≠ 0 → (s.chan ch).roleT ≠ 3 → (s.chan ch).joined = false → f.codeOk 0xFFFFFFFF = true →
    f.num 1 1 = 0 → f.num 0 1 < 62 → (s.chan ch).addrT = 0 → (s.chan ch).enumerated = true →
    ∃ t, exec (.enumerationFrame ch f) s = .next t ∧ s.onlyChan ch t ∧ (s.chan ch).sameBut [TTE_STAT] (t.chan ch) ∧
      (t.chan ch).addrT = f.num 0 1 + 1 ∧ (t.chan ch).roleT = (s.chan ch).roleT) ∧
  (∀ (ch : Chan) (w : SlotWait) (s : State), (s.chan ch).live = true → (s.chan ch).tteOn = true → (s.chan ch).roleT = 3 →
    (s.chan ch).tte.enumFlag = true → (s.chan ch).tte.enumPass = 1 → 2 ≤ (s.chan ch).tte.enumAge →
    (s.chan ch).portUp 0 = true → (s.chan ch).addrT ≠ 0 →
    ∃ t, exec (.enumerationResend ⟨ch, w⟩) s = .next t ∧ s.onlyChan ch t ∧ (s.chan ch).sameBut [TTE_GUARD] (t.chan ch) ∧
      (t.chan ch).tte.enumAge = 0 ∧ (t.chan ch).tte.enumPass = 1 ∧
      (w.p0 ≤ (s.chan ch).halfWindow → (∃ g, (t.chan ch).tte.out = [(0, g)] ∧ g.kind = 3) ∧
        (t.chan ch).rd TTE_GUARD_COLL = (s.chan ch).rd TTE_GUARD_COLL) ∧
      ((s.chan ch).halfWindow < w.p0 → (t.chan ch).tte.out = (s.chan ch).tte.out ∧
        (t.chan ch).rd TTE_GUARD_COLL = satInc 8 ((s.chan ch).rd TTE_GUARD_COLL)))

/-- R367, R370 to R372, R386: a read of NTC_TIMEL captures all 64 bits of network time; a link-delay request goes out
and waits for its response, a request received is answered on its port, a response in its limits adds one measurement
of at most 8, the eighth discarded one in a row empties the filter and raises NT_LINKD (57). A cycle mark fires once
per cycle. Where the spec leaves a corner open the statement rests on the model's reading, log entry 53. -/
def Obligations.NetworkTimeIsReadAndMeasured : Prop :=
  (∀ (ch : Chan) (s : State), (s.chan ch).live = true → (s.chan ch).ntcOn = true →
    ∃ t, exec (.ntcTimelRead ch) s = .next t ∧ s.onlyChan ch t ∧ (s.chan ch).sameBut [NTC_TIMEL, NTC_TIMEH] (t.chan ch) ∧
      (t.chan ch).bus = .ok (BitVec.ofNat 32 ((s.chan ch).ntc.nt / 2 ^ 24)) ∧
      (t.chan ch).rd NTC_TIMEH_NS = (s.chan ch).ntc.nt / 2 ^ 56 % 2 ^ 32 ∧ (t.chan ch).ntc = (s.chan ch).ntc) ∧
  (∀ (ch : Chan) (port : Fin 2) (t1 : Int) (s : State), (s.chan ch).live = true → (s.chan ch).tteOn = true →
    (s.chan ch).ntcOn = true →
    ∃ t, exec (.linkDelayRequestSend ch port t1) s = .next t ∧ s.onlyChan ch t ∧ (s.chan ch).sameBut [] (t.chan ch) ∧
      ((t.chan ch).ntc.ld port).wait = some ((((s.chan ch).ntc.ld port).seq + 1) % 65536, t1) ∧
      (∀ q : Fin 2, q ≠ port → (t.chan ch).ntc.ld q = (s.chan ch).ntc.ld q) ∧
      ∃ g, (t.chan ch).tte.out = [((port : Nat), g)] ∧ g.kind = 5 ∧ g.hops = 0 ∧ g.payload.length = 8 ∧
        g.num 0 2 = (((s.chan ch).ntc.ld port).seq + 1) % 65536) ∧
  (∀ (ch : Chan) (f : Frame) (t3 : Int) (s : State), (s.chan ch).live = true → (s.chan ch).goodFrame f 5 →
    f.codeOk 0xFFFFFFFF = true →
    ∃ t, exec (.linkDelayRequestReceived ch f t3) s = .next t ∧ s.onlyChan ch t ∧ (s.chan ch).sameBut [] (t.chan ch) ∧
      ∃ g, (t.chan ch).tte.out = [((f.port : Nat), g)] ∧ g.kind = 6 ∧ g.hops = 0 ∧ g.payload.length = 16 ∧
        g.payload.take 2 = f.payload.take 2) ∧
  (∀ (ch : Chan) (f : Frame) (seq : Nat) (t1 : Int) (s : State), (s.chan ch).live = true → (s.chan ch).goodFrame f 6 →
    f.codeOk 0xFFFFFFFF = true → (s.chan ch).ntcOn = true → ((s.chan ch).ntc.ld f.port).wait = some (seq, t1) →
    f.num 0 2 = seq → f.trx - t1 ≤ 50000 * 65536 → ((s.chan ch).ntc.ld f.port).valid = false →
    0 ≤ rdiv (f.trx - t1 - toSigned 64 (f.num 8 8)) 8192 → rdiv (f.trx - t1 - toSigned 64 (f.num 8 8)) 8192 ≤ 8000 →
    ∃ t, exec (.linkDelayResponseReceived ch f) s = .next t ∧ s.onlyChan ch t ∧
      (s.chan ch).sameBut [NTC_LD f.port, NTC_STAT] (t.chan ch) ∧ ((t.chan ch).ntc.ld f.port).wait = none ∧
      ((t.chan ch).ntc.ld f.port).disc = 0 ∧
      ((t.chan ch).ntc.ld f.port).kept =
        ((s.chan ch).ntc.ld f.port).kept ++ [rdiv (f.trx - t1 - toSigned 64 (f.num 8 8)) 8192] ∧
      (t.chan ch).rd (NTC_LD_NVAL f.port) = ((s.chan ch).ntc.ld f.port).kept.length + 1) ∧
  (∀ (ch : Chan) (port : Fin 2) (s : State), (s.chan ch).live = true → (s.chan ch).ntcOn = true →
    ((s.chan ch).ntc.ld port).wait.isSome = true → ((s.chan ch).ntc.ld port).disc = 7 → (s.chan ch).fcc.tag = none →
    (s.chan ch).spares 57 →
    ∃ t, exec (.linkDelayTimeout ch port) s = .next t ∧ s.onlyChan ch t ∧
      (s.chan ch).sameButEvents [NTC_LDERR, NTC_LD port, NTC_STAT] (t.chan ch) ∧
      ((t.chan ch).ntc.ld port).wait = none ∧ ((t.chan ch).ntc.ld port).kept = [] ∧
      (t.chan ch).srcBit FCC_STAT_SRC 57 = true) ∧
  (∀ (ch : Chan) (port : Fin 2) (s : State), (s.chan ch).live = true → (s.chan ch).ntcOn = true →
    ((s.chan ch).ntc.ld port).wait.isSome = true → ((s.chan ch).ntc.ld port).disc < 7 →
    ∃ t, exec (.linkDelayTimeout ch port) s = .next t ∧ s.onlyChan ch t ∧
      (s.chan ch).sameBut [NTC_LDERR, NTC_LD port, NTC_STAT] (t.chan ch) ∧
      ((t.chan ch).ntc.ld port).wait = none ∧ ((t.chan ch).ntc.ld port).disc = ((s.chan ch).ntc.ld port).disc + 1 ∧
      ((t.chan ch).ntc.ld port).kept = ((s.chan ch).ntc.ld port).kept) ∧
  (∀ (ch : Chan) (m : Fin 8) (s : State), (s.chan ch).live = true → (s.chan ch).ntcOn = true → (s.chan ch).joined = true →
    ((recsFor (s.chan ch).fol.recs 0x0504 (s.chan ch).me).any fun r =>
      bitsOf (r.w 1) 0 3 == m && r.w 1 == (s.chan ch).rd (NTC_MKCFG1_VALUE m)) = true →
    (((s.chan ch).rd (NTC_MKCFG2_VALUE m)).testBit 8 ||
      bitsOf ((s.chan ch).rd (NTC_MKCFG2_VALUE m)) 0 8 == (s.chan ch).rd TTE_ROLL_ROW) = true →
    kget 0 (s.chan ch).ntc.fired m ≠ (s.chan ch).tte.cyc + 1 →
    ∃ t, exec (.cycleMark ch m) s = .next t ∧ s.onlyChan ch t ∧
      (s.chan ch).sameBut [NTC_MKSTAT m, NTC_MKTIME m] (t.chan ch) ∧ (t.chan ch).is (NTC_MKSTAT_PEND m) = true ∧
      (t.chan ch).rd (NTC_MKSTAT_FIRED m) = ((s.chan ch).rd (NTC_MKSTAT_FIRED m) + 1) % 2 ^ 16 ∧
      (t.chan ch).rd (NTC_MKTIME_NS m) = (s.chan ch).ntNs % 2 ^ 32 ∧
      kget 0 (t.chan ch).ntc.fired m = (s.chan ch).tte.cyc + 1) ∧
  (∀ (ch : Chan) (m : Fin 8) (s : State), kget 0 (s.chan ch).ntc.fired m = (s.chan ch).tte.cyc + 1 →
    ∃ t, exec (.cycleMark ch m) s = .next t ∧ s.onlyChan ch t ∧ t.chan ch = s.chan ch)

/-- R394: against a claim of its address with a larger NAME a function keeps the address, and the voice claims it
again; with a smaller NAME a function that cannot configure its address loses it and raises ISO_CLAIM (58); the voice's
own claim, as the bus carries it, sets the address in every channel; the hold-off of a claim ends with the address
held. R395, R397, R399, R404, R432: messages for the device enter the receive queue of 16 with the time of their
arrival, or are dropped and counted on a full one; a Time/Date message also sets the calendar where the voice can pass
it on; the queue gives up its oldest entry; a request for Address Claimed of a function is answered by the voice. Where
the spec leaves a corner open the statement rests on the model's reading, log entries 54, 55, 56. -/
def Obligations.IsobusAddressesAndMessages : Prop :=
  (∀ (ch : Chan) (f : CanFrame) (n : Fin 2) (r : FolRec) (s : State), (s.chan ch).live = true → (s.chan ch).canRx = true →
    f.pgn = 0xEE00 →
    (∀ k : Fin 2, ((s.chan ch).cfRec k).any (fun x => cfName x == leNat (f.data.take 8)) = false) →
    (s.chan ch).funcOf f.sa = some (n : Nat) → (s.chan ch).cfRec n = some r → cfName r ≤ leNat (f.data.take 8) →
    ∃ t, exec (.addressClaimReceived ch f) s = .next t ∧ s.onlyChan ch t ∧ (s.chan ch).sameBut [] (t.chan ch) ∧
      ((s.chan ch).speaks = true →
        (t.chan ch).can.queue = (s.chan ch).can.queue ++ [claimFrame ((s.chan ch).saOf n) (cfName r)])) ∧
  (∀ (ch : Chan) (f : CanFrame) (n : Fin 2) (r : FolRec) (s : State), (s.chan ch).live = true → (s.chan ch).canRx = true →
    f.pgn = 0xEE00 →
    (∀ k : Fin 2, ((s.chan ch).cfRec k).any (fun x => cfName x == leNat (f.data.take 8)) = false) →
    (s.chan ch).funcOf f.sa = some (n : Nat) → (s.chan ch).cfRec n = some r → leNat (f.data.take 8) < cfName r →
    cfSelf r = false → (s.chan ch).fcc.tag = none → (s.chan ch).spares 58 →
    ∃ t, exec (.addressClaimReceived ch f) s = .next t ∧ s.onlyChan ch t ∧
      (s.chan ch).sameButEvents [CAN_CLAIM n] (t.chan ch) ∧ (t.chan ch).saOf n = 254 ∧ (t.chan ch).claimState n = 3 ∧
      (t.chan ch).rd (CAN_CLAIM_LOSSES n) = satInc 8 ((s.chan ch).rd (CAN_CLAIM_LOSSES n)) ∧
      (t.chan ch).srcBit FCC_STAT_SRC 58 = true) ∧
  (∀ (ch : Chan) (f : CanFrame) (r : FolRec) (s : State), (s.chan ch).live = true → (s.chan ch).canRx = true →
    f.pgn = 0xEE00 → (s.chan ch).cfRec 0 = some r → cfName r = leNat (f.data.take 8) → f.sa < 254 →
    (s.chan ch).saOf 0 ≠ f.sa →
    ∃ t, exec (.addressClaimReceived ch f) s = .next t ∧ s.onlyChan ch t ∧ (s.chan ch).sameBut [CAN_CLAIM 0] (t.chan ch) ∧
      (t.chan ch).saOf 0 = f.sa ∧ (t.chan ch).claimState 0 = 1 ∧ (t.chan ch).can.hold 0 = true) ∧
  (∀ (ch : Chan) (n : Fin 2) (s : State), (s.chan ch).live = true → (s.chan ch).canOn = true →
    (s.chan ch).can.hold n = true → (s.chan ch).claimState n = 1 →
    ∃ t, exec (.claimHoldOffEnd ch n) s = .next t ∧ s.onlyChan ch t ∧ (s.chan ch).sameBut [CAN_CLAIM n] (t.chan ch) ∧
      (t.chan ch).claimState n = 2 ∧ (t.chan ch).can.hold n = false ∧ (t.chan ch).saOf n = (s.chan ch).saOf n) ∧
  (∀ (ch : Chan) (i : Instr) (f : CanFrame) (s : State), (s.chan ch).live = true → (s.chan ch).canRx = true →
    ((i = .guidanceCommandReceived ch f ∧ f.pgn = 0xAC00 ∧ (f.da = 255 ∨ (s.chan ch).funcOf f.da = some 0)) ∨
      (i = .speedMessageReceived ch f ∧ (f.pgn = 0xFE48 ∨ f.pgn = 0xFE49) ∧ f.da = 255) ∨
      (i = .canFrameReceived ch f ∧ (s.chan ch).canForMe f = true ∧
        [0xAC00, 0xFE48, 0xFE49, 0xFEE6, 0xEA00, 0xEC00, 0xEB00, 0xEE00].contains f.pgn = false)) →
    ∃ t, exec i s = .next t ∧ s.onlyChan ch t ∧
      (s.chan ch).sameBut [CAN_RXCTL, CAN_RXINFO, CAN_RXMETA] (t.chan ch) ∧
      ((s.chan ch).can.rxq.length < 16 →
        (t.chan ch).can.rxq = (s.chan ch).can.rxq ++ [⟨f.pgn, f.sa, (s.chan ch).tb.toNat / 2000 % 65536, f.data⟩] ∧
        (t.chan ch).rd CAN_RXCTL_COUNT = min 15 ((s.chan ch).can.rxq.length + 1)) ∧
      (16 ≤ (s.chan ch).can.rxq.length → (t.chan ch).can.rxq = (s.chan ch).can.rxq ∧
        (t.chan ch).rd CAN_RXCTL_DROP = satInc 16 ((s.chan ch).rd CAN_RXCTL_DROP))) ∧
  (∀ (ch : Chan) (f : CanFrame) (n : Nat) (s : State), (s.chan ch).live = true → (s.chan ch).canRx = true →
    f.pgn = 0xFEE6 → (s.chan ch).canForMe f = true → timeOf f.data = some n → (s.chan ch).can.rxq.length < 16 →
    ∃ t, exec (.timeDateReceived ch f) s = .next t ∧ (∀ o, o ≠ ch → t.chan o = s.chan o) ∧ t.pending = s.pending ∧
      (s.chan ch).sameBut [CAN_RXCTL, CAN_RXINFO, CAN_RXMETA] (t.chan ch) ∧
      (t.chan ch).can.rxq = (s.chan ch).can.rxq ++ [⟨f.pgn, f.sa, (s.chan ch).tb.toNat / 2000 % 65536, f.data⟩] ∧
      t.mss = (if (s.chan ch).voice = true ∧ (s.chan ch).mlink = true ∧ (s.mss.port ch).up = true ∧ s.mss.mpRuns = true then
          s.mss.calendar (n % 2 ^ 32) else s.mss)) ∧
  (∀ (ch : Chan) (s : State), (s.chan ch).live = true → (s.chan ch).canOn = true →
    ∃ t, exec (.canRxPop ch) s = .next t ∧ s.onlyChan ch t ∧
      (s.chan ch).sameBut [CAN_RXCTL, CAN_RXINFO, CAN_RXMETA] (t.chan ch) ∧ (t.chan ch).bus = .ok 0 ∧
      (t.chan ch).can.rxq = (s.chan ch).can.rxq.drop 1 ∧
      (t.chan ch).rd CAN_RXCTL_COUNT = min 15 ((s.chan ch).can.rxq.length - 1)) ∧
  (∀ (ch : Chan) (f : CanFrame) (n : Fin 2) (r : FolRec) (s : State), (s.chan ch).live = true →
    (s.chan ch).speaks = true → f.pgn = 0xEA00 → f.da ≠ 255 → leNat (f.data.take 3) = 0xEE00 →
    (s.chan ch).funcOf f.da = some (n : Nat) → (s.chan ch).cfRec n = some r →
    ∃ t, exec (.requestReceived ch f) s = .next t ∧ s.onlyChan ch t ∧ (s.chan ch).sameBut [] (t.chan ch) ∧
      (t.chan ch).can.queue = (s.chan ch).can.queue ++ [claimFrame f.da (cfName r)])

/-- R389, R400 to R402: an RTS within the buffer opens a session and the voice answers with CTS, one beyond it is
answered by an abort with reason 2; a BAM opens a session or is counted; the expected data packet adds seven bytes, the
last one of a broadcast queues the message; a timeout ends the session and is counted. A CTS lets the packets it names
leave, the acknowledgment of the last one ends the own session with RES 1. Where the spec leaves a corner open the
statement rests on the model's reading, log entries 54, 55. -/
def Obligations.IsobusSessionsCarryMessages : Prop :=
  (∀ (ch : Chan) (f : CanFrame) (s : State), (s.chan ch).live = true → (s.chan ch).speaks = true → f.pgn = 0xEC00 →
    f.data.head? = some 16 → ((s.chan ch).funcOf f.da).isSome = true →
    (f.data.getD 1 0).toNat + 256 * (f.data.getD 2 0).toNat ≤ (s.chan ch).rxBuf →
    ((s.chan ch).can.dropSession f.sa f.da).rx.length < 4 →
    ∃ t, exec (.tpRtsReceived ch f) s = .next t ∧ s.onlyChan ch t ∧ (s.chan ch).sameBut [] (t.chan ch) ∧
      (∃ r, (t.chan ch).can.session f.sa f.da = some r ∧ r.pgn = tpPgnOf f ∧ r.next = 1 ∧ r.data = [] ∧ r.bam = false ∧
        r.size = (f.data.getD 1 0).toNat + 256 * (f.data.getD 2 0).toNat) ∧
      ∃ g, (t.chan ch).can.queue = (s.chan ch).can.queue ++ [g] ∧ g.pgn = 0xEC00 ∧ g.data.head? = some 17 ∧ g.da = f.sa) ∧
  (∀ (ch : Chan) (f : CanFrame) (s : State), (s.chan ch).live = true → (s.chan ch).speaks = true → f.pgn = 0xEC00 →
    f.data.head? = some 16 → ((s.chan ch).funcOf f.da).isSome = true →
    (s.chan ch).rxBuf < (f.data.getD 1 0).toNat + 256 * (f.data.getD 2 0).toNat →
    ∃ t, exec (.tpRtsReceived ch f) s = .next t ∧ s.onlyChan ch t ∧ (s.chan ch).sameBut [CAN_TP] (t.chan ch) ∧
      (t.chan ch).can.rx = (s.chan ch).can.rx ∧
      (t.chan ch).can.queue = (s.chan ch).can.queue ++ [tpAbort f.da f.sa 2 (tpPgnOf f)] ∧
      (t.chan ch).rd CAN_TP_ABRES = satInc 8 ((s.chan ch).rd CAN_TP_ABRES)) ∧
  (∀ (ch : Chan) (f : CanFrame) (s : State), (s.chan ch).live = true → (s.chan ch).canRx = true → f.pgn = 0xEC00 →
    f.data.head? = some 32 → f.da = 255 →
    ∃ t, exec (.tpBamReceived ch f) s = .next t ∧ s.onlyChan ch t ∧ (s.chan ch).sameBut [CAN_TP] (t.chan ch) ∧
      ((f.data.getD 1 0).toNat + 256 * (f.data.getD 2 0).toNat ≤ (s.chan ch).rxBuf →
        ((s.chan ch).can.dropSession f.sa 255).rx.length < 4 →
        (t.chan ch).rd CAN_TP_BAMOVR = (s.chan ch).rd CAN_TP_BAMOVR ∧
        ∃ r, (t.chan ch).can.session f.sa 255 = some r ∧ r.pgn = tpPgnOf f ∧ r.next = 1 ∧ r.bam = true) ∧
      ((s.chan ch).rxBuf < (f.data.getD 1 0).toNat + 256 * (f.data.getD 2 0).toNat →
        (t.chan ch).can.rx = (s.chan ch).can.rx ∧
        (t.chan ch).rd CAN_TP_BAMOVR = satInc 8 ((s.chan ch).rd CAN_TP_BAMOVR))) ∧
  (∀ (ch : Chan) (f : CanFrame) (r : RxSession) (s : State), (s.chan ch).live = true → (s.chan ch).canRx = true →
    f.pgn = 0xEB00 → (s.chan ch).can.session f.sa f.da = some r → r.bam = true → (f.data.getD 0 0).toNat = r.next →
    ∃ t, exec (.tpDtReceived ch f) s = .next t ∧ s.onlyChan ch t ∧
      (s.chan ch).sameBut [CAN_RXCTL, CAN_RXINFO, CAN_RXMETA] (t.chan ch) ∧
      (r.next < r.packets → (t.chan ch).can.rxq = (s.chan ch).can.rxq ∧
        (t.chan ch).can.session f.sa f.da =
          some { r with data := r.data ++ (f.data.drop 1).take 7, next := r.next + 1 }) ∧
      (r.packets ≤ r.next → (t.chan ch).can.session f.sa f.da = none ∧
        ((s.chan ch).can.rxq.length < 16 → (t.chan ch).can.rxq = (s.chan ch).can.rxq ++
          [⟨r.pgn, r.sa, (s.chan ch).tb.toNat / 2000 % 65536, (r.data ++ (f.data.drop 1).take 7).take r.size⟩]))) ∧
  (∀ (ch : Chan) (sa da : Nat) (r : RxSession) (s : State), (s.chan ch).live = true → (s.chan ch).canRx = true →
    (s.chan ch).can.session sa da = some r →
    ∃ t, exec (.tpTimeout ch sa da) s = .next t ∧ t.mss = s.mss ∧ (∀ o, o ≠ ch → (s.chan o).sameBut [] (t.chan o)) ∧
      (s.chan ch).sameBut [CAN_TP] (t.chan ch) ∧ (t.chan ch).can.session sa da = none ∧
      (t.chan ch).rd CAN_TP_TOUT = satInc 8 ((s.chan ch).rd CAN_TP_TOUT)) ∧
  (∀ (ch : Chan) (f : CanFrame) (n : Fin 2) (x : TxSession) (s : State), (s.chan ch).live = true →
    (s.chan ch).speaks = true → f.pgn = 0xEC00 → (s.chan ch).funcOf f.da = some (n : Nat) → (s.chan ch).can.tx n = some x →
    x.da = f.sa → x.pgn = tpPgnOf f → (f.data.getD 0 0).toNat = 17 → (f.data.getD 1 0).toNat = 1 →
    1 ≤ (f.data.getD 2 0).toNat → (f.data.getD 2 0).toNat ≤ packetsOf x.data.length →
    ∃ t, exec (.tpCtsReceived ch f) s = .next t ∧ t.mss = s.mss ∧ (∀ o, (s.chan o).sameBut [] (t.chan o)) ∧
      (t.chan ch).can.queue =
        (s.chan ch).can.queue ++ [tpDt ((s.chan ch).saOf n) x.da (f.data.getD 2 0).toNat x.data] ∧
      (t.chan ch).can.tx n = some { x with next := (f.data.getD 2 0).toNat + 1 }) ∧
  (∀ (ch : Chan) (f : CanFrame) (n : Fin 2) (x : TxSession) (s : State), (s.chan ch).live = true →
    (s.chan ch).canRx = true → f.pgn = 0xEC00 → (s.chan ch).funcOf f.da = some (n : Nat) →
    (s.chan ch).can.tx n = some x → x.da = f.sa → x.pgn = tpPgnOf f → (f.data.getD 0 0).toNat = 19 →
    ∃ t, exec (.tpCtsReceived ch f) s = .next t ∧ t.mss = s.mss ∧ (∀ o, o ≠ ch → (s.chan o).sameBut [] (t.chan o)) ∧
      (s.chan ch).sameBut [CAN_TXCTL] (t.chan ch) ∧ (t.chan ch).can.tx n = none ∧
      ((s.chan ch).rd CAN_TXCTL_CF = n → (t.chan ch).rd CAN_TXCTL_RES = 1 ∧ (t.chan ch).is CAN_TXCTL_BUSY = false))

/-- R393 to R398, R402 to R404: a transmit request of the voice puts its message on the queue, one of any other channel
is discarded and counted; a frame that has left ends the function's request with RES 1; a broadcast sends its next
packet; the status message is octets 0 to 7 of the status payload; a voice starts to transmit with the answers owed;
ISO_VOICE (59) is raised by the voice; bus-off is counted and raises ISO_BUSOFF (60) but not in restricted operation;
integration ends it. Where the spec leaves a corner open the statement rests on the model's reading, log entries 54,
55. -/
def Obligations.IsobusVoiceTransmits : Prop :=
  (∀ (ch : Chan) (n : Fin 2) (v : Word) (s : State), (s.chan ch).live = true → (s.chan ch).canOn = true →
    (s.chan ch).voice = true → v.toNat.testBit 31 = true → v.toNat / 2 ^ 27 % 2 = n → v.toNat % 2 ^ 11 ≤ 8 →
    (s.chan ch).can.tx n = none → (s.chan ch).funcOf ((s.chan ch).saOf n) = some (n : Nat) →
    (s.mss.is LOG_STAT_DEAD = false ∨ (s.chan ch).rd CAN_TXPGN_PGN ≠ 0xFECA) →
    ∃ t, exec (.canTxGo ch v) s = .next t ∧ t.mss = s.mss ∧ (∀ o, o ≠ ch → (s.chan o).sameBut [] (t.chan o)) ∧
      (s.chan ch).sameBut [CAN_TXCTL, CAN_TP] (t.chan ch) ∧ (t.chan ch).bus = .ok 0 ∧
      (t.chan ch).rd CAN_TXCTL_RES = 0 ∧
      (t.chan ch).can.queue = (s.chan ch).can.queue ++ [⟨(s.chan ch).rd CAN_TXPGN_PGN, (s.chan ch).saOf n,
        v.toNat / 2 ^ 16 % 2 ^ 8, (s.chan ch).can.txBuf.readBytes 0 (v.toNat % 2 ^ 11)⟩]) ∧
  (∀ (ch : Chan) (v : Word) (s : State), (s.chan ch).live = true → (s.chan ch).canOn = true →
    (s.chan ch).voice = false → v.toNat.testBit 31 = true →
    ∃ t, exec (.canTxGo ch v) s = .next t ∧ s.onlyChan ch t ∧ (s.chan ch).sameBut [CAN_TXCTL, CAN_ERR] (t.chan ch) ∧
      (t.chan ch).rd CAN_TXCTL_RES = 3 ∧ (t.chan ch).rd CAN_ERR_TXDISC = satInc 8 ((s.chan ch).rd CAN_ERR_TXDISC) ∧
      (t.chan ch).can.queue = (s.chan ch).can.queue) ∧
  (∀ (ch : Chan) (n : Fin 2) (f : CanFrame) (s : State), (s.chan ch).live = true → (s.chan ch).speaks = true →
    (s.chan ch).nextFrame n = some f → (s.chan ch).can.pend n = some f → (s.chan ch).can.tx n = none →
    ∃ t, exec (.canFrameSent ch n) s = .next t ∧ t.mss = s.mss ∧ (∀ o, o ≠ ch → (s.chan o).sameBut [] (t.chan o)) ∧
      (s.chan ch).sameBut [CAN_TXCTL] (t.chan ch) ∧ (t.chan ch).can.out = [f] ∧
      (t.chan ch).can.queue = dropFirst f (s.chan ch).can.queue ∧ (t.chan ch).can.pend n = none ∧
      ((s.chan ch).rd CAN_TXCTL_CF = n → (t.chan ch).rd CAN_TXCTL_RES = 1)) ∧
  (∀ (ch : Chan) (n : Fin 2) (x : TxSession) (s : State), (s.chan ch).live = true → (s.chan ch).speaks = true →
    (s.chan ch).can.tx n = some x → x.da = 255 → x.next ≤ packetsOf x.data.length →
    ∃ t, exec (.bamPacketSend ch n) s = .next t ∧ t.mss = s.mss ∧ (∀ o, (s.chan o).sameBut [] (t.chan o)) ∧
      (t.chan ch).can.queue = (s.chan ch).can.queue ++ [tpDt ((s.chan ch).saOf n) 255 x.next x.data] ∧
      (t.chan ch).can.tx n = some { x with next := x.next + 1 }) ∧
  (∀ (ch : Chan) (s : State), (s.chan ch).live = true → (s.chan ch).speaks = true → (s.chan ch).claimState 0 = 2 →
    ∃ t, exec (.statusMessageSend ch) s = .next t ∧ s.onlyChan ch t ∧ (s.chan ch).sameBut [] (t.chan ch) ∧
      (t.chan ch).can.queue =
        (s.chan ch).can.queue ++ [⟨0xFF5A, (s.chan ch).saOf 0, 255, (s.chan ch).statusPayload.take 8⟩]) ∧
  (∀ (ch : Chan) (s : State), (s.chan ch).live = true → (s.chan ch).canRx = true → (s.chan ch).voice = true →
    (s.chan ch).can.on = false →
    ∃ t, exec (.voiceTxStart ch) s = .next t ∧ t.mss = s.mss ∧ (∀ o, o ≠ ch → (s.chan o).sameBut [] (t.chan o)) ∧
      (s.chan ch).sameBut [CAN_CLAIM 0, CAN_CLAIM 1, CAN_TP] (t.chan ch) ∧ (t.chan ch).speaks = true ∧
      (∀ o, (s.chan o).live = true → (t.chan o).can.owed = [] ∧ (t.chan o).can.theirs = []) ∧
      ((s.chan ch).can.theirs = [] → (s.chan ch).claimState 0 ≠ 0 → (s.chan ch).claimState 1 ≠ 0 →
        (t.chan ch).can.queue = (s.chan ch).can.queue ++ (s.chan ch).can.owed)) ∧
  (∀ (ch : Chan) (s : State), (s.chan ch).live = true → (s.chan ch).canOn = true → (s.chan ch).voice = true →
    (s.chan ch).fcc.tag = none → (s.chan ch).spares 59 →
    ∃ t, exec (.isoVoice ch) s = .next t ∧ s.onlyChan ch t ∧ (s.chan ch).sameButEvents [] (t.chan ch) ∧
      (t.chan ch).srcBit FCC_STAT_SRC 59 = true) ∧
  (∀ (ch : Chan) (s : State), (s.chan ch).live = true → (s.chan ch).canRx = true →
    (s.chan ch).is CAN_ISTAT_RESTRICT = false → (s.chan ch).fcc.tag = none → (s.chan ch).spares 60 →
    ∃ t, exec (.isoBusoff ch) s = .next t ∧ s.onlyChan ch t ∧
      (s.chan ch).sameButEvents [CAN_ISTAT, CAN_ERR] (t.chan ch) ∧ (t.chan ch).is CAN_ISTAT_OFF = true ∧
      (t.chan ch).rd CAN_ISTAT_BUSOFF = satInc 8 ((s.chan ch).rd CAN_ISTAT_BUSOFF) ∧ (t.chan ch).canRx = false ∧
      (t.chan ch).srcBit FCC_STAT_SRC 60 = true) ∧
  (∀ (ch : Chan) (s : State), (s.chan ch).is CAN_ISTAT_RESTRICT = true →
    ∃ t, exec (.isoBusoff ch) s = .next t ∧ s.onlyChan ch t ∧ t.chan ch = s.chan ch) ∧
  (∀ (ch : Chan) (s : State), (s.chan ch).live = true → (s.chan ch).canOn = true →
    ∃ t, exec (.busIntegrationDone ch) s = .next t ∧ s.onlyChan ch t ∧
      (s.chan ch).sameBut [CAN_ISTAT, CAN_ERR] (t.chan ch) ∧ (t.chan ch).can.up = true ∧
      (t.chan ch).is CAN_ISTAT_OFF = false ∧ (t.chan ch).rd CAN_ERR_TEC = 0 ∧ (t.chan ch).rd CAN_ERR_REC = 0)

/-- R409 and the sources of R405: FAULT_EVENT, TEMP_CD (source 6), CP_WDOG (61) and D2D_ERR (14), on a running channel
whose block for the source is enabled and not in reset, with no injection announced: the status bits are set, OCC and
the counting run advance, and the capture names the source while the log queue has room. R417, R419, R420:
RUN_WINDOW_END closes the source's counting run and nothing else; RECOVERY of an active source that is not severe
clears its FCC_ACT bit and counts REC, and closes no run. Where the spec leaves a corner open the statement rests on
the model's reading, log entry 57. -/
def Obligations.FaultEventsRunsAndRecovery : Prop :=
  (∀ (ch : Chan) (i : Instr) (src : Fin 64) (s : State),
    (i = .faultEvent ch src ∨ (i = .tempCd ch ∧ src = 6) ∨ (i = .cpWdog ch ∧ src = 61) ∨ (i = .d2dErr ch ∧ src = 14)) →
    (s.chan ch).live = true → (s.chan ch).blockOn (blockOf src) = true → (s.chan ch).fcc.tag = none →
    (s.chan ch).spares src →
    ∃ t, exec i s = .next t ∧ s.onlyChan ch t ∧ (s.chan ch).kept (t.chan ch) ∧
      (t.chan ch).srcBit FCC_STAT_SRC src = true ∧ (t.chan ch).srcBit FCC_ACT_SRC src = true ∧
      (src ≠ 63 → (t.chan ch).rd (FCC_CNT_OCC src) = satInc 16 ((s.chan ch).rd (FCC_CNT_OCC src)) ∧
        kget 0 (t.chan ch).fcc.runs src = kget 0 (s.chan ch).fcc.runs src + 1) ∧
      ((s.chan ch).hasRoom = true → (t.chan ch).rd FCC_LAST_SRC = src ∧
        ∃ v, v ≤ (s.chan ch).tb.toNat ∧ (s.chan ch).tb.toNat ≤ v + 28 ∧ (t.chan ch).rd FCC_LASTT_TB = v % 2 ^ 32)) ∧
  (∀ (ch : Chan) (src : Fin 64) (s : State), (s.chan ch).live = true →
    ∃ t, exec (.runWindowEnd ch src) s = .next t ∧ s.onlyChan ch t ∧ (s.chan ch).sameBut [] (t.chan ch) ∧
      kget 0 (t.chan ch).fcc.runs src = 0 ∧
      ∀ n, n ≠ (src : Nat) → kget 0 (t.chan ch).fcc.runs n = kget 0 (s.chan ch).fcc.runs n) ∧
  (∀ (ch : Chan) (src : Fin 64) (s : State), (s.chan ch).live = true → (s.chan ch).srcBit FCC_ACT_SRC src = true →
    (s.chan ch).severe src = false → (s.chan ch).spares 63 → src ≠ 63 →
    ∃ t, exec (.recovery ch src) s = .next t ∧ s.onlyChan ch t ∧ (s.chan ch).kept (t.chan ch) ∧
      (t.chan ch).srcBit FCC_ACT_SRC src = false ∧
      (t.chan ch).rd (FCC_CNT_REC src) = satInc 16 ((s.chan ch).rd (FCC_CNT_REC src)) ∧
      kget 0 (t.chan ch).fcc.runs src = kget 0 (s.chan ch).fcc.runs src)

/-- R421: FCC_EPIN_HOLD with HOLD = 1 drives ERR_x low; HOLD = 0 releases it unless a pulse runs, the channel is
fail-silent or not yet sealed; EPIN_PULSE_END ends the pulse and releases the pin unless another condition holds it.
Only FCC_EPIN changes. R423, R424: before the seal, with no injection running, a START of FCC_INJ forces the source's
output; the tagged event sets no status bit and advances neither OCC nor the run, and is seen with its latency.
INJECTION_RELEASE lifts the force; INJECTION_SAMPLE ends the injection, and a level still high is a real event of the
source. -/
def Obligations.ErrorPinAndInjection : Prop :=
  (∀ (ch : Chan) (hold : Bool) (s : State), (s.chan ch).live = true →
    ∃ t, exec (.fccEpinHold ch hold) s = .next t ∧ s.onlyChan ch t ∧ (s.chan ch).sameBut [FCC_EPIN] (t.chan ch) ∧
      (t.chan ch).is FCC_EPIN_HOLD = hold ∧ (t.chan ch).rd FCC_EPIN_PULSES = (s.chan ch).rd FCC_EPIN_PULSES ∧
      ((t.chan ch).is FCC_EPIN_LEVEL = false ↔ hold = true ∨ (s.chan ch).fcc.pulse = true ∨
        (s.chan ch).failSilent = true ∨ (s.chan ch).is STW_SEAL_SEAL = false)) ∧
  (∀ (ch : Chan) (s : State), (s.chan ch).live = true →
    ∃ t, exec (.epinPulseEnd ch) s = .next t ∧ s.onlyChan ch t ∧ (s.chan ch).sameBut [FCC_EPIN] (t.chan ch) ∧
      (t.chan ch).fcc.pulse = false ∧ (t.chan ch).is FCC_EPIN_HOLD = (s.chan ch).is FCC_EPIN_HOLD ∧
      ((t.chan ch).is FCC_EPIN_LEVEL = false ↔ (s.chan ch).is FCC_EPIN_HOLD = true ∨
        (s.chan ch).failSilent = true ∨ (s.chan ch).is STW_SEAL_SEAL = false)) ∧
  (∀ (ch : Chan) (v : Word) (latency : Nat) (s : State), (s.chan ch).live = true → (s.chan ch).is STW_SEAL_SEAL = false →
    (s.chan ch).is FCC_INJ_START = false → v.toNat / 2 ^ 31 = 1 → (s.chan ch).hasRoom = true → v.toNat / 2 ^ 16 % 2 = 0 →
    (s.chan ch).blockOn (blockOf (v.toNat % 64)) = true →
    ∃ t, exec (.fccInjStart ch v latency) s = .next t ∧ s.onlyChan ch t ∧
      (t.chan ch).rd FCC_INJ_START = 1 ∧ (t.chan ch).rd FCC_INJ_SRC = v.toNat % 64 ∧
      (t.chan ch).rd FCC_INJRES_SEEN = 1 ∧ (t.chan ch).rd FCC_INJRES_LAT = min latency 65535 ∧
      (∀ n < 2, (t.chan ch).rd (FCC_STAT_SRC n) = (s.chan ch).rd (FCC_STAT_SRC n) ∧
        (t.chan ch).rd (FCC_ACT_SRC n) = (s.chan ch).rd (FCC_ACT_SRC n)) ∧
      (∀ n : Fin 64, (t.chan ch).rd (FCC_CNT_OCC n) = (s.chan ch).rd (FCC_CNT_OCC n)) ∧
      (t.chan ch).fcc.runs = (s.chan ch).fcc.runs) ∧
  (∀ (ch : Chan) (s : State), (s.chan ch).live = true → (s.chan ch).fcc.fccInj = true →
    ∃ t, exec (.injectionRelease ch) s = .next t ∧ s.onlyChan ch t ∧ (s.chan ch).sameBut [] (t.chan ch) ∧
      (t.chan ch).fcc.released = true) ∧
  (∀ (ch : Chan) (high : Bool) (s : State), (s.chan ch).live = true → (s.chan ch).fcc.fccInj = true →
    (s.chan ch).fcc.released = true → (s.chan ch).spares ((s.chan ch).rd FCC_INJ_SRC) →
    (s.chan ch).blockOn (blockOf ((s.chan ch).rd FCC_INJ_SRC)) = true →
    ∃ t, exec (.injectionSample ch high) s = .next t ∧ s.onlyChan ch t ∧
      (t.chan ch).rd FCC_INJ_START = 0 ∧ (t.chan ch).fcc.tag = none ∧
      (high = true → (t.chan ch).rd FCC_INJRES_REAL = 1 ∧
        (t.chan ch).srcBit FCC_STAT_SRC ((s.chan ch).rd FCC_INJ_SRC) = true) ∧
      (high = false → (s.chan ch).sameBut [FCC_INJ] (t.chan ch)))

/-- R416: STW_KICK restarts an engine's watchdog and changes no register; when 10 ms have passed since the latest kick
of a released engine that is not halted, CORE_WDOG is raised (source 11) and the watchdog restarts. R21, R159, R236,
R421: CLK_FAIL drives the fail-silent line whether or not the report arrives: cores stopped, cause bit 5 on both
bridges, ERR_x low; a report that arrives is counted as source 5. -/
def Obligations.EngineWatchdogsAndClockFailure : Prop :=
  (∀ (ch : Chan) (eng : Fin 4) (s : State), (s.chan ch).live = true → eng ≠ 0 →
    ∃ t, exec (.stwKick ch eng) s = .next t ∧ s.onlyChan ch t ∧ (s.chan ch).sameBut [] (t.chan ch) ∧
      (t.chan ch).sinceKick eng = 0) ∧
  (∀ (ch : Chan) (eng : Fin 4) (s : State), (s.chan ch).live = true → eng ≠ 0 →
    (s.chan ch).fcc.engines.getLsbD eng = true → (s.chan ch).bit STW_DBG_HALTED (eng + 1) = false →
    2000000 ≤ (s.chan ch).sinceKick eng → (s.chan ch).blockOn (engineBlock eng) = true → (s.chan ch).fcc.tag = none →
    (s.chan ch).spares 11 →
    ∃ t, exec (.coreWdog ch eng) s = .next t ∧ s.onlyChan ch t ∧
      (s.chan ch).sameButEvents [] (t.chan ch) ∧
      (t.chan ch).srcBit FCC_STAT_SRC 11 = true ∧ (t.chan ch).sinceKick eng = 0 ∧
      (t.chan ch).rd (FCC_CNT_OCC 11) = satInc 16 ((s.chan ch).rd (FCC_CNT_OCC 11))) ∧
  (∀ (ch : Chan) (arrives : Bool) (s : State), (s.chan ch).live = true →
    ∃ t, exec (.clkFail ch arrives) s = .next t ∧ s.onlyChan ch t ∧ (t.chan ch).failSilent = true ∧
      (t.chan ch).live = false ∧ ((t.chan ch).causes .S).testBit 5 = true ∧ ((t.chan ch).causes .P).testBit 5 = true ∧
      (t.chan ch).is FCC_EPIN_LEVEL = false ∧
      (arrives = true → (s.chan ch).blockOn 0 = true → (s.chan ch).fcc.tag = none →
        (t.chan ch).srcBit FCC_STAT_SRC 5 = true))

/-- R29, R425, R426: STW_BLKRST_WRITE resets exactly the named blocks where the channel is not a voting member or the
herd is in SERVICE or PARK and every named block is resettable; it is refused and counted otherwise. STW_CHRST_WRITE
takes a channel reset with cause 3 on the key 0xC3A5. BLOCK_RESET_RELEASE takes a block out of its reset. R167, R171,
R172, R173, R418, R428, R490: a channel reset begins the wipe, records its cause and ORs FCC_SEV into FCC_SEVPRE; the
wipe done, the bring-up goes on with the BIST, or with the sweep when STPASS is set, and a SPLIT pin splits the pair in
DEVELOPMENT and is ignored and logged in any other state. In split configuration CMP_HART1 releases the second hart,
and losing the standstill in SERVICE returns the channel, which is no voting member, to BRING-UP with its gate drive in
block reset. Where the spec leaves a corner open the statement rests on the model's reading, log entries 28, 59. -/
def Obligations.BlockAndChannelResetsRun : Prop :=
  (∀ (ch : Chan) (v : Word) (s : State), (s.chan ch).live = true →
    ((s.chan ch).voting = false ∨ (s.chan ch).rd STW_MODE_MODE = 6 ∨ (s.chan ch).rd STW_MODE_MODE = 7) →
    (∀ b < 17, v.toNat.testBit b = true → resettable b = true) →
    ∃ t, exec (.stwBlkrstWrite ch v) s = .next t ∧ s.onlyChan ch t ∧ (s.chan ch).sameBut [STW_BLKSTAT] (t.chan ch) ∧
      ∀ b < 17, (t.chan ch).bit STW_BLKSTAT_BLK b = ((s.chan ch).bit STW_BLKSTAT_BLK b || v.toNat.testBit b)) ∧
  (∀ (ch : Chan) (v : Word) (s : State), (s.chan ch).live = true →
    ((s.chan ch).voting = true ∧ (s.chan ch).rd STW_MODE_MODE ≠ 6 ∧ (s.chan ch).rd STW_MODE_MODE ≠ 7) →
    (s.chan ch).spares 10 →
    ∃ t, exec (.stwBlkrstWrite ch v) s = .next t ∧ s.onlyChan ch t ∧
      (t.chan ch).rd STW_BLKSTAT_BLK = (s.chan ch).rd STW_BLKSTAT_BLK ∧
      (t.chan ch).rd STW_REFUSE_COUNT = satInc 16 ((s.chan ch).rd STW_REFUSE_COUNT)) ∧
  (∀ (ch : Chan) (v : Word) (s : State), (s.chan ch).live = true → v.toNat % 2 ^ 16 = 0xC3A5 →
    ((s.chan ch).voting = false ∨ (s.chan ch).rd STW_MODE_MODE = 6 ∨ (s.chan ch).rd STW_MODE_MODE = 7) →
    ∃ t, exec (.stwChrstWrite ch v) s = .next t ∧ s.onlyChan ch t ∧ (t.chan ch).resetting = true ∧
      (t.chan ch).rd STW_RSTCAUSE_CAUSE = 3 ∧
      (t.chan ch).rd STW_RSTCAUSE_COUNT = satInc 16 ((s.chan ch).rd STW_RSTCAUSE_COUNT) ∧
      (t.chan ch).rd STW_SEAL_SEAL = 0 ∧ (t.chan ch).otp = (s.chan ch).otp) ∧
  (∀ (ch : Chan) (blk : Fin 17) (s : State), (s.chan ch).live = true → (s.chan ch).bit STW_BLKSTAT_BLK blk = true →
    blk ≠ 7 → (s.chan ch).spares 55 →
    ∃ t, exec (.blockResetRelease ch blk) s = .next t ∧ s.onlyChan ch t ∧ (t.chan ch).bit STW_BLKSTAT_BLK blk = false) ∧
  (∀ (ch : Chan) (s : State), (s.chan ch).live = true → (s.chan ch).bit STW_BLKSTAT_BLK 7 = true →
    (s.chan ch).is GDR_STAT_INRST = true → (s.chan ch).gdrHeld = false → (s.chan ch).pump ≠ 5 →
    ∃ t, exec (.blockResetRelease ch 7) s = .next t ∧ s.onlyChan ch t ∧
      (s.chan ch).sameBut [GDR_STAT, STW_BLKSTAT, GDR_MSTATE] (t.chan ch) ∧ (t.chan ch).bit STW_BLKSTAT_BLK 7 = false) ∧
  (∀ (ch : Chan) (cause : ResetCause) (s : State), (s.chan ch).pwr.off = false → cause ≠ .powerOn →
    ∃ t, exec (.channelReset ch cause) s = .next t ∧ s.onlyChan ch t ∧ (t.chan ch).resetting = true ∧
      (t.chan ch).rd STW_RSTCAUSE_CAUSE = (causeCode cause).1 ∧ (t.chan ch).rd STW_RSTCAUSE_SRC = (causeCode cause).2 ∧
      (t.chan ch).sram = [] ∧ (t.chan ch).dtcm = [] ∧ (t.chan ch).itcm = [] ∧
      (∀ n, n < 2 → (t.chan ch).rd (FCC_SEVPRE_SRC n) = ((s.chan ch).rd (FCC_SEVPRE_SRC n) ||| (s.chan ch).rd (FCC_SEV_SRC n)) ∧
        (t.chan ch).rd (FCC_SEV_SRC n) = 0) ∧
      (∀ n < 64, (t.chan ch).regs.word (FCC_CNT n) = (s.chan ch).regs.word (FCC_CNT n)) ∧
      (t.chan ch).otp = (s.chan ch).otp) ∧
  (∀ (ch : Chan) (s : State), (s.chan ch).resetting = true → (s.chan ch).pwr.off = false →
    (s.chan ch).is CMP_STAT_SPLIT = false →
    ∃ t, exec (.wipeDone ch false) s = .next t ∧ s.onlyChan ch t ∧ (t.chan ch).resetting = false ∧
      (t.chan ch).rd PWR_BOOT_STEP = (if (s.chan ch).is HRD_NEXTSRC_STPASS then 5 else 4) ∧
      ((s.chan ch).is HRD_NEXTSRC_STPASS = true → (t.chan ch).is CMP_STAT_SWEEPRUN = true ∧ (t.chan ch).cmp.step = 0)) ∧
  (∀ (ch : Chan) (s : State), (s.chan ch).resetting = true → (s.chan ch).pwr.off = false →
    (s.chan ch).is CMP_STAT_SPLIT = false → (s.chan ch).hasRoom = true →
    ∃ t, exec (.wipeDone ch true) s = .next t ∧ s.onlyChan ch t ∧ (t.chan ch).resetting = false ∧
      (s.mss.rd KEY_STAT_LC = 2 → (t.chan ch).is CMP_STAT_SPLIT = true ∧ (t.chan ch).is GDR_STAT_INRST = true) ∧
      (s.mss.rd KEY_STAT_LC ≠ 2 → (t.chan ch).is CMP_STAT_SPLIT = false ∧ (t.chan ch).is CMP_STAT_SPLITIGN = true ∧
        (t.chan ch).logq.length = (s.chan ch).logq.length + 1)) ∧
  (∀ (ch : Chan) (v : Word) (s : State), (s.chan ch).live = true → (s.chan ch).is CMP_STAT_SPLIT = true →
    ∃ t, exec (.hart1Release ch v) s = .next t ∧ s.onlyChan ch t ∧ (s.chan ch).sameBut [CMP_HART1] (t.chan ch) ∧
      (t.chan ch).rd CMP_HART1_PC = v.toNat / 4 ∧
      (t.chan ch).is CMP_HART1_RUN = ((s.chan ch).is CMP_HART1_RUN || v.getLsbD 0)) ∧
  (∀ (ch : Chan) (s : State), (s.chan ch).live = true → (s.chan ch).is CMP_STAT_SPLIT = true →
    (s.chan ch).rd STW_MODE_MODE = 6 → (s.chan ch).voting = false →
    ∃ t, exec (.splitStationaryLost ch) s = .next t ∧ s.onlyChan ch t ∧ (t.chan ch).rd STW_MODE_MODE = 1 ∧
      (t.chan ch).rd STW_MODE_PREV = 6 ∧ (t.chan ch).is GDR_STAT_INRST = true ∧
      ((t.chan ch).causes .S).testBit 8 = true ∧ ((t.chan ch).causes .P).testBit 8 = true)

/-- R430, R432: both stored copies take OPTIME; a calendar time ahead of CALTIME becomes it, one at most 2 s behind
lets CALTIME hold its value, one further behind becomes it with CALEPOCH counted and a record 0x201. R434, R435, R454:
a sample set shows in MSS_SENS; an ENV record is formed and its extremes begin anew; the load level rises at the third
frame above its threshold, with a record 0x205 and updates paused at level 3, falls by one at the tenth frame below 60
%, and stays on a frame between. Where the spec leaves a corner open the statement rests on the model's reading, log
entry 60. -/
def Obligations.ManagementClocksSensorsAndLoad : Prop :=
  (∀ s : State, s.mss.on = true →
    ∃ t, exec .optimeSave s = .next t ∧ s.onlyMss t ∧ s.mss.sameBut [] t.mss ∧ t.mss.sup.optA = s.mss.sup.optime ∧
      t.mss.sup.optB = s.mss.sup.optime ∧ t.mss.sup.optime = s.mss.sup.optime) ∧
  (∀ (v : Word) (s : State), s.mss.on = true →
    ∃ t, exec (.calendarUpdate v) s = .next t ∧ s.onlyMss t ∧ s.mss.sameBut [] t.mss ∧ t.mss.sup.calSet = true ∧
      t.mss.sup.pcyc = s.mss.sup.pcyc ∧
      (s.mss.sup.cal ≤ v.toNat → t.mss.sup.cal = v.toNat ∧ t.mss.sup.calEpoch = s.mss.sup.calEpoch ∧ t.mss.log = s.mss.log) ∧
      (v.toNat < s.mss.sup.cal → s.mss.sup.cal ≤ v.toNat + 2 →
        t.mss.sup.cal = s.mss.sup.cal ∧ t.mss.sup.calEpoch = s.mss.sup.calEpoch ∧ t.mss.log = s.mss.log) ∧
      (v.toNat + 2 < s.mss.sup.cal → t.mss.sup.cal = v.toNat ∧
        t.mss.sup.calEpoch = satInc 16 s.mss.sup.calEpoch ∧ s.mss.forms t.mss 0x201 0)) ∧
  (∀ (samples : SensorSet) (back : BitVec 25) (s : State), s.mss.mpRuns = true → samples.length = 25 →
    ∃ t, exec (.sensorSample samples back) s = .next t ∧ s.onlyMss t ∧
      s.mss.sameBut ((List.range 25).map MSS_SENS) t.mss ∧
      (∀ n < 25, t.mss.rd (MSS_SENS_VALUE n) = samples.getD n 0 % 2 ^ 16) ∧ t.mss.sup.env.isSome = true) ∧
  (∀ s : State, s.mss.mpRuns = true →
    ∃ t, exec .envRecord s = .next t ∧ s.onlyMss t ∧ s.mss.sameBut [] t.mss ∧ s.mss.forms t.mss 0x202 0 ∧
      t.mss.sup.env = none) ∧
  (∀ (busy : Nat) (s : State), s.mss.mpRuns = true → 90 < busy → s.mss.sup.above3 = 2 → s.mss.rd MSS_STAT_LOAD < 3 →
    ∃ t, exec (.loadFrame busy) s = .next t ∧ s.onlyMss t ∧ s.mss.sameBut [MSS_STAT, UPD_STAT] t.mss ∧
      t.mss.rd MSS_STAT_LOAD = 3 ∧ t.mss.is UPD_STAT_PAUSED = true ∧ s.mss.forms t.mss 0x205 0) ∧
  (∀ (busy : Nat) (s : State), s.mss.mpRuns = true → busy < 60 → s.mss.sup.below = 9 → 0 < s.mss.rd MSS_STAT_LOAD →
    ∃ t, exec (.loadFrame busy) s = .next t ∧ s.onlyMss t ∧ s.mss.sameBut [MSS_STAT, UPD_STAT] t.mss ∧
      t.mss.rd MSS_STAT_LOAD = s.mss.rd MSS_STAT_LOAD - 1 ∧ t.mss.is UPD_STAT_PAUSED = false ∧
      s.mss.forms t.mss 0x205 0) ∧
  (∀ (busy : Nat) (s : State), s.mss.mpRuns = true → 60 ≤ busy → busy ≤ 70 →
    ∃ t, exec (.loadFrame busy) s = .next t ∧ s.onlyMss t ∧ s.mss.sameBut [MSS_STAT, UPD_STAT] t.mss ∧
      t.mss.rd MSS_STAT_LOAD = s.mss.rd MSS_STAT_LOAD ∧ t.mss.log = s.mss.log)

/-- R436, R438, R442, R444, R446: the oldest message of a channel moves to the intake; a firmware message whose SRC
lies below 0x8000 is discarded and counted, any other queued; LOG_GO forms the next record with SEQ = LOG_NEXT and
writes nothing while the engine is busy or the log full; a record written stands in every bank in service at its SEQ
and no other slot changes; a bank that fails its read-back is retired with a record 0x204. Where the spec leaves a
corner open the statement rests on the model's reading, log entries 61, 62. -/
def Obligations.LogTakesRecords : Prop :=
  (∀ (ch : Chan) (x : LogMsg) (rest : List LogMsg) (s : State), (s.chan ch).logq = x :: rest → (s.chan ch).live = true →
    (s.chan ch).mlink = true → s.mss.on = true → (s.mss.port ch).up = true → s.mss.log.intake.length < 256 →
    ∃ t, exec (.logQueueDrain ch) s = .next t ∧ (∀ o, o ≠ ch → t.chan o = s.chan o) ∧ t.pending = s.pending ∧
      (s.chan ch).sameBut [MBX_QSTAT] (t.chan ch) ∧ (t.chan ch).logq = rest ∧
      t.mss.log.intake = s.mss.log.intake ++ [x] ∧ (t.mss.port ch).lastDcnt = (s.chan ch).dcnt ∧
      s.mss.sameBut [LOG_LIFE (64 * ch.idx + 63)] t.mss) ∧
  (∀ (ch : Chan) (v : Word) (s : State), (s.chan ch).live = true →
    ((s.chan ch).regs.word (MBX_MSG 0)).toNat % 2 ^ 16 < 0x8000 →
    ∃ t, exec (.mailboxMessage ch v) s = .next t ∧ s.onlyChan ch t ∧ (s.chan ch).sameBut [MBX_QSTAT] (t.chan ch) ∧
      (t.chan ch).rd MBX_QSTAT_BADSRC = satInc 8 ((s.chan ch).rd MBX_QSTAT_BADSRC) ∧
      (t.chan ch).logq = (s.chan ch).logq) ∧
  (∀ (ch : Chan) (v : Word) (s : State), (s.chan ch).live = true →
    0x8000 ≤ ((s.chan ch).regs.word (MBX_MSG 0)).toNat % 2 ^ 16 → (s.chan ch).hasRoom = true →
    ∃ t, exec (.mailboxMessage ch v) s = .next t ∧ s.onlyChan ch t ∧ (s.chan ch).kept (t.chan ch) ∧
      ∃ m, (t.chan ch).logq = (s.chan ch).logq ++ [m] ∧
        m.src = ((s.chan ch).regs.word (MBX_MSG 0)).toNat % 2 ^ 16 ∧
        m.code = ((s.chan ch).regs.word (MBX_MSG 0)).toNat / 2 ^ 16 ∧ m.origin = (s.chan ch).me.num) ∧
  (∀ s : State, s.mss.mpRuns = true → s.mss.is LOG_STAT_BUSY = false → s.mss.is LOG_STAT_FULL = false →
    s.mss.is LOG_STAT_DEAD = false →
    ∃ t, exec .logGo s = .next t ∧ s.onlyMss t ∧ t.mss.is LOG_STAT_BUSY = true ∧
      t.mss.rd LOG_NEXT_SEQ = s.mss.rd LOG_NEXT_SEQ ∧ t.mss.log.bank0 = s.mss.log.bank0 ∧
      t.mss.log.bank1 = s.mss.log.bank1 ∧ t.mss.log.body = false ∧
      ∃ r, t.mss.log.now = some r ∧ r.seq = s.mss.rd LOG_NEXT_SEQ ∧ r.optime = s.mss.sup.optime ∧
        r.pcyc = s.mss.sup.pcyc ∧ r.caltime = s.mss.sup.cal ∧ r.crc = crc32 r.head ∧ t.mss.log.last.getLast? = some r ∧
        (s.mss.log.body = false → s.mss.log.own = [] → ∀ x rest, s.mss.log.intake = x :: rest →
          t.mss.log.intake = rest ∧ r.src = x.src % 2 ^ 16 ∧ r.code = x.code % 2 ^ 16 ∧ r.data = x.data)) ∧
  (∀ s : State, s.mss.mpRuns = true → s.mss.is LOG_STAT_BUSY = true →
    ∃ t, exec .logGo s = .next t ∧ t = s) ∧
  (∀ s : State, s.mss.mpRuns = true → s.mss.is LOG_STAT_BUSY = false → s.mss.is LOG_STAT_FULL = true →
    ∃ t, exec .logGo s = .next t ∧ s.onlyMss t ∧ t.mss.log.bank0 = s.mss.log.bank0 ∧
      t.mss.log.bank1 = s.mss.log.bank1 ∧ t.mss.log.now = s.mss.log.now ∧ t.mss.is LOG_STAT_BUSY = false ∧
      t.mss.rd LOG_NEXT_SEQ = (s.mss.rd LOG_NEXT_SEQ + 1) % 2 ^ 32) ∧
  (∀ (r : LogRecord) (s : State), s.mss.on = true → s.mss.log.now = some r → s.mss.is LOG_STAT_RET0 = false →
    s.mss.is LOG_STAT_RET1 = false →
    ∃ t, exec (.logRecordWritten false false) s = .next t ∧ s.onlyMss t ∧ t.mss.log.now = none ∧
      (∀ a, a ∉ [LOG_STAT, LOG_NEXT] → t.mss.regs.word a = s.mss.regs.word a) ∧
      kget LogRecord.blank t.mss.log.bank0 r.seq = r ∧ kget LogRecord.blank t.mss.log.bank1 r.seq = r ∧
      (∀ n, n ≠ r.seq → kget LogRecord.blank t.mss.log.bank0 n = kget LogRecord.blank s.mss.log.bank0 n ∧
        kget LogRecord.blank t.mss.log.bank1 n = kget LogRecord.blank s.mss.log.bank1 n) ∧
      t.mss.rd LOG_NEXT_SEQ = (s.mss.rd LOG_NEXT_SEQ + 1) % 2 ^ 32 ∧ t.mss.is LOG_STAT_BUSY = false) ∧
  (∀ (r : LogRecord) (s : State), s.mss.on = true → s.mss.log.now = some r → s.mss.is LOG_STAT_RET0 = false →
    s.mss.is LOG_STAT_RET1 = false →
    ∃ t, exec (.logRecordWritten true false) s = .next t ∧ s.onlyMss t ∧ t.mss.is LOG_STAT_RET0 = true ∧
      t.mss.log.bank0 = s.mss.log.bank0 ∧ kget LogRecord.blank t.mss.log.bank1 r.seq = r ∧
      s.mss.forms t.mss 0x204 0)

/-- R30, R436, R450 to R452: a management link that goes down shows at both ends, raises MLK_DOWN (13) and in its
channel MSSLOST; one that comes up starts with DCNT 0 and an empty token assembly; a log read of a valid area starts,
one of AREA 3 is refused with ERR 2, one while a read runs with ERR 1; it completes with the records that exist; the MP
refreshes the shadows. Where the spec leaves a corner open the statement rests on the model's reading, log entries 63,
64, 65. -/
def Obligations.ManagementLinksServe : Prop :=
  (∀ (ch : Chan) (s : State), (s.chan ch).live = true → (s.chan ch).mlink = true → (s.chan ch).blockOn 6 = true →
    (s.chan ch).fcc.tag = none → (s.chan ch).spares 13 →
    ∃ t, exec (.managementLinkDown ch) s = .next t ∧ t.pending = s.pending ∧ (t.chan ch).mlink = false ∧
      (s.chan ch).sameButEvents [PWR_STAT] (t.chan ch) ∧ (t.chan ch).srcBit FCC_STAT_SRC 13 = true ∧
      (t.chan ch).is PWR_STAT_MSSLOST = true ∧ (t.mss.port ch).up = false ∧ (t.mss.port ch).vote = false ∧
      s.mss.sameBut [MSS_STAT] t.mss ∧
      ∀ o, o ≠ ch → (s.chan o).alive = true → (s.chan o).sameBut [PWR_STAT] (t.chan o)) ∧
  (∀ (ch : Chan) (s : State), (s.chan ch).live = true → s.mss.on = true →
    ∃ t, exec (.managementLinkUp ch) s = .next t ∧ t.pending = s.pending ∧ (t.chan ch).mlink = true ∧
      (s.chan ch).sameBut [PWR_STAT] (t.chan ch) ∧ (t.mss.port ch).up = true ∧ (t.mss.port ch).lastDcnt = 0 ∧
      (t.mss.port ch).assembly = [] ∧ s.mss.sameBut [MSS_STAT] t.mss ∧ s.mss.forms t.mss 0x206 1 ∧
      ∀ o, o ≠ ch → (s.chan o).alive = true → (s.chan o).sameBut [PWR_STAT] (t.chan o)) ∧
  (∀ (ch : Chan) (v : Word) (s : State), s.mss.on = true → (s.mss.port ch).up = true → (s.chan ch).live = true →
    (s.mss.port ch).read = none →
    ∃ t, exec (.logReadRequest ch v) s = .next t ∧ s.onlyMss t ∧ s.mss.sameBut [] t.mss ∧
      (∀ o, o ≠ ch → t.mss.port o = s.mss.port o) ∧
      (v.toNat / 2 ^ 8 % 4 = 0 → 1 ≤ v.toNat % 32 → v.toNat % 32 ≤ 16 →
        (t.mss.port ch).read = some (0, (s.mss.port ch).rd MBX_RDSTART_SEQ, v.toNat % 32) ∧
        (t.mss.port ch).rd MBX_RDSTAT_BUSY = 1 ∧ (t.mss.port ch).rd MBX_RDSTAT_ERR = 0) ∧
      (v.toNat / 2 ^ 8 % 4 = 3 → (t.mss.port ch).read = none ∧ (t.mss.port ch).rd MBX_RDSTAT_ERR = 2)) ∧
  (∀ (ch : Chan) (v : Word) (s : State), s.mss.on = true → (s.mss.port ch).up = true → (s.chan ch).live = true →
    (s.mss.port ch).read ≠ none →
    ∃ t, exec (.logReadRequest ch v) s = .next t ∧ s.onlyMss t ∧ (t.mss.port ch).read = (s.mss.port ch).read ∧
      (t.mss.port ch).rd MBX_RDSTAT_ERR = 1) ∧
  (∀ (ch : Chan) (start count : Nat) (s : State), s.mss.mpRuns = true → (s.mss.port ch).read = some (0, start, count) →
    count ≤ 16 →
    ∃ t, exec (.logReadDone ch [] []) s = .next t ∧ s.onlyMss t ∧ s.mss.sameBut [] t.mss ∧
      (t.mss.port ch).read = none ∧ (t.mss.port ch).rd MBX_RDSTAT_DONE = 1 ∧
      (t.mss.port ch).rd MBX_RDSTAT_RET = min (start + count) (min (s.mss.rd LOG_NEXT_SEQ) bankSlots) - start) ∧
  (∀ s : State, s.mss.mpRuns = true →
    ∃ t, exec .shadowRefresh s = .next t ∧ s.onlyMss t ∧ s.mss.sameBut [] t.mss ∧
      t.mss.shadow.get MBX_NEXT_VALUE = s.mss.rd LOG_NEXT_SEQ ∧
      t.mss.shadow.get MBX_OPTIMEL_VALUE = s.mss.sup.optime % 2 ^ 32 ∧
      t.mss.shadow.get MBX_PCYC_VALUE = s.mss.sup.pcyc % 2 ^ 32 ∧
      t.mss.shadow.get MBX_CAL_VALUE = s.mss.sup.cal % 2 ^ 32 ∧ t.mss.shadow.get MBX_PROOF_VALUE = s.proofNow % 2 ^ 32)

/-- R17, R53, R429, R431, R441, R443, R455 to R458, R492, R520: a heartbeat clears the reset vote of every channel it
reaches; 50 ms without one raise MSS_HB (62) and set the vote, which lapses after 1 s; two votes reset the MP, the
third such reset holds it, its watchdog resets it without a vote; a restart from a whole image forms MSS_PON (0x200),
from a damaged one the MP does not run; the MSS powers on with PCYC counted, and its MP runs unless the image is
damaged; the loss of VSUP_M leaves it running while a channel still feeds its rail. Where the spec leaves a corner open
the statement rests on the model's reading, log entries 64, 71, 80. -/
def Obligations.HeartbeatsGuardTheMp : Prop :=
  (∀ (i : Instr) (s : State), ((i = .mssHbKick ∧ s.mss.mpRuns = true) ∨
      (i = .supervisorHeartbeat ∧ s.mss.on = true ∧ s.mss.mp = true)) →
    ∃ t, exec i s = .next t ∧ t.pending = s.pending ∧ s.mss.sameBut [MSS_STAT] t.mss ∧
      (∀ ch, (s.mss.port ch).up = true → (s.chan ch).live = true → (s.chan ch).mlink = true →
        (t.chan ch).mssVote = false ∧ (t.chan ch).hbLost = false ∧ (t.mss.port ch).vote = false) ∧
      ∀ ch, (s.chan ch).alive = true → (s.chan ch).sameBut [PWR_STAT] (t.chan ch)) ∧
  (∀ (ch : Chan) (s : State), (s.chan ch).live = true → (s.chan ch).blockOn 6 = true → (s.chan ch).fcc.tag = none →
    (s.chan ch).spares 62 →
    ∃ t, exec (.mssHbMiss ch) s = .next t ∧ t.pending = s.pending ∧ (t.chan ch).mssVote = true ∧
      (t.chan ch).hbLost = true ∧ (t.chan ch).srcBit FCC_STAT_SRC 62 = true ∧
      (t.chan ch).is PWR_STAT_MSSLOST = true ∧ (s.chan ch).sameButEvents [PWR_STAT] (t.chan ch) ∧
      (t.mss.port ch).vote = (s.mss.port ch).up ∧ s.mss.sameBut [MSS_STAT] t.mss) ∧
  (∀ (ch : Chan) (s : State), (s.chan ch).live = true →
    ∃ t, exec (.resetVoteEnd ch) s = .next t ∧ (∀ o, o ≠ ch → t.chan o = s.chan o) ∧
      (s.chan ch).sameBut [] (t.chan ch) ∧ (t.chan ch).mssVote = false ∧ (t.mss.port ch).vote = false ∧
      s.mss.sameBut [MSS_STAT] t.mss) ∧
  (∀ s : State, s.mss.on = true → s.mss.held = false → s.mss.restart = none → s.mss.voted = true →
    ∃ t, exec .mpVoteReset s = .next t ∧ t.pending = s.pending ∧ t.mss.mp = false ∧
      s.mss.sameBut [MSS_STAT, UPD_STAT] t.mss ∧
      t.mss.rd MSS_STAT_VOTERST = satInc 8 (s.mss.rd MSS_STAT_VOTERST) ∧ t.mss.sup.votes = s.mss.sup.votes + 1 ∧
      (t.mss.held = true ↔ 2 ≤ s.mss.sup.votes) ∧ t.mss.log = s.mss.log) ∧
  (∀ s : State, s.mss.mpRuns = true →
    ∃ t, exec .mpWatchdogReset s = .next t ∧ s.onlyMss t ∧ t.mss.mp = false ∧
      t.mss.restart = some (2, s.mss.rd MSS_STAT_VOTES) ∧ s.mss.sameBut [MSS_STAT, UPD_STAT] t.mss ∧
      t.mss.rd MSS_STAT_VOTERST = s.mss.rd MSS_STAT_VOTERST) ∧
  (∀ (code votes : Nat) (s : State), s.mss.restart = some (code, votes) → s.mss.on = true → s.mss.held = false →
    s.mss.imageGood true = true →
    ∃ t, exec .mpRestartDone s = .next t ∧ s.onlyMss t ∧ t.mss.mp = true ∧ s.mss.sameBut [] t.mss ∧
      s.mss.forms t.mss 0x200 code ∧ t.mss.sup.errM = s.mss.sup.errM + 1 ∧
      (∀ h, s.mss.mpImage = some h → t.mss.sram = s.mss.sram.writeBytes (imgLoad h) (s.mss.mpBytes h))) ∧
  (∀ (code votes : Nat) (s : State), s.mss.restart = some (code, votes) → s.mss.on = true → s.mss.held = false →
    s.mss.imageGood true = false →
    ∃ t, exec .mpRestartDone s = .next t ∧ s.onlyMss t ∧ t.mss = { s.mss with restart := none }) ∧
  (∀ (used : Bool) (s : State), s.mss.on = false → (s.a.pwr.up = true ∨ s.b.pwr.up = true ∨ s.c.pwr.up = true ∨ used = true) →
    s.noTokens → s.mss.imageGood true = true →
    ∃ t, exec (.mssPowerOn true used) s = .next t ∧ s.onlyMss t ∧ t.mss.on = true ∧ t.mss.mp = true ∧ t.mss.ready = true ∧
      t.mss.sup.pcyc = satInc 24 s.mss.sup.pcyc ∧ t.mss.sup.optime = max s.mss.sup.optA s.mss.sup.optB ∧
      t.mss.sup.calEpoch = s.mss.sup.calEpoch ∧ t.mss.sup.calSet = false) ∧
  (∀ (ok used : Bool) (s : State), s.mss.on = false →
    (s.a.pwr.up = true ∨ s.b.pwr.up = true ∨ s.c.pwr.up = true ∨ used = true) → s.noTokens →
    (ok = false ∨ s.mss.imageGood true = false) →
    ∃ t, exec (.mssPowerOn ok used) s = .next t ∧ s.onlyMss t ∧ t.mss.on = true ∧ t.mss.mp = false ∧ t.mss.ready = false ∧
      t.mss.sup.pcyc = satInc 24 s.mss.sup.pcyc) ∧
  (∀ s : State, (∃ ch, (s.chan ch).pwr.up = true) →
    ∃ t, exec .vsupMLoss s = .next t ∧ s.onlyMss t ∧ s.mss.sameBut [] t.mss ∧ t.mss.on = s.mss.on ∧
      t.mss.sup.vsupM = false)

/-- R465, R474, R477, R479, R487: a key command starts (KEY_RES cleared, BUSY), a part joining the channel's assembly;
while one runs another ends with ERR 1, and a part of length 0 or above 8,192 with ERR 3. At its end a challenge is new
and shown; a token whose form fails ends with ERR 11 and has no effect; in BLANK the lowest slot not fused takes the
key; an attestation takes one credit and one leaf, and without a credit ends with ERR 16; each result forms a KEY_EVENT
(0x20A). Where the spec leaves a corner open the statement rests on the model's reading, log entries 66, 68. -/
def Obligations.KeyCommandsRunAndEnd : Prop :=
  (∀ (i : Instr) (n : Nat) (ch : Chan) (s : State), ((i = .keyChallenge ch ∧ n = 1) ∨ (i = .keySubmitToken ch ∧ n = 2) ∨
      (i = .keyAttest ch ∧ n = 3) ∨ (i = .keyFuseRootSlot ch ∧ n = 4) ∨ (i = .keyAppendPart ch ∧ n = 5)) →
    s.served ch = true → (s.mss.port ch).keyCmd = 0 →
    (n = 2 ∨ n = 5 → 1 ≤ (s.mss.port ch).rd KEY_PART_LEN ∧ (s.mss.port ch).rd KEY_PART_LEN ≤ 8192 ∧
      (s.mss.port ch).assembly.length + (s.mss.port ch).rd KEY_PART_LEN ≤ 40960) →
    ∃ t, exec i s = .next t ∧ s.onlyMss t ∧ (∀ a, a ≠ KEY_STAT → t.mss.regs.word a = s.mss.regs.word a) ∧
      t.mss.log = s.mss.log ∧ t.mss.upd = s.mss.upd ∧ t.mss.key.otp = s.mss.key.otp ∧
      (∀ o, o ≠ ch → t.mss.port o = s.mss.port o) ∧ t.mss.is KEY_STAT_BUSY = true ∧ (t.mss.port ch).keyCmd = n ∧
      (t.mss.port ch).regs.word KEY_RES = 0 ∧
      (n = 2 ∨ n = 5 → (t.mss.port ch).assembly =
        (s.mss.port ch).assembly ++ (s.mss.port ch).buf ((s.mss.port ch).rd KEY_PART_LEN)) ∧
      (n = 1 ∨ n = 3 ∨ n = 4 → (t.mss.port ch).assembly = (s.mss.port ch).assembly) ∧
      (n = 3 → t.mss.key.queue = s.mss.key.queue ++ [ch])) ∧
  (∀ (i : Instr) (ch : Chan) (s : State), (i = .keyChallenge ch ∨ i = .keySubmitToken ch ∨ i = .keyAttest ch ∨
      i = .keyFuseRootSlot ch ∨ i = .keyAppendPart ch) → s.served ch = true → (s.mss.port ch).keyCmd ≠ 0 →
    ∃ t, exec i s = .next t ∧ s.onlyMss t ∧ s.mss.sameBut [] t.mss ∧ (t.mss.port ch).keyCmd = (s.mss.port ch).keyCmd ∧
      (t.mss.port ch).assembly = (s.mss.port ch).assembly ∧ (t.mss.port ch).rd KEY_RES_DONE = 1 ∧
      (t.mss.port ch).rd KEY_RES_ERR = 1) ∧
  (∀ (i : Instr) (n : Nat) (ch : Chan) (s : State), ((i = .keySubmitToken ch ∧ n = 2) ∨ (i = .keyAppendPart ch ∧ n = 5)) →
    s.served ch = true → (s.mss.port ch).keyCmd = 0 →
    ((s.mss.port ch).rd KEY_PART_LEN = 0 ∨ 8192 < (s.mss.port ch).rd KEY_PART_LEN) →
    ∃ t, exec i s = .next t ∧ s.onlyMss t ∧ s.mss.sameBut [KEY_STAT] t.mss ∧
      (t.mss.port ch).assembly = (s.mss.port ch).assembly ∧ (t.mss.port ch).rd KEY_RES_DONE = 1 ∧
      (t.mss.port ch).rd KEY_RES_ERR = 3 ∧ s.mss.forms t.mss 0x20A n) ∧
  (∀ (ch : Chan) (s : State), s.mss.mpRuns = true → s.mss.key.gen ≠ 2 → (s.mss.port ch).keyCmd = 1 →
    ∃ t, exec (.keyCommandDone ch) s = .next t ∧ s.onlyMss t ∧ s.mss.sameBut [KEY_STAT] t.mss ∧
      (t.mss.port ch).keyCmd = 0 ∧ (t.mss.port ch).rd KEY_RES_DONE = 1 ∧ (t.mss.port ch).rd KEY_RES_ERR = 0 ∧
      s.mss.forms t.mss 0x20A 1 ∧ ∃ x, (t.mss.port ch).chals = (s.mss.port ch).chals ++ [x] ∧
        ∀ k < 4, (t.mss.port ch).rd (KEY_CHAL_VALUE k) = x.toNat / 2 ^ (32 * k) % 2 ^ 32) ∧
  (∀ (ch : Chan) (s : State), s.mss.mpRuns = true → s.mss.key.gen ≠ 2 → (s.mss.port ch).keyCmd = 2 →
    tokenForm (s.mss.port ch).assembly = false →
    ∃ t, exec (.keyCommandDone ch) s = .next t ∧ s.onlyMss t ∧ s.mss.sameBut [KEY_STAT] t.mss ∧
      (t.mss.port ch).keyCmd = 0 ∧ (t.mss.port ch).assembly = [] ∧ (t.mss.port ch).rd KEY_RES_ERR = 11 ∧
      s.mss.forms t.mss 0x20A 2) ∧
  (∀ (ch : Chan) (s : State), s.mss.mpRuns = true → s.mss.key.gen ≠ 2 → (s.mss.port ch).keyCmd = 5 →
    ∃ t, exec (.keyCommandDone ch) s = .next t ∧ s.onlyMss t ∧ s.mss.sameBut [KEY_STAT] t.mss ∧
      (t.mss.port ch).keyCmd = 0 ∧ (t.mss.port ch).assembly = (s.mss.port ch).assembly ∧
      (t.mss.port ch).rd KEY_RES_DONE = 1 ∧ (t.mss.port ch).rd KEY_RES_ERR = 0 ∧ s.mss.forms t.mss 0x20A 5) ∧
  (∀ (ch : Chan) (n : Nat) (s : State), s.mss.mpRuns = true → s.mss.key.gen ≠ 2 → (s.mss.port ch).keyCmd = 4 →
    s.mss.key.otp.lc = 1 → s.mss.key.otp.emptySlot = some n →
    ∃ t, exec (.keyCommandDone ch) s = .next t ∧ s.onlyMss t ∧
      (∀ a, a ≠ KEY_STAT → t.mss.regs.word a = s.mss.regs.word a) ∧ t.mss.upd = s.mss.upd ∧
      (∀ k < 4, t.mss.key.otp.fused.getLsbD k = (s.mss.key.otp.fused.getLsbD k || k == n)) ∧
      kget 0 t.mss.key.otp.hash n = keyHash ((s.mss.port ch).buf 60) ∧
      kget [] t.mss.key.keys n = (s.mss.port ch).buf 60 ∧
      (∀ k, k ≠ n → kget 0 t.mss.key.otp.hash k = kget 0 s.mss.key.otp.hash k) ∧
      t.mss.key.otp.revoked = s.mss.key.otp.revoked ∧ t.mss.key.otp.lc = 1 ∧
      t.mss.key.otp.epoch = s.mss.key.otp.epoch ∧ (t.mss.port ch).rd KEY_RES_ERR = 0 ∧ s.mss.forms t.mss 0x20A 4) ∧
  (∀ (ch : Chan) (n : Nat) (s : State), s.mss.mpRuns = true → s.mss.key.gen = 0 → (s.mss.port ch).keyCmd = 3 →
    s.mss.key.queue.head? = some ch → s.mss.rd MSS_STAT_LOAD ≠ 3 → s.mss.key.leaf = some n → n < leafMax →
    0 < s.mss.rd KEY_STAT_CREDIT → n % 1024 ≠ 1023 →
    ∃ t, exec (.keyCommandDone ch) s = .next t ∧ s.onlyMss t ∧
      (∀ a, a ∉ [KEY_STAT, KEY_LEAF] → t.mss.regs.word a = s.mss.regs.word a) ∧ t.mss.upd = s.mss.upd ∧
      t.mss.key.otp = s.mss.key.otp ∧ t.mss.rd KEY_STAT_CREDIT = s.mss.rd KEY_STAT_CREDIT - 1 ∧
      t.mss.key.leafA = some (n + 1) ∧ t.mss.key.leafB = some (n + 1) ∧ t.mss.key.queue = s.mss.key.queue.tail ∧
      (t.mss.port ch).keyCmd = 0 ∧ (t.mss.port ch).rd KEY_RES_ERR = 0 ∧ s.mss.forms t.mss 0x20A 3) ∧
  (∀ (ch : Chan) (s : State), s.mss.mpRuns = true → s.mss.key.gen = 0 → (s.mss.port ch).keyCmd = 3 →
    s.mss.key.queue.head? = some ch → s.mss.rd MSS_STAT_LOAD ≠ 3 → s.mss.rd KEY_STAT_CREDIT = 0 →
    ∃ t, exec (.keyCommandDone ch) s = .next t ∧ s.onlyMss t ∧
      (∀ a, a ≠ KEY_STAT → t.mss.regs.word a = s.mss.regs.word a) ∧ t.mss.upd = s.mss.upd ∧
      t.mss.key.otp = s.mss.key.otp ∧ t.mss.rd KEY_STAT_CREDIT = 0 ∧ t.mss.key.leafA = s.mss.key.leafA ∧
      t.mss.key.leafB = s.mss.key.leafB ∧ (t.mss.port ch).keyCmd = 0 ∧ (t.mss.port ch).rd KEY_RES_ERR = 16 ∧
      s.mss.forms t.mss 0x20A 3)

/-- R468, R472, R474, R475: one credit returns, up to 8; a lower tree is generated; the new identity of a life-cycle
change to a state other than SCRAPPED fuses that state and no other bit of OTP, starts at leaf 0 with 8 credits,
discards every challenge and the update session, and every channel on a link that its steward may reset is reset. Where
the spec leaves a corner open the statement rests on the model's reading, log entry 67. -/
def Obligations.IdentitiesAndCreditsRenew : Prop :=
  (∀ s : State, s.mss.on = true →
    ∃ t, exec .attestCredit s = .next t ∧ s.onlyMss t ∧ s.mss.sameBut [KEY_STAT] t.mss ∧
      t.mss.rd KEY_STAT_CREDIT = min 8 (s.mss.rd KEY_STAT_CREDIT + 1)) ∧
  (∀ s : State, s.mss.mpRuns = true → s.mss.key.gen = 1 →
    ∃ t, exec .identityGenerated s = .next t ∧ s.onlyMss t ∧
      (∀ a, a ∉ [KEY_STAT, KEY_LEAF] → t.mss.regs.word a = s.mss.regs.word a) ∧
      t.mss.key = { s.mss.key with gen := 0, trees := s.mss.key.trees + 1 } ∧ t.mss.upd = s.mss.upd ∧
      t.mss.log = s.mss.log) ∧
  (∀ s : State, s.mss.mpRuns = true → s.mss.key.gen = 2 → s.mss.key.lcTo ≠ 5 →
    ∃ t, exec .identityGenerated s = .next t ∧ t.pending = s.pending ∧ t.mss.key.gen = 0 ∧
      t.mss.key.otp = { s.mss.key.otp with lc := s.mss.key.lcTo } ∧ t.mss.key.id = s.mss.key.id + 1 ∧
      t.mss.key.leafA = some 0 ∧ t.mss.key.leafB = some 0 ∧ t.mss.rd KEY_STAT_CREDIT = 8 ∧
      t.mss.rd KEY_STAT_LC = s.mss.key.lcTo % 8 ∧ t.mss.upd.staged = [] ∧ t.mss.rd UPD_STAT_OWNER = 0 ∧
      t.mss.rd UPD_STAT_STATE = 0 ∧ (∀ ch, (t.mss.port ch).chals = []) ∧
      (∀ ch, (s.mss.port ch).up = true → (s.chan ch).live = true → (s.chan ch).mayReset = true →
        (t.chan ch).resetting = true ∧ (t.chan ch).rd STW_RSTCAUSE_CAUSE = 4) ∧
      ∀ ch, ((s.mss.port ch).up = false ∨ (s.chan ch).live = false) → t.chan ch = s.chan ch)

/-- Registers of the update path (R488) that a session's opening and end set. -/
def sessionRegs : List Nat := [UPD_STAT, UPD_NEXT, UPD_FOLRES, UPD_FOLPOS, UPD_RES] ++ (List.range 8).map UPD_HASH

/-- R481, R482: UPD_OPEN without a session opens one; another channel's within 60 s of the latest block ends with error
2 and changes nothing of it; the owner's block at UPD_NEXT joins the staged envelope and one elsewhere ends with error
3; UPD_VERIFY of a complete envelope starts verification, which leaves error 4 and the session when the envelope's form
fails; UPD_DISCARD ends the session; each result forms an UPD_EVENT (0x20B). Where the spec leaves a corner open the
statement rests on the model's reading, log entry 69. -/
def Obligations.UpdateSessionsAreStaged : Prop :=
  (∀ (ch : Chan) (s : State), s.served ch = true → s.mss.rd UPD_STAT_OWNER = 0 → 0 < s.mss.rd UPD_LEN_VALUE →
    s.mss.rd UPD_LEN_VALUE % 4 = 0 → s.mss.rd UPD_LEN_VALUE ≤ envMax →
    ∃ t, exec (.updOpen ch) s = .next t ∧ s.onlyMss t ∧ (∀ a, a ∉ sessionRegs → t.mss.regs.word a = s.mss.regs.word a) ∧
      t.mss.key = s.mss.key ∧ t.mss.upd = { s.mss.upd with staged := [], blockAt := s.mss.sup.up } ∧
      t.mss.rd UPD_STAT_STATE = 1 ∧ t.mss.rd UPD_STAT_OWNER = ch.num ∧ t.mss.rd UPD_NEXT_VALUE = 0 ∧
      t.mss.rd UPD_RES_DONE = 1 ∧ t.mss.rd UPD_RES_ERR = 0 ∧ s.mss.forms t.mss 0x20B 1) ∧
  (∀ (ch : Chan) (s : State), s.served ch = true → s.mss.rd UPD_STAT_OWNER ≠ 0 → s.mss.rd UPD_STAT_OWNER ≠ ch.num →
    s.mss.sup.up - s.mss.upd.blockAt < 60000 →
    ∃ t, exec (.updOpen ch) s = .next t ∧ s.onlyMss t ∧ s.mss.sameBut [UPD_RES] t.mss ∧
      t.mss.rd UPD_RES_DONE = 1 ∧ t.mss.rd UPD_RES_ERR = 2 ∧ s.mss.forms t.mss 0x20B 1) ∧
  (∀ (ch : Chan) (words : Nat) (s : State), s.served ch = true → s.mss.owns ch = true → s.mss.rd MSS_STAT_LOAD ≠ 3 →
    s.mss.rd UPD_STAT_STATE = 1 → 1 ≤ words → words ≤ 1024 → s.mss.rd UPD_OFS_VALUE = s.mss.rd UPD_NEXT_VALUE →
    s.mss.rd UPD_NEXT_VALUE + 4 * words ≤ s.mss.rd UPD_LEN_VALUE →
    ∃ t, exec (.updBlock ch words) s = .next t ∧ s.onlyMss t ∧
      (∀ a, a ∉ [UPD_NEXT, UPD_RES] → t.mss.regs.word a = s.mss.regs.word a) ∧ t.mss.key = s.mss.key ∧
      t.mss.upd.staged = s.mss.upd.staged ++ s.mss.upd.buffer.readBytes 0 (4 * words) ∧
      t.mss.upd.bytesA = s.mss.upd.bytesA ∧ t.mss.upd.bytesB = s.mss.upd.bytesB ∧
      t.mss.rd UPD_NEXT_VALUE = s.mss.rd UPD_NEXT_VALUE + 4 * words ∧ t.mss.rd UPD_RES_ERR = 0 ∧
      s.mss.forms t.mss 0x20B 2) ∧
  (∀ (ch : Chan) (words : Nat) (s : State), s.served ch = true → s.mss.owns ch = true → s.mss.rd MSS_STAT_LOAD ≠ 3 →
    s.mss.rd UPD_STAT_STATE = 1 → s.mss.rd UPD_OFS_VALUE ≠ s.mss.rd UPD_NEXT_VALUE →
    ∃ t, exec (.updBlock ch words) s = .next t ∧ s.onlyMss t ∧ s.mss.sameBut [UPD_RES] t.mss ∧
      t.mss.rd UPD_RES_ERR = 3 ∧ s.mss.forms t.mss 0x20B 2) ∧
  (∀ (ch : Chan) (s : State), s.served ch = true → s.mss.owns ch = true → s.mss.rd UPD_STAT_STATE = 1 →
    s.mss.rd UPD_NEXT_VALUE = s.mss.rd UPD_LEN_VALUE →
    ∃ t, exec (.updVerify ch) s = .next t ∧ s.onlyMss t ∧ s.mss.sameBut [UPD_RES, UPD_STAT] t.mss ∧
      t.mss.rd UPD_STAT_STATE = 2 ∧ t.mss.rd UPD_STAT_OWNER = ch.num ∧ t.mss.rd UPD_RES_DONE = 0 ∧
      t.mss.log = s.mss.log) ∧
  (∀ s : State, s.mss.mpRuns = true → s.mss.rd UPD_STAT_STATE = 2 →
    envForm (s.mss.rd UPD_LEN_VALUE) s.mss.upd.staged = false →
    ∃ t, exec .updVerifyDone s = .next t ∧ s.onlyMss t ∧ s.mss.sameBut [UPD_RES, UPD_STAT] t.mss ∧
      t.mss.rd UPD_STAT_STATE = 1 ∧ t.mss.rd UPD_STAT_OWNER = s.mss.rd UPD_STAT_OWNER ∧ t.mss.rd UPD_RES_DONE = 1 ∧
      t.mss.rd UPD_RES_ERR = 4 ∧ s.mss.forms t.mss 0x20B 3) ∧
  (∀ (ch : Chan) (s : State), s.served ch = true → s.mss.owns ch = true → s.mss.updBusy = false →
    ∃ t, exec (.updDiscard ch) s = .next t ∧ s.onlyMss t ∧
      (∀ a, a ∉ sessionRegs → t.mss.regs.word a = s.mss.regs.word a) ∧ t.mss.key = s.mss.key ∧
      t.mss.upd = { s.mss.upd with staged := [] } ∧ t.mss.rd UPD_STAT_STATE = 0 ∧ t.mss.rd UPD_STAT_OWNER = 0 ∧
      t.mss.rd UPD_NEXT_VALUE = 0 ∧ t.mss.rd UPD_RES_ERR = 0 ∧ s.mss.forms t.mss 0x20B 6)

/-- R148, R471, R483, R484: a verified envelope armed by its owner marks the slot that is not ACTIVE EMPTY and is
written to it; once not verified, error 15; a copy that reads back leaves the slot TRIAL with the envelope's Folio; the
completion report commits it: GOOD, ACTIVE, ROLLBACK and the security epoch raised to its own, COMMITPEND acknowledged;
without a herd 10 s after power-on the slots stay as they are. Where the spec leaves a corner open the statement rests
on the model's reading, log entries 69, 70. -/
def Obligations.SlotsAreArmedAndCommitted : Prop :=
  (∀ (i : Instr) (k : Nat) (ch : Chan) (s : State), ((i = .updArmRotation ch ∧ k = 1 ∧
      coCompat (folioCo (envFolio s.mss.upd.staged)) = coCompat s.mss.activeCo) ∨ (i = .updArmPowerCycle ch ∧ k = 2)) →
    s.served ch = true → s.mss.owns ch = true → s.mss.rd UPD_STAT_STATE = 3 → s.mss.slotA ≠ 1 → s.mss.slotB ≠ 1 →
    s.rotating = false → s.commitPending = false → s.mss.active ≤ 1 →
    ∃ t, exec i s = .next t ∧ s.onlyMss t ∧
      (∀ a, a ∉ [UPD_STAT, UPD_RES] → t.mss.regs.word a = s.mss.regs.word a) ∧ t.mss.key = s.mss.key ∧
      t.mss.rd UPD_STAT_STATE = 4 ∧ t.mss.rd UPD_STAT_OWNER = ch.num ∧ t.mss.slot (1 - s.mss.active) = 0 ∧
      t.mss.slot s.mss.active = s.mss.slot s.mss.active ∧ t.mss.active = s.mss.active ∧
      t.mss.upd = { s.mss.upd with copy := 2 - s.mss.active, arm := k, started := false }) ∧
  (∀ (i : Instr) (k : Nat) (ch : Chan) (s : State), ((i = .updArmRotation ch ∧ k = 4) ∨ (i = .updArmPowerCycle ch ∧ k = 5)) →
    s.served ch = true → s.mss.owns ch = true → s.mss.updBusy = false → s.mss.slotA ≠ 1 → s.mss.slotB ≠ 1 →
    s.rotating = false → s.commitPending = false → s.mss.rd UPD_STAT_STATE ≠ 3 →
    ∃ t, exec i s = .next t ∧ s.onlyMss t ∧ s.mss.sameBut [UPD_RES] t.mss ∧ t.mss.rd UPD_RES_ERR = 15 ∧
      s.mss.forms t.mss 0x20B k) ∧
  (∀ (n : Nat) (s : State), s.mss.mpRuns = true → n ≤ 1 → s.mss.upd.copy = n + 1 → 1 ≤ s.mss.upd.arm → s.mss.upd.arm ≤ 2 →
    ∃ t, exec (.slotCopyDone true) s = .next t ∧ s.onlyMss t ∧
      (∀ a, a ∉ [UPD_STAT, UPD_RES] → t.mss.regs.word a = s.mss.regs.word a) ∧ t.mss.key = s.mss.key ∧
      t.mss.slot n = 1 ∧ t.mss.slot (1 - n) = s.mss.slot (1 - n) ∧ t.mss.slotBytes n = envFolio s.mss.upd.staged ∧
      t.mss.slotBytes (1 - n) = s.mss.slotBytes (1 - n) ∧ t.mss.upd.copy = 0 ∧
      t.mss.rd UPD_STAT_STATE = s.mss.upd.arm + 4 ∧ t.mss.rd UPD_RES_ERR = 0 ∧ t.mss.active = s.mss.active) ∧
  (∀ (n : Nat) (c : Channel) (s : State), s.mss.mpRuns = true → s.mss.trial = some n → s.herdVoice = some c →
    c.hrd.cur.commitPend = true →
    ∃ t, exec .commit s = .next t ∧ t.pending = s.pending ∧ t.mss.slot n = 2 ∧ t.mss.active = n ∧
      t.mss.rd KEY_ROLLBACK_VALUE =
        max (s.mss.rd KEY_ROLLBACK_VALUE) (coRollback (folioCo (s.mss.slotBytes n))) % 2 ^ 32 ∧
      t.mss.key.otp = { s.mss.key.otp with
        epoch := max s.mss.key.otp.epoch (min 64 (coEpoch (folioCo (s.mss.slotBytes n)))) } ∧
      t.mss.slotBytes n = s.mss.slotBytes n ∧ t.mss.upd.arm = 0 ∧ t.mss.upd.journal = 0 ∧
      ∀ ch, (s.chan ch).live = true → (s.chan ch).voting = true → (t.chan ch).hrd.cur.commitPend = false) ∧
  (∀ s : State, s.mss.on = true → (∀ ch, (s.chan ch).voting = false) →
    ∃ t, exec .trialNoHerdTimeout s = .next t ∧ s.onlyMss t ∧ (∀ a, t.mss.regs.word a = s.mss.regs.word a) ∧
      t.mss.upd = { s.mss.upd with noHerd := true } ∧ t.mss.slotA = s.mss.slotA ∧ t.mss.slotB = s.mss.slotB ∧
      t.mss.active = s.mss.active ∧ t.mss.key = s.mss.key ∧ t.mss.log = s.mss.log)

/-- R489, R491, R431, R236: VSUP_RISE of a part held in power-on reset releases it into its reset with the supply up;
of a part that was not, it lifts the undervoltage cause; after every supply was below 6 V for 100 ms it counts PCYC
while the MSS is on. VSUP_UNDERVOLTAGE takes both bridges to cause bit 5; VSUP_RESET takes the part into power-on reset
with its OTP kept. R494, R500 to R505, R430, R29: at the end of HOLDT every supplied region of a parked herd enters P2
and both OPTIME copies are written; the end of a dwell on P2 goes to P3 where DEEP lies deeper; a declared wake brings
every channel on P2 or P3 back to P0, counted, with its block states kept; MP_WAKE wakes the named channel. Where the
spec leaves a corner open the statement rests on the model's reading, log entries 71, 72. -/
def Obligations.SuppliesAndPowerLadder : Prop :=
  (∀ (ch : Chan) (s : State), (s.chan ch).pwr.off = true → (s.chan ch).rd PWR_STAT_RUNG < 2 →
    ∃ t, exec (.vsupRise ch false) s = .next t ∧ s.onlyChan ch t ∧ (t.chan ch).pwr.off = false ∧
      (t.chan ch).pwr.up = true ∧ (t.chan ch).resetting = true ∧ (t.chan ch).rd PWR_BOOT_STEP = 1 ∧
      (t.chan ch).rd STW_RSTCAUSE_CAUSE = 0 ∧ (t.chan ch).otp = (s.chan ch).otp) ∧
  (∀ (ch : Chan) (s : State), (s.chan ch).pwr.off = false → (s.chan ch).pow.d2dCause = false →
    (s.chan ch).pow.fsCause = false →
    ∃ t, exec (.vsupRise ch false) s = .next t ∧ s.onlyChan ch t ∧ (t.chan ch).pwr.up = true ∧
      ((t.chan ch).causes .S).testBit 5 = false ∧ ((t.chan ch).causes .P).testBit 5 = false) ∧
  (∀ (ch : Chan) (s : State), s.mss.on = true → s.a.pwr.up = false → s.b.pwr.up = false → s.c.pwr.up = false →
    ∃ t, exec (.vsupRise ch true) s = .next t ∧ t.mss.sup.pcyc = satInc 24 s.mss.sup.pcyc) ∧
  (∀ (ch : Chan) (s : State), (s.chan ch).pwr.off = false → (s.chan ch).rd PWR_STAT_RUNG < 2 →
    (∃ o, o ≠ ch ∧ (s.chan o).pwr.up = true) →
    ∃ t, exec (.vsupUndervoltage ch) s = .next t ∧ (t.chan ch).pwr.up = false ∧
      ((t.chan ch).causes .S).testBit 5 = true ∧ ((t.chan ch).causes .P).testBit 5 = true ∧
      ∀ o, o ≠ ch → t.chan o = s.chan o) ∧
  (∀ (ch : Chan) (s : State), (s.chan ch).pwr.off = false → (s.chan ch).pwr.up = false →
    (∃ o, o ≠ ch ∧ (s.chan o).pwr.up = true) →
    ∃ t, exec (.vsupReset ch) s = .next t ∧ (t.chan ch).pwr.off = true ∧ (t.chan ch).sram = [] ∧
      (t.chan ch).otp = (s.chan ch).otp ∧ ∀ o, o ≠ ch → t.chan o = s.chan o) ∧
  (∀ s : State, s.parked = true →
    ∃ t, exec .parkHoldEnd s = .next t ∧ t.pending = s.pending ∧
      (∀ ch, (s.chan ch).pwr.off = false → (t.chan ch).rd PWR_STAT_RUNG = 2 ∧ (s.chan ch).sameBut [PWR_STAT] (t.chan ch)) ∧
      (s.mss.on = true → t.mss.rung = 2 ∧ t.mss.sup.optA = s.mss.sup.optime ∧ t.mss.sup.optB = s.mss.sup.optime)) ∧
  (∀ (region : Fin 4) (ch : Chan) (s : State), Chan.ofNum (region.val + 1) = some ch → (s.chan ch).pwr.off = false →
    (s.chan ch).rd PWR_STAT_RUNG = 2 → 2 < (s.chan ch).deep →
    ∃ t, exec (.rungDwellEnd region) s = .next t ∧ s.onlyChan ch t ∧ (s.chan ch).sameBut [PWR_STAT] (t.chan ch) ∧
      (t.chan ch).rd PWR_STAT_RUNG = 3) ∧
  (∀ (w : WakeEvt) (s : State), s.wakes w = true → 2 ≤ s.rungOf w.region.val →
    ∃ t, exec (.wake w) s = .next t ∧ t.pending = s.pending ∧ (s.mss.on = true → t.mss.rung = 0) ∧
      (∀ ch, (s.chan ch).pwr.off = false → 2 ≤ (s.chan ch).rd PWR_STAT_RUNG →
        (t.chan ch).rd PWR_STAT_RUNG = 0 ∧ (t.chan ch).rd PWR_STAT_WKIND = w.kind % 16 ∧
        (t.chan ch).rd PWR_CNT_WAKES = satInc 16 ((s.chan ch).rd PWR_CNT_WAKES) ∧ (t.chan ch).fol = (s.chan ch).fol ∧
        (t.chan ch).sram = (s.chan ch).sram)) ∧
  (∀ (ch : Chan) (s : State), s.mss.on = true → s.mss.mp = true → s.mss.held = false → (s.mss.port ch).up = true →
    (s.chan ch).pwr.up = true → (s.chan ch).pwr.off = false → 2 ≤ (s.chan ch).rd PWR_STAT_RUNG →
    ∃ t, exec (.mpWake ch) s = .next t ∧ s.onlyChan ch t ∧ (t.chan ch).rd PWR_STAT_RUNG = 0 ∧
      (t.chan ch).hrd.wake = (s.chan ch).rd PWR_STAT_RUNG)

/-- R490, R499, R496, R498, R507: a BIST that passes hands over to the comparator sweep; one that fails raises
BIST_FAIL (7) and stays at its step; the filtered key shows in KEYL; AWAKET ends; a voting member's P1 requests wait
for the next round start, and outside the herd a request to enter P1 is refused. Where the spec leaves a corner open
the statement rests on the model's reading, log entries 28, 72. -/
def Obligations.BringUpAndKeySteps : Prop :=
  (∀ (ch : Chan) (s : State), (s.chan ch).live = true → (s.chan ch).rd PWR_BOOT_STEP = 4 →
    ∃ t, exec (.bistDone ch true) s = .next t ∧ s.onlyChan ch t ∧
      (s.chan ch).sameBut [PWR_BOOT, CMP_STAT, CMP_SWEEP, HRD_NEXTSRC] (t.chan ch) ∧ (t.chan ch).rd PWR_BOOT_STEP = 5 ∧
      (t.chan ch).is CMP_STAT_SWEEPRUN = true ∧
      ((s.chan ch).rd STW_RSTCAUSE_CAUSE = 5 → (t.chan ch).is HRD_NEXTSRC_STPASS = true)) ∧
  (∀ (ch : Chan) (s : State), (s.chan ch).live = true → (s.chan ch).rd PWR_BOOT_STEP = 4 → (s.chan ch).blockOn 0 = true →
    (s.chan ch).fcc.tag = none → (s.chan ch).spares 7 →
    ∃ t, exec (.bistDone ch false) s = .next t ∧ s.onlyChan ch t ∧
      (s.chan ch).sameButEvents [PWR_BOOT, CMP_STAT, CMP_SWEEP, HRD_NEXTSRC] (t.chan ch) ∧ (t.chan ch).rd PWR_BOOT_STEP = 4 ∧
      (t.chan ch).srcBit FCC_STAT_SRC 7 = true) ∧
  (∀ (ch : Chan) (on : Bool) (s : State), (s.chan ch).live = true →
    ∃ t, exec (.keyFiltered ch on) s = .next t ∧ s.onlyChan ch t ∧ (s.chan ch).sameBut [PWR_STAT] (t.chan ch) ∧
      (t.chan ch).is PWR_STAT_KEYL = on ∧ (t.chan ch).rd PWR_STAT_RUNG = (s.chan ch).rd PWR_STAT_RUNG) ∧
  (∀ (ch : Chan) (s : State), (s.chan ch).live = true →
    ∃ t, exec (.awakeTimeEnd ch) s = .next t ∧ s.onlyChan ch t ∧ (s.chan ch).sameBut [] (t.chan ch) ∧
      (t.chan ch).pwr.awake = true) ∧
  (∀ (ch : Chan) (s : State), (s.chan ch).live = true → (s.chan ch).voting = true →
    ∃ t, exec (.p1EnterRequest ch) s = .next t ∧ s.onlyChan ch t ∧ (s.chan ch).sameBut [] (t.chan ch) ∧
      (t.chan ch).pwr.p1Req = 1) ∧
  (∀ (ch : Chan) (s : State), (s.chan ch).live = true → (s.chan ch).voting = false →
    ∃ t, exec (.p1EnterRequest ch) s = .next t ∧ s.onlyChan ch t ∧ (s.chan ch).sameBut [PWR_REQ] (t.chan ch) ∧
      (t.chan ch).is PWR_REQ_REFUSED = true ∧ (t.chan ch).pwr.p1Req = (s.chan ch).pwr.p1Req) ∧
  (∀ (ch : Chan) (s : State), (s.chan ch).live = true → (s.chan ch).voting = true →
    ∃ t, exec (.p1LeaveRequest ch) s = .next t ∧ s.onlyChan ch t ∧ (s.chan ch).sameBut [] (t.chan ch) ∧
      (t.chan ch).pwr.p1Req = 2)

/-- R509, R511, R514, R515, R519: an access of a closed port ends with op = 2 and has no other effect; a read of an
open one answers its register's word; a write of data0 to an active module holds its value. A halt request to a voting
member waits as HPEND and halts nothing; one to a member of no herd halts its hart at once; a resumed hart runs. A
system-bus read answers a word of memory and changes nothing else of the channel; an address that is not aligned sets
sberror 3, another size 4. Where the spec leaves a corner open the statement rests on the model's reading, log entries
73, 74, 75. -/
def Obligations.DebugPortsServe : Prop :=
  (∀ (p : DbgPort) (op : DmiOp) (a : BitVec 7) (v : Word) (s : State), s.portUsable p = false → s.portLive p = true →
    ∃ t, exec (.dmiAccess p op a v) s = .next t ∧ t.dbg p = { s.dbg p with op := 2 } ∧ t.pending = s.pending ∧
      (∀ ch, (s.chan ch).sameBut [] (t.chan ch)) ∧ (∀ ch, p ≠ .ch ch → t.chan ch = s.chan ch) ∧
      (p ≠ .mss → t.mss = s.mss) ∧ s.mss.sameBut [] t.mss) ∧
  (∀ (p : DbgPort) (a : BitVec 7) (v : Word) (s : State), s.portUsable p = true → a ≠ 0x3C →
    ∃ t, exec (.dmiAccess p .read a v) s = .next t ∧ t.dbg p = { s.dbg p with op := 0, data := s.dmiWord p a.toNat } ∧
      t.pending = s.pending ∧ (∀ ch, (s.chan ch).sameBut [] (t.chan ch)) ∧ s.mss.sameBut [] t.mss) ∧
  (∀ (p : DbgPort) (v : Word) (s : State), s.portUsable p = true → (kget 0 (s.dbg p).regs 0x10).getLsbD 0 = true →
    ∃ t, exec (.dmiAccess p .write 0x04 v) s = .next t ∧ (t.dbg p).op = 0 ∧ kget 0 (t.dbg p).regs 0x04 = v ∧
      (∀ a, a ≠ 0x04 → kget 0 (t.dbg p).regs a = kget 0 (s.dbg p).regs a) ∧
      (∀ ch, (s.chan ch).sameBut [] (t.chan ch)) ∧ s.mss.sameBut [] t.mss) ∧
  (∀ (ch : Chan) (h : Fin 5) (s : State), s.portUsable (.ch ch) = true → s.hartExists (.ch ch) h = true →
    (s.chan ch).voting = true →
    ∃ t, exec (.debugHaltRequest (.ch ch) h true) s = .next t ∧ s.onlyChan ch t ∧
      (s.chan ch).sameBut [STW_DBG] (t.chan ch) ∧ (t.chan ch).is STW_DBG_HPEND = true ∧
      (t.chan ch).rd STW_DBG_HALTED = (s.chan ch).rd STW_DBG_HALTED ∧ (t.chan ch).voting = true ∧
      (t.chan ch).dbg.want.getLsbD h = true) ∧
  (∀ (ch : Chan) (h : Fin 5) (s : State), s.portUsable (.ch ch) = true → s.hartExists (.ch ch) h = true →
    (s.chan ch).voting = false → (s.chan ch).isShadow = false →
    ∃ t, exec (.debugHaltRequest (.ch ch) h true) s = .next t ∧ s.onlyChan ch t ∧
      (s.chan ch).sameBut [STW_DBG] (t.chan ch) ∧ (t.chan ch).bit STW_DBG_HALTED h = true ∧
      ∀ k < 5, k ≠ h.val → (t.chan ch).bit STW_DBG_HALTED k = (s.chan ch).bit STW_DBG_HALTED k) ∧
  (∀ (ch : Chan) (h : Fin 5) (s : State), s.portUsable (.ch ch) = true → s.hartExists (.ch ch) h = true →
    (s.chan ch).bit STW_DBG_HALTED h = true →
    ∃ t, exec (.debugResume (.ch ch) h false) s = .next t ∧ s.onlyChan ch t ∧
      (s.chan ch).sameBut [STW_DBG] (t.chan ch) ∧ (t.chan ch).bit STW_DBG_HALTED h = false ∧
      (t.chan ch).dbg.resumed.getLsbD h = true ∧
      ∀ k < 5, k ≠ h.val → (t.chan ch).bit STW_DBG_HALTED k = (s.chan ch).bit STW_DBG_HALTED k) ∧
  (∀ (ch : Chan) (m : MemId) (a : Nat) (s : State), s.portUsable (.ch ch) = true → (s.chan ch).dbg.sberr = 0 →
    a % 4 = 0 → pairMem a 4 = some m →
    ∃ t, exec (.systemBusAccess ch a none .word) s = .next t ∧ s.onlyChan ch t ∧ (s.chan ch).sameBut [] (t.chan ch) ∧
      kget 0 (t.chan ch).dbg.regs 0x3C = ((s.chan ch).mem m).readWord a ∧ (t.chan ch).dbg.sberr = 0) ∧
  (∀ (ch : Chan) (a : Nat) (wr : Option Word) (z : AccSize) (s : State), s.portUsable (.ch ch) = true →
    (s.chan ch).dbg.sberr = 0 → (z ≠ .word ∨ a % 4 ≠ 0) →
    ∃ t, exec (.systemBusAccess ch a wr z) s = .next t ∧ s.onlyChan ch t ∧ (s.chan ch).sameBut [] (t.chan ch) ∧
      (t.chan ch).dbg.sberr = if z ≠ .word then 4 else 3)

/-- The step takes the command at the front of the queue: it is `exec` of that command on the state with the queue's
rest. On an empty queue 40 ns pass (the model's choice, log entry 4). -/
def Obligations.StepRunsTheFrontCommand : Prop :=
  (∀ (c : Instr) (rest : List Instr) (s : State), s.pending = c :: rest → step s = exec c { s with pending := rest }) ∧
  (∀ s : State, s.pending = [] → step s = .next s.tick)

/-- No command ends the machine: each answers a next state, and leaves the queue to the step. Where the spec leaves a
corner open the statement rests on the model's reading, log entry 6. -/
def Obligations.EveryCommandAnswersANextState : Prop :=
  ∀ (i : Instr) (s : State), ∃ t, exec i s = .next t ∧ t.pending = s.pending

/-- R29, R30, R152: the commands that `Instr.localTo` lists change one channel alone, those that `Instr.mssOnly` lists
the management subsystem alone, whatever the state. Where the spec leaves a corner open the statement rests on the
model's reading, log entry 6. -/
def Obligations.ChannelsAreFaultContainmentRegions : Prop :=
  (∀ (i : Instr) (ch : Chan) (s : State), i.localTo = some ch → ∃ t, exec i s = .next t ∧ s.onlyChan ch t) ∧
  (∀ (i : Instr) (s : State), i.mssOnly = true → ∃ t, exec i s = .next t ∧ s.onlyMss t)

/-- After reset: the invariants below hold, the queue is empty, each channel is in BRING-UP, unsealed, in reset with
its wipe to come, with nothing counted, ERR_x low and every bridge held off (R109, R72, R167, R417, R421, R243). Where
the spec leaves a corner open the statement rests on the model's reading, log entries 1, 2, 3. -/
def Obligations.ResetStateIsBringUp : Prop :=
  State.reset.countsInRange ∧ State.reset.fusesOrdered ∧ State.reset.mss.logOrdered ∧ State.reset.memWf ∧ State.reset.pending = [] ∧
    ∀ ch, (State.reset.chan ch).rd STW_MODE_MODE = 1 ∧ (State.reset.chan ch).is STW_SEAL_SEAL = false ∧
      (State.reset.chan ch).regs.word (FCC_STAT 0) = 0 ∧ (State.reset.chan ch).regs.word (FCC_STAT 1) = 0 ∧
      (State.reset.chan ch).is FCC_EPIN_LEVEL = false ∧ (State.reset.chan ch).sram = [] ∧ (State.reset.chan ch).voting = false

/-- R431 to R433: from every state with the counts in their widths, no step moves PCYC or CALEPOCH back, and they stay
in their widths. -/
def Obligations.PowerCycleCountsNeverMoveBack : Prop :=
  ∀ s t : State, s.countsInRange → step s = .next t →
    t.countsInRange ∧ s.mss.sup.pcyc ≤ t.mss.sup.pcyc ∧ s.mss.sup.calEpoch ≤ t.mss.sup.calEpoch

/-- R445: from every state whose log is in order, no step clears or rewrites a written record, LOG_FULL, LOG_DEAD, a
retirement or a life counter; a slot is written only at LOG_NEXT, which stands or advances by one. -/
def Obligations.RecordsAreNeverRewritten : Prop :=
  ∀ s t : State, s.mss.logOrdered → step s = .next t →
    t.mss.logOrdered ∧ s.mss.bankGrows s.mss.log.bank0 s.mss.log.bank1 t.mss.log.bank0 ∧
      s.mss.bankGrows s.mss.log.bank1 s.mss.log.bank0 t.mss.log.bank1 ∧
      (t.mss.rd LOG_NEXT_SEQ = s.mss.rd LOG_NEXT_SEQ ∨ t.mss.rd LOG_NEXT_SEQ = (s.mss.rd LOG_NEXT_SEQ + 1) % 2 ^ 32) ∧
      (∀ f ∈ [LOG_STAT_FULL, LOG_STAT_DEAD, LOG_STAT_RET0, LOG_STAT_RET1], s.mss.is f = true → t.mss.is f = true) ∧
      ∀ i < 1024, s.mss.rd (LOG_LIFE_COUNT i) ≤ t.mss.rd (LOG_LIFE_COUNT i)

/-- R462: no step clears an OTP bit, of the management subsystem or of a channel's die, nor the DV flag; a life-cycle
change in preparation leads to no earlier state, and a slot that is not fused holds no hash. -/
def Obligations.OtpBitsAreNeverCleared : Prop :=
  ∀ s t : State, s.fusesOrdered → step s = .next t →
    t.fusesOrdered ∧ s.mss.key.otp.grows t.mss.key.otp ∧
      (s.mss.is KEY_STAT_DV = true → t.mss.is KEY_STAT_DV = true) ∧ ∀ ch, (s.chan ch).otp.grows (t.chan ch).otp

/-- Every step keeps the canonical form of every memory: addresses rising, no entry equal to what an unlisted address
reads. Where the spec leaves a corner open the statement rests on the model's reading, log entry 1. -/
def Obligations.MemoriesStayCanonical : Prop :=
  ∀ s t : State, s.memWf → step s = .next t → t.memWf

/-- R181, R271, R365, R430, R432: on an empty queue a channel that runs counts 8 PCLK cycles of TB and five
network-time ticks of INC, one without supply, fail-silent or on P2 to P5 counts nothing; OPTIME never falls and stands
while no supply is at hand or a channel sleeps; every register but the SENT ages, every memory and the queue stand, but
where GDEN_x is still low after the pulse on GDENO_x, which raises GD_ENLOW (43) (the model's choice, log entries 4 and
42). Where the spec leaves a corner open the statement rests on the model's reading, log entry 4. -/
def Obligations.TimePassesOnAnEmptyQueue : Prop :=
  ∀ s : State, s.pending = [] →
    ∃ t, step s = .next t ∧ t.pending = [] ∧
      (∀ ch, (s.chan ch).pow.lowAfter = false ∨ (s.chan ch).pow.gden = true ∨ (s.chan ch).pow.gdeno = true →
        (s.chan ch).sameBut [ENC_SSTAT 0, ENC_SSTAT 1, ENC_SSTAT 2] (t.chan ch)) ∧
      (∀ ch, (s.chan ch).live = true → (s.chan ch).pow.lowAfter = true → (s.chan ch).pow.gden = false →
        (s.chan ch).pow.gdeno = false → (s.chan ch).blockOn 7 = true → (s.chan ch).fcc.tag = none → (s.chan ch).spares 43 →
        (t.chan ch).srcBit FCC_STAT_SRC 43 = true ∧ (t.chan ch).pow.lowAfter = false ∧
        (s.chan ch).sameButEvents [ENC_SSTAT 0, ENC_SSTAT 1, ENC_SSTAT 2, GDR_CNT] (t.chan ch)) ∧
      (∀ ch, (s.chan ch).pwr.off = false → (s.chan ch).failSilent = false → (s.chan ch).rd PWR_STAT_RUNG < 2 →
        (t.chan ch).tb = (s.chan ch).tb + 8 ∧
        (t.chan ch).ntc.nt = ((s.chan ch).ntc.nt + 5 * (s.chan ch).rd NTC_INC_VALUE) % 2 ^ 88) ∧
      (∀ ch, (s.chan ch).pwr.off = true ∨ (s.chan ch).failSilent = true ∨ 2 ≤ (s.chan ch).rd PWR_STAT_RUNG →
        (t.chan ch).tb = (s.chan ch).tb ∧ (t.chan ch).ntc = (s.chan ch).ntc) ∧
      t.mss.regs = s.mss.regs ∧ t.mss.log = s.mss.log ∧ t.mss.key = s.mss.key ∧ t.mss.upd = s.mss.upd ∧
      (s.mss.on = false → t.mss = s.mss) ∧
      (s.operating = false → t.mss.sup.optime = s.mss.sup.optime) ∧
      (s.mss.sup.optime < 2 ^ 48 → s.mss.sup.optime ≤ t.mss.sup.optime)
end

