-- ==== Sys2Proof/Laws/Maps.lean ====
section
/-! SUPPORT. Laws of the sparse maps: reading what was written, the canonical form, memories and register fields. -/

namespace Sys2Proof.Machine

variable {α : Type}

theorem kget_kerase_self (d : α) (m : KMap α) (a : Nat) : kget d (kerase m a) a = d := by
  induction m with
  | nil => rfl
  | cons p r ih =>
    obtain ⟨k, v⟩ := p
    by_cases h : a = k
    · subst h; simpa [kerase] using ih
    · simpa [kerase, kget, h] using ih

theorem kget_kerase_ne (d : α) (m : KMap α) {a b : Nat} (h : b ≠ a) : kget d (kerase m a) b = kget d m b := by
  induction m with
  | nil => rfl
  | cons p r ih =>
    obtain ⟨k, v⟩ := p
    by_cases hk : a = k
    · subst hk; simpa [kerase, kget, h] using ih
    · by_cases hb : b = k <;> simp [kerase, kget, hk, hb, ih]

/-- No entry of `m` has key `a`. -/
def kfree (m : KMap α) (a : Nat) : Prop := ∀ p ∈ m, p.1 ≠ a

theorem kfree_kerase (m : KMap α) (a : Nat) : kfree (kerase m a) a := by
  induction m with
  | nil => simp [kfree, kerase]
  | cons p r ih =>
    obtain ⟨k, v⟩ := p
    by_cases h : a = k
    · subst h; simpa [kerase] using ih
    · intro q hq
      simp only [kerase, h, if_false] at hq
      rcases List.mem_cons.1 hq with rfl | hq
      · exact fun e => h e.symm
      · exact ih q hq

theorem kget_kins_self (d : α) (m : KMap α) (a : Nat) (v : α) (hf : kfree m a) : kget d (kins m a v) a = v := by
  induction m with
  | nil => simp [kins, kget]
  | cons p r ih =>
    obtain ⟨k, w⟩ := p
    have hk : k ≠ a := hf (k, w) (by simp)
    by_cases h : a < k
    · simp [kins, kget, h]
    · simp only [kins, h, if_false, kget, if_neg (Ne.symm hk)]
      exact ih fun q hq => hf q (by simp [hq])

theorem kget_kins_ne (d : α) (m : KMap α) {a b : Nat} (v : α) (h : b ≠ a) : kget d (kins m a v) b = kget d m b := by
  induction m with
  | nil => simp [kins, kget, h]
  | cons p r ih =>
    obtain ⟨k, w⟩ := p
    by_cases hk : a < k
    · simp [kins, kget, hk, h]
    · by_cases hb : b = k <;> simp [kins, kget, hk, hb, ih]

/-- Reading the key just written gives the value. -/
@[simp] theorem kget_kset_self [DecidableEq α] (d : α) (m : KMap α) (a : Nat) (v : α) : kget d (kset d m a v) a = v := by
  unfold kset
  split
  · rename_i h; rw [h]; exact kget_kerase_self d m a
  · exact kget_kins_self d _ a v (kfree_kerase m a)

/-- A write leaves every other key alone. -/
theorem kget_kset_ne [DecidableEq α] (d : α) (m : KMap α) {a b : Nat} (v : α) (h : b ≠ a) :
    kget d (kset d m a v) b = kget d m b := by
  unfold kset
  split
  · exact kget_kerase_ne d m h
  · rw [kget_kins_ne d _ v h, kget_kerase_ne d m h]

/-- The canonical form as a property: keys rise from above `lo`, and no value is the default. -/
def KFrom [DecidableEq α] (d : α) : Nat → KMap α → Prop
  | _, [] => True
  | lo, (k, v) :: r => lo ≤ k ∧ v ≠ d ∧ KFrom d (k + 1) r

theorem KFrom.mono [DecidableEq α] {d : α} {m : KMap α} {lo lo' : Nat} (h : KFrom d lo m) (hl : lo' ≤ lo) : KFrom d lo' m := by
  cases m with
  | nil => trivial
  | cons p r => exact ⟨le_trans hl h.1, h.2⟩

theorem kwf_cons [DecidableEq α] (d : α) (k : Nat) (v : α) (r : KMap α) : kwf d ((k, v) :: r) = true ↔ v ≠ d ∧ KFrom d (k + 1) r := by
  induction r generalizing k v with
  | nil => simp [kwf, KFrom]
  | cons p r ih =>
    obtain ⟨k', v'⟩ := p
    simp only [kwf, Bool.and_eq_true, decide_eq_true_eq, ih, KFrom]
    constructor
    · rintro ⟨⟨a, b⟩, c⟩; exact ⟨a, b, c⟩
    · rintro ⟨a, b, c⟩; exact ⟨⟨a, b⟩, c⟩

theorem kwf_iff [DecidableEq α] (d : α) (m : KMap α) : kwf d m = true ↔ KFrom d 0 m := by
  cases m with
  | nil => simp [kwf, KFrom]
  | cons p r =>
    obtain ⟨k, v⟩ := p
    rw [kwf_cons]; simp [KFrom]

theorem KFrom.kerase [DecidableEq α] {d : α} {m : KMap α} {lo : Nat} (h : KFrom d lo m) (a : Nat) : KFrom d lo (kerase m a) := by
  induction m generalizing lo with
  | nil => trivial
  | cons p r ih =>
    obtain ⟨k, v⟩ := p
    obtain ⟨h1, h2, h3⟩ := h
    by_cases e : a = k
    · simp only [Machine.kerase, e, if_true]
      rw [← e]
      exact ih (KFrom.mono h3 (by omega))
    · simp only [Machine.kerase, e, if_false]
      exact ⟨h1, h2, ih h3⟩

theorem KFrom.kins [DecidableEq α] {d : α} {m : KMap α} {lo a : Nat} {v : α} (h : KFrom d lo m) (hl : lo ≤ a) (hv : v ≠ d)
    (hf : kfree m a) : KFrom d lo (kins m a v) := by
  induction m generalizing lo with
  | nil => exact ⟨hl, hv, trivial⟩
  | cons p r ih =>
    obtain ⟨k, w⟩ := p
    obtain ⟨h1, h2, h3⟩ := h
    have hk : k ≠ a := hf (k, w) (by simp)
    by_cases e : a < k
    · simp only [Machine.kins, e, if_true]
      exact ⟨hl, hv, e, h2, h3⟩
    · simp only [Machine.kins, e, if_false]
      exact ⟨h1, h2, ih h3 (by omega) fun q hq => hf q (by simp [hq])⟩

/-- A write keeps the canonical form. -/
theorem kwf_kset [DecidableEq α] (d : α) (m : KMap α) (a : Nat) (v : α) (h : kwf d m = true) : kwf d (kset d m a v) = true := by
  rw [kwf_iff] at h ⊢
  unfold kset
  split
  · exact h.kerase a
  · rename_i hv
    exact (h.kerase a).kins (Nat.zero_le _) hv (kfree_kerase m a)

@[simp] theorem Memory.read_write_self (m : Memory) (a : Nat) (v : Byte) : (Memory.write m a v).read a = v := by
  simp [Memory.read, Memory.write]

theorem Memory.read_write_ne (m : Memory) {a b : Nat} (v : Byte) (h : b ≠ a) : Memory.read (Memory.write m a v) b = Memory.read m b := by
  simp [Memory.read, Memory.write, kget_kset_ne, h]

/-- A write keeps a memory's canonical form. -/
theorem Memory.wf_write (m : Memory) (a : Nat) (v : Byte) (h : Memory.wf m = true) : Memory.wf (Memory.write m a v) = true :=
  kwf_kset 0 m a v h

/-- Storing bytes keeps a memory's canonical form. -/
theorem Memory.wf_writeBytes (m : Memory) (a : Nat) (bs : List Byte) (h : Memory.wf m = true) :
    Memory.wf (Memory.writeBytes m a bs) = true := by
  induction bs generalizing m a with
  | nil => exact h
  | cons b bs ih => exact ih _ _ (Memory.wf_write m a b h)

/-- Storing a word keeps a memory's canonical form. -/
theorem Memory.wf_writeWord (m : Memory) (a : Nat) (v : Word) (h : Memory.wf m = true) :
    Memory.wf (Memory.writeWord m a v) = true := Memory.wf_writeBytes m a _ h

/-- Bytes outside a store read as before. -/
theorem Memory.read_writeBytes_out (m : Memory) (a b : Nat) (bs : List Byte) (h : b < a ∨ a + bs.length ≤ b) :
    Memory.read (Memory.writeBytes m a bs) b = Memory.read m b := by
  induction bs generalizing m a with
  | nil => rfl
  | cons x xs ih =>
    simp only [List.length_cons] at h
    simp only [Memory.writeBytes]
    rw [ih _ _ (by omega), Memory.read_write_ne _ _ (by omega)]

/-- A stored byte reads back. -/
theorem Memory.read_writeBytes_in (m : Memory) (a i : Nat) (bs : List Byte) (h : i < bs.length) :
    Memory.read (Memory.writeBytes m a bs) (a + i) = bs[i] := by
  induction bs generalizing m a i with
  | nil => simp at h
  | cons x xs ih =>
    cases i with
    | zero =>
      simp only [Memory.writeBytes, Nat.add_zero, List.getElem_cons_zero]
      rw [Memory.read_writeBytes_out _ _ _ _ (Or.inl (by omega)), Memory.read_write_self]
    | succ i =>
      have := ih (Memory.write m a x) (a + 1) i (by simpa using h)
      rw [show a + (i + 1) = a + 1 + i by omega]
      simpa [Memory.writeBytes] using this

@[simp] theorem leBytes_length (n v : Nat) : (leBytes n v).length = n := by
  induction n generalizing v with
  | zero => rfl
  | succ n ih => simp [leBytes, ih]

@[simp] theorem RegMap.word_setWord_self (r : RegMap) (a : Nat) (v : Word) : (r.setWord a v).word a = v := by
  simp [RegMap.word, RegMap.setWord]

theorem RegMap.word_setWord_ne (r : RegMap) {a b : Nat} (v : Word) (h : b ≠ a) : (r.setWord a v).word b = r.word b := by
  simp [RegMap.word, RegMap.setWord, kget_kset_ne, h]

theorem RegMap.get_setWord_ne (r : RegMap) {a : Nat} {f : Fld} (v : Word) (h : f.addr ≠ a) : (r.setWord a v).get f = r.get f := by
  simp [RegMap.get, RegMap.word_setWord_ne, h]

theorem RegMap.word_put_ne (r : RegMap) (f : Fld) (v : Nat) {a : Nat} (h : a ≠ f.addr) : (r.put f v).word a = r.word a := by
  simp [RegMap.put, RegMap.word_setWord_ne, h]

/-- A write of another register leaves a field alone. -/
theorem RegMap.get_put_ne (r : RegMap) {f g : Fld} (v : Nat) (h : f.addr ≠ g.addr) : (r.put g v).get f = r.get f := by
  simp [RegMap.get, RegMap.word_put_ne, h]

/-- The fields lie in one register without sharing a bit, or in two registers. -/
def Fld.apart (f g : Fld) : Prop := f.addr ≠ g.addr ∨ f.lsb + f.width ≤ g.lsb ∨ g.lsb + g.width ≤ f.lsb

/-- The field lies within its 32-bit register. -/
def Fld.fits (f : Fld) : Prop := f.lsb + f.width ≤ 32

theorem field_arith (w l n v : Nat) :
    w - w / 2 ^ l % 2 ^ n * 2 ^ l + v % 2 ^ n * 2 ^ l = w / 2 ^ (l + n) * 2 ^ (l + n) + v % 2 ^ n * 2 ^ l + w % 2 ^ l := by
  have h1 : w / 2 ^ l = w / 2 ^ (l + n) * 2 ^ n + w / 2 ^ l % 2 ^ n := by
    rw [pow_add, ← Nat.div_div_eq_div_mul]
    have := Nat.div_add_mod (w / 2 ^ l) (2 ^ n)
    nlinarith
  have h2 : w = w / 2 ^ l * 2 ^ l + w % 2 ^ l := by
    have := Nat.div_add_mod w (2 ^ l)
    nlinarith
  have h3 : w = w / 2 ^ (l + n) * 2 ^ (l + n) + w / 2 ^ l % 2 ^ n * 2 ^ l + w % 2 ^ l := by
    calc w = w / 2 ^ l * 2 ^ l + w % 2 ^ l := h2
      _ = (w / 2 ^ (l + n) * 2 ^ n + w / 2 ^ l % 2 ^ n) * 2 ^ l + w % 2 ^ l := by rw [← h1]
      _ = _ := by rw [pow_add]; ring
  generalize hx : w / 2 ^ (l + n) * 2 ^ (l + n) = x at *
  generalize hy : w / 2 ^ l % 2 ^ n * 2 ^ l = y at *
  generalize hz : w % 2 ^ l = z at *
  omega

theorem field_lt (w l n v : Nat) (hw : w < 2 ^ 32) (h : l + n ≤ 32) :
    w - w / 2 ^ l % 2 ^ n * 2 ^ l + v % 2 ^ n * 2 ^ l < 2 ^ 32 := by
  rw [field_arith]
  have hk : w / 2 ^ (l + n) < 2 ^ (32 - (l + n)) := by
    rw [Nat.div_lt_iff_lt_mul (by positivity), ← pow_add]
    rwa [show 32 - (l + n) + (l + n) = 32 by omega]
  have h1 : v % 2 ^ n < 2 ^ n := Nat.mod_lt _ (by positivity)
  have h2 : w % 2 ^ l < 2 ^ l := Nat.mod_lt _ (by positivity)
  have h3 : v % 2 ^ n * 2 ^ l + w % 2 ^ l < 2 ^ (l + n) := by
    rw [pow_add]
    calc v % 2 ^ n * 2 ^ l + w % 2 ^ l < v % 2 ^ n * 2 ^ l + 2 ^ l := by omega
      _ = (v % 2 ^ n + 1) * 2 ^ l := by ring
      _ ≤ 2 ^ n * 2 ^ l := Nat.mul_le_mul_right _ h1
      _ = 2 ^ l * 2 ^ n := by ring
  have h4 : (w / 2 ^ (l + n) + 1) * 2 ^ (l + n) ≤ 2 ^ 32 := by
    calc _ ≤ 2 ^ (32 - (l + n)) * 2 ^ (l + n) := Nat.mul_le_mul_right _ hk
      _ = 2 ^ 32 := by rw [← pow_add]; congr 1; omega
  nlinarith

theorem RegMap.word_put_self (r : RegMap) (f : Fld) (v : Nat) (h : f.fits) :
    ((r.put f v).word f.addr).toNat =
      (r.word f.addr).toNat - (r.word f.addr).toNat / 2 ^ f.lsb % 2 ^ f.width * 2 ^ f.lsb + v % 2 ^ f.width * 2 ^ f.lsb := by
  simp only [RegMap.put, RegMap.word_setWord_self, BitVec.toNat_ofNat]
  exact Nat.mod_eq_of_lt (field_lt _ _ _ _ (r.word f.addr).isLt h)

/-- A field reads the value written to it, cut to its width. -/
theorem RegMap.get_put_self (r : RegMap) (f : Fld) (v : Nat) (h : f.fits) : (r.put f v).get f = v % 2 ^ f.width := by
  simp only [RegMap.get]
  rw [RegMap.word_put_self r f v h, field_arith]
  have h2 : (r.word f.addr).toNat % 2 ^ f.lsb < 2 ^ f.lsb := Nat.mod_lt _ (by positivity)
  have e : (r.word f.addr).toNat / 2 ^ (f.lsb + f.width) * 2 ^ (f.lsb + f.width) + v % 2 ^ f.width * 2 ^ f.lsb
      + (r.word f.addr).toNat % 2 ^ f.lsb =
      (r.word f.addr).toNat % 2 ^ f.lsb + 2 ^ f.lsb *
        (v % 2 ^ f.width + 2 ^ f.width * ((r.word f.addr).toNat / 2 ^ (f.lsb + f.width))) := by
    rw [pow_add]; ring
  rw [e, Nat.add_mul_div_left _ _ (by positivity), Nat.div_eq_of_lt h2, Nat.zero_add, Nat.add_mul_mod_self_left, Nat.mod_mod]

/-- A write of one field leaves a field that shares no bit with it alone. -/
theorem RegMap.get_put_apart (r : RegMap) (f g : Fld) (v : Nat) (h : f.apart g) (hg : g.fits) :
    (r.put g v).get f = r.get f := by
  by_cases ha : f.addr = g.addr
  · simp only [RegMap.get]
    rw [ha, RegMap.word_put_self r g v hg, field_arith]
    generalize (r.word g.addr).toNat = w
    have h2 : w % 2 ^ g.lsb < 2 ^ g.lsb := Nat.mod_lt _ (by positivity)
    have h1 : v % 2 ^ g.width < 2 ^ g.width := Nat.mod_lt _ (by positivity)
    have hlow : v % 2 ^ g.width * 2 ^ g.lsb + w % 2 ^ g.lsb < 2 ^ (g.lsb + g.width) := by
      rw [pow_add]
      calc v % 2 ^ g.width * 2 ^ g.lsb + w % 2 ^ g.lsb
          < v % 2 ^ g.width * 2 ^ g.lsb + 2 ^ g.lsb := by omega
        _ = (v % 2 ^ g.width + 1) * 2 ^ g.lsb := by ring
        _ ≤ 2 ^ g.width * 2 ^ g.lsb := Nat.mul_le_mul_right _ h1
        _ = _ := by ring
    rcases h with h | h | h
    · exact absurd ha h
    · -- below
      obtain ⟨k, hk⟩ : ∃ k, g.lsb = f.lsb + f.width + k := ⟨g.lsb - (f.lsb + f.width), by omega⟩
      have e : ∀ x y : Nat, (x * 2 ^ (f.lsb + f.width) + y) / 2 ^ f.lsb % 2 ^ f.width = y / 2 ^ f.lsb % 2 ^ f.width := by
        intro x y
        rw [show x * 2 ^ (f.lsb + f.width) + y = y + 2 ^ f.lsb * (2 ^ f.width * x) by rw [pow_add]; ring,
          Nat.add_mul_div_left _ _ (by positivity), Nat.add_mul_mod_self_left]
      have e1 : w / 2 ^ (g.lsb + g.width) * 2 ^ (g.lsb + g.width) + v % 2 ^ g.width * 2 ^ g.lsb + w % 2 ^ g.lsb
          = (w / 2 ^ (g.lsb + g.width) * 2 ^ (k + g.width) + v % 2 ^ g.width * 2 ^ k) * 2 ^ (f.lsb + f.width) + w % 2 ^ g.lsb := by
        rw [hk]; simp only [pow_add]; ring
      have e2 : w = w / 2 ^ g.lsb * 2 ^ k * 2 ^ (f.lsb + f.width) + w % 2 ^ g.lsb := by
        have := Nat.div_add_mod w (2 ^ g.lsb)
        calc w = 2 ^ g.lsb * (w / 2 ^ g.lsb) + w % 2 ^ g.lsb := this.symm
          _ = _ := by congr 1; rw [hk]; simp only [pow_add]; ring
      rw [e1, e]
      conv_rhs => rw [e2, e]
    · obtain ⟨k, hk⟩ : ∃ k, f.lsb = g.lsb + g.width + k := ⟨f.lsb - (g.lsb + g.width), by omega⟩
      congr 1
      rw [hk, pow_add 2 (g.lsb + g.width) k, ← Nat.div_div_eq_div_mul, ← Nat.div_div_eq_div_mul]
      congr 1
      rw [Nat.add_assoc, Nat.mul_comm, Nat.mul_add_div (by positivity), Nat.div_eq_of_lt hlow, Nat.add_zero]
  · exact RegMap.get_put_ne r v ha

/-- `Fld.apart` as a check. -/
def Fld.apartB (f g : Fld) : Bool := f.addr != g.addr || decide (f.lsb + f.width ≤ g.lsb) || decide (g.lsb + g.width ≤ f.lsb)

/-- `Fld.fits` as a check. -/
def Fld.fitsB (f : Fld) : Bool := decide (f.lsb + f.width ≤ 32)

/-- `RegMap.get_put_self` with a check that computation decides. -/
theorem RegMap.get_put (r : RegMap) (f : Fld) (v : Nat) (h : f.fitsB = true) : (r.put f v).get f = v % 2 ^ f.width :=
  RegMap.get_put_self r f v (by simpa [Fld.fitsB] using h : f.lsb + f.width ≤ 32)

/-- `RegMap.get_put_apart` with a check that computation decides. -/
theorem RegMap.get_put_off (r : RegMap) (f g : Fld) (v : Nat) (h : (f.apartB g && g.fitsB) = true) :
    (r.put g v).get f = r.get f := by
  rw [Bool.and_eq_true] at h
  refine RegMap.get_put_apart r f g v ?_ (by simpa [Fld.fitsB] using h.2 : g.lsb + g.width ≤ 32)
  have := h.1
  simp only [Fld.apartB, Bool.or_eq_true, bne_iff_ne, ne_eq, decide_eq_true_eq] at this
  rcases this with (h1 | h1) | h1
  · exact Or.inl h1
  · exact Or.inr (Or.inl h1)
  · exact Or.inr (Or.inr h1)

theorem RegMap.get_lt (r : RegMap) (f : Fld) : r.get f < 2 ^ f.width := Nat.mod_lt _ (by positivity)

/-- Writing a field back leaves the canonical form. -/
theorem RegMap.wf_put (r : RegMap) (f : Fld) (v : Nat) (h : kwf (0 : Word) r = true) : kwf (0 : Word) (r.put f v) = true :=
  kwf_kset 0 r _ _ h

theorem RegMap.wf_setWord (r : RegMap) (a : Nat) (v : Word) (h : kwf (0 : Word) r = true) :
    kwf (0 : Word) (r.setWord a v) = true := kwf_kset 0 r _ _ h

end Sys2Proof.Machine
end

