-- ==== Sys2Proof/Laws/Events.lean ====
section
/-! SUPPORT. What the fault collector's one operation can do: `raise` either resets the channel or leaves everything but
the collector's registers as it was (`Channel.kept`). -/

namespace Sys2Proof.Machine

variable {w : Bool}

theorem Channel.keptW.refl (c : Channel) : c.keptW w c := ⟨fun _ _ _ => rfl, rfl, rfl, rfl, rfl, rfl, fun _ => rfl⟩

theorem Channel.keptW.trans {c d e : Channel} (h : c.keptW w d) (k : d.keptW w e) : c.keptW w e := by
  refine ⟨fun a h1 h2 => by rw [k.1 a h1 h2, h.1 a h1 h2], ?_, k.2.2.1.trans h.2.2.1, k.2.2.2.1.trans h.2.2.2.1,
    k.2.2.2.2.1.trans h.2.2.2.2.1, k.2.2.2.2.2.1.trans h.2.2.2.2.2.1,
    fun hw => (k.2.2.2.2.2.2 hw).trans (h.2.2.2.2.2.2 hw)⟩
  rw [k.2.1, h.2.1]

variable {c d e : Channel}

/-- A write of an event register keeps the rest. -/
theorem Channel.keptW.wr (h : c.keptW w d) (f : Fld) (v : Nat) (hf : (eventAddr f.addr || (w && severeAddr f.addr)) = true) :
    c.keptW w (d.wr f v) := by
  refine h.trans ⟨fun a h1 h2 => RegMap.word_put_ne _ _ _ ?_, rfl, rfl, rfl, rfl, rfl, fun _ => rfl⟩
  rintro rfl
  simp_all

theorem Channel.keptW.setBit (h : c.keptW w d) (f : Fld) (b : Nat) (v : Bool) (hf : (eventAddr f.addr || (w && severeAddr f.addr)) = true) :
    c.keptW w (d.setBit f b v) := h.wr f _ hf

theorem Channel.keptW.sat (h : c.keptW w d) (f : Fld) (hf : (eventAddr f.addr || (w && severeAddr f.addr)) = true) :
    c.keptW w (d.sat f) := h.wr f _ hf

theorem Channel.keptW.flag (h : c.keptW w d) (f : Fld) (b : Bool) (hf : (eventAddr f.addr || (w && severeAddr f.addr)) = true) :
    c.keptW w (d.flag f b) := h.wr f _ hf

theorem Channel.keptW.fcc_ (h : c.keptW w d) (x : Fcc) (h1 : x.loaded = d.fcc.loaded) (h2 : x.kicks = d.fcc.kicks)
    (h3 : x.engines = d.fcc.engines) : c.keptW w { d with fcc := x } :=
  h.trans ⟨fun _ _ _ => rfl, rfl, h1, h2, h3, rfl, fun _ => rfl⟩

theorem Channel.keptW.pow_ (h : c.kept d) (x : Pow) (hx : x.gden = d.pow.gden) : c.kept { d with pow := x } :=
  h.trans ⟨fun _ _ _ => rfl, rfl, rfl, rfl, rfl, hx, fun h => nomatch h⟩

theorem Channel.keptW.ite (p : Prop) [Decidable p] (h : c.keptW w d) (k : c.keptW w e) : c.keptW w (if p then d else e) := by
  split <;> assumption

theorem Channel.keptW.settle (h : c.kept d) (b : Bridge) : c.kept (d.settle b) := by
  unfold Channel.settle
  refine Channel.keptW.wr (Channel.keptW.ite _ ?_ h) _ _ (by cases b <;> rfl)
  cases b <;> exact h.pow_ _ rfl

theorem Channel.keptW.holdOv (h : c.kept d) (b : Bridge) : c.kept (d.holdOv b) := by
  cases b <;> exact h.pow_ _ rfl

theorem Channel.keptW.setCause (h : c.kept d) (b : Bridge) (n : Nat) (v : Bool) : c.kept (d.setCause b n v) := by
  unfold Channel.setCause
  refine Channel.keptW.settle (Channel.keptW.holdOv (Channel.keptW.setBit (Channel.keptW.ite _ ?_ h) _ _ _ (by cases b <;> rfl)) b) b
  cases b <;> exact h.pow_ _ rfl

theorem Channel.keptW.setCauses (h : c.kept d) (n : Nat) (v : Bool) : c.kept (d.setCauses n v) :=
  (h.setCause .S n v).setCause .P n v

theorem Channel.keptW.gdRefresh (h : c.kept d) : c.kept d.gdRefresh :=
  (((h.flag _ _ rfl).flag _ _ rfl).setCause .S 0 _).setCause .P 0 _

theorem Channel.keptW.chopFailed (h : c.kept d) : c.kept d.chopFailed :=
  ((((h.wr GDR_CHOP_FAILED 1 rfl).wr (FCE_REGEN_ZERO 0) 1 rfl).wr (FCE_REGEN_ZERO 1) 1 rfl).wr (FCE_REGEN_REGEN 0) 0 rfl).wr
    (FCE_REGEN_REGEN 1) 0 rfl

theorem eventAddr_pair (f : Nat → Fld) (base src : Nat) (hf : ∀ n, (f n).addr = base + 4 * n) (hb : 0x40010000 ≤ base)
    (hb2 : base + 8 ≤ 0x40010018) (h : src < 64) : (eventAddr (f (src / 32)).addr || (w && severeAddr (f (src / 32)).addr)) = true := by
  have : src / 32 < 2 := by omega
  simp only [eventAddr, hf, Bool.or_eq_true, Bool.and_eq_true, decide_eq_true_eq]
  left; left; left; omega

theorem Channel.keptW.setStat (k : c.keptW w d) (src : Nat) (v : Bool) (h : src < 64) : c.keptW w (d.setSrc FCC_STAT_SRC src v) :=
  k.setBit _ _ _ (eventAddr_pair _ 0x40010000 src (fun n => by simp [FCC_STAT]) (by omega) (by omega) h)

theorem Channel.keptW.setAct (k : c.keptW w d) (src : Nat) (v : Bool) (h : src < 64) : c.keptW w (d.setSrc FCC_ACT_SRC src v) :=
  k.setBit _ _ _ (eventAddr_pair _ 0x40010008 src (fun n => by simp [FCC_ACT]) (by omega) (by omega) h)

theorem Channel.keptW.setSev (k : c.keptW w d) (src : Nat) (v : Bool) (h : src < 64) : c.keptW w (d.setSrc FCC_SEV_SRC src v) :=
  k.setBit _ _ _ (eventAddr_pair _ 0x40010010 src (fun n => by simp [FCC_SEV]) (by omega) (by omega) h)

theorem eventAddr_cnt (src : Nat) (h : src < 64) :
    (eventAddr (FCC_CNT_OCC src).addr || (w && severeAddr (FCC_CNT_OCC src).addr)) = true := by
  simp only [eventAddr, FCC_CNT, Bool.or_eq_true, Bool.and_eq_true, decide_eq_true_eq]
  left; left; right; omega

/-- A plain source's severe status removes nothing. -/
theorem becomeSevere_plain (src : Nat) (hp : plainSrc src = true) (d : Channel) : d.becomeSevere src =
    { d.setSrc FCC_SEV_SRC src true with fcc := { d.fcc with newSev := true } } := by
  simp only [plainSrc, Bool.and_eq_true, Bool.or_eq_true, decide_eq_true_eq, beq_iff_eq, bne_iff_ne] at hp
  have hn : ¬(35 ≤ src ∧ src ≤ 41) := by omega
  simp [Channel.becomeSevere, hp.1.2, hp.2, hn, Channel.setSrc, Channel.setBit, Channel.wr]

theorem Channel.keptW.becomeSevere (h : c.keptW w d) (src : Nat) (hs : src < 64) (hp : w = true ∨ plainSrc src = true) :
    c.keptW w (d.becomeSevere src) := by
  have h0 : c.keptW w { d.setSrc FCC_SEV_SRC src true with fcc := { d.fcc with newSev := true } } :=
    (h.setSev src true hs).fcc_ _ rfl rfl rfl
  rcases hp with rfl | hp
  · unfold Channel.becomeSevere
    revert h0
    generalize ({ d.setSrc FCC_SEV_SRC src true with fcc := { d.fcc with newSev := true } } : Channel) = x
    intro h0
    have h1 : c.kept (if (removes src).channel = true then { x with fcc := { x.fcc with leave := true } } else x) :=
      Channel.keptW.ite _ (h0.fcc_ _ rfl rfl rfl) h0
    revert h1
    dsimp only
    generalize (if (removes src).channel = true then { x with fcc := { x.fcc with leave := true } } else x) = y
    intro h1
    refine Channel.keptW.ite _ ?_ ?_
    · exact Channel.keptW.gdRefresh (Channel.keptW.ite _ (Channel.keptW.wr h1 GDR_LOCK_LOCK _ rfl).chopFailed
        (Channel.keptW.wr h1 GDR_LOCK_LOCK _ rfl))
    · exact Channel.keptW.ite _ (Channel.keptW.setCause (Channel.keptW.ite _ (Channel.keptW.setCause h1 _ _ _) h1) _ _ _)
        (Channel.keptW.ite _ (Channel.keptW.setCause h1 _ _ _) h1)
  · rw [becomeSevere_plain src hp]
    exact h0

theorem Channel.keptW.stampLast (h : c.keptW w d) (src set : Nat) (a b : Bool) : c.keptW w (d.stampLast src set a b) := by
  have h0 : c.keptW w (d.draw 2).2 := h.trans ⟨fun _ _ _ => rfl, rfl, rfl, rfl, rfl, rfl, fun _ => rfl⟩
  exact ((((h0.wr FCC_LAST_SRC _ rfl).wr FCC_LAST_SET _ rfl).flag FCC_LAST_SEVT _ rfl).flag FCC_LAST_INJ _ rfl).wr
    FCC_LASTT_TB _ rfl

/-- Events change no configuration, so the reaction sets stand. -/
theorem Channel.keptW.cfgWord (h : c.keptW w d) (src : Nat) (hs : src < 64) : d.cfgWord src = c.cfgWord src := by
  have : d.regs.word (FCC_CFG src) = c.regs.word (FCC_CFG src) := by
    refine h.1 _ ?_ ?_
    · simp [eventAddr, FCC_CFG, FCC_LAST, FCC_LASTT, FCC_EPIN, FCC_INJRES, STW_BLKSTAT, MBX_QSTAT]; omega
    · simp [severeAddr, FCC_CFG, GDR_MSTATE, GDR_STAT, GDR_LOCK, GDR_CHOP, FCE_REGEN]; omega
  simp [Channel.cfgWord, h.2.2.1, Channel.rd, RegMap.get, this]

theorem Channel.keptW.react (h : c.keptW w d) (src : Nat) (hs : src < 64) : d.react src = c.react src := by
  simp [Channel.react, h.cfgWord src hs]

theorem Channel.keptW.severeSet (h : c.keptW w d) (src : Nat) (hs : src < 64) : d.severeSet src = c.severeSet src := by
  simp [Channel.severeSet, h.cfgWord src hs]

theorem Channel.keptW.spares (h : c.keptW w d) {src : Nat} (k : c.spares src) : d.spares src := by
  obtain ⟨h0, h1, h2, h3, h4⟩ := k
  exact ⟨h0, by rwa [h.react src h0], by rwa [h.severeSet src h0], by rwa [h.react 63 (by omega)],
    by rwa [h.severeSet 63 (by omega)]⟩

/-- No reaction that is due resets the channel. -/
def Due.spares (l : Due) : Prop := ∀ p ∈ l, p.2.1.testBit 3 = false

/-- The channel once an event is counted and the run advanced, before severity. -/
def Channel.counted (c : Channel) (src : Nat) : Channel :=
  let d := ((c.setSrc FCC_STAT_SRC src true).setSrc FCC_ACT_SRC src true).sat (FCC_CNT_OCC src)
  { d with fcc := { d.fcc with
    runs := kset 0 d.fcc.runs src (kget 0 d.fcc.runs src + 1), since := kset 0 d.fcc.since src (kget 0 d.fcc.since src + 1) } }

/-- The event makes the source severe now, or it was. -/
def Channel.nowSevere (c : Channel) (src : Nat) : Bool :=
  let d := ((c.setSrc FCC_STAT_SRC src true).setSrc FCC_ACT_SRC src true).sat (FCC_CNT_OCC src)
  d.severe src || decide (d.severeN src ≤ kget 0 d.fcc.runs src + 1)

/-- The channel with the severity of an event applied. -/
def Channel.judged (c : Channel) (src : Nat) : Channel :=
  let d := ((c.setSrc FCC_STAT_SRC src true).setSrc FCC_ACT_SRC src true).sat (FCC_CNT_OCC src)
  if (c.nowSevere src && !d.severe src) = true then (c.counted src).becomeSevere src else c.counted src

/-- `countEvent` in parts. -/
theorem Channel.countEvent_eq (c : Channel) (src : Nat) : c.countEvent src =
    (let d := ((c.setSrc FCC_STAT_SRC src true).setSrc FCC_ACT_SRC src true).sat (FCC_CNT_OCC src)
     let set := if c.nowSevere src = true then (c.judged src).severeSet src else (c.judged src).react src
     ((c.judged src).stampLast src set (c.nowSevere src && !d.severe src) false, set,
      if (c.nowSevere src && !d.severe src) = true then 2 else if kget 0 d.fcc.runs src = 0 then 1 else 0)) := rfl

theorem Channel.keptW.counted (h : c.keptW w d) (src : Nat) (hs : src < 64) : c.keptW w (d.counted src) :=
  Channel.keptW.fcc_ (((h.setStat src true hs).setAct src true hs).sat _ (eventAddr_cnt src hs)) _ rfl rfl rfl

theorem Channel.keptW.judged (h : c.keptW w d) (src : Nat) (hs : src < 64)
    (hp : w = true ∨ plainSrc src = true) : c.keptW w (d.judged src) :=
  Channel.keptW.ite _ ((h.counted src hs).becomeSevere src hs hp) (h.counted src hs)

theorem Channel.keptW.countEvent (h : c.keptW w d) (src : Nat) (hs : src < 64)
    (hp : w = true ∨ plainSrc src = true) : c.keptW w (d.countEvent src).1 := by
  rw [Channel.countEvent_eq]
  exact (h.judged src hs hp).stampLast _ _ _ _

theorem Channel.countEvent_set (src : Nat) (hs : src < 64) :
    (c.countEvent src).2.1 = c.react src ∨ (c.countEvent src).2.1 = c.severeSet src := by
  have k := Channel.keptW.judged (w := true) (.refl c) src hs (.inl rfl)
  rw [Channel.countEvent_eq]
  dsimp only
  split
  · exact Or.inr (k.severeSet src hs)
  · exact Or.inl (k.react src hs)

theorem Channel.spares.count {src : Nat} (h : c.spares src) : (c.countEvent src).2.1.testBit 3 = false := by
  rcases c.countEvent_set src h.1 with e | e <;> rw [e]
  · exact h.2.1
  · exact h.2.2.1

theorem Channel.spares.drop {src : Nat} (h : c.spares src) : c.spares 63 :=
  ⟨by omega, h.2.2.2.1, h.2.2.2.2, h.2.2.2.1, h.2.2.2.2⟩

theorem Channel.keptW.logqDrop (h : c.keptW w d) : c.keptW w d.logqDrop.1 := by
  unfold Channel.logqDrop
  exact Channel.keptW.countEvent (Channel.keptW.ite _ (h.wr FCC_INJRES_OTHER 1 rfl) h) 63 (by omega) (.inr (by decide))

theorem Channel.logqDrop_due (h : d.spares 63) : Due.spares d.logqDrop.2 := by
  unfold Channel.logqDrop
  intro p hp
  dsimp only at hp
  rw [List.mem_singleton] at hp
  subst hp
  exact Channel.spares.count (Channel.keptW.spares (w := true) (Channel.keptW.ite _
    ((Channel.keptW.refl d).wr FCC_INJRES_OTHER 1 rfl) (Channel.keptW.refl d)) h)

theorem Channel.keptW.dropMsg (h : c.keptW w d) : c.keptW w d.dropMsg :=
  (h.sat MBX_QSTAT_DROPS rfl).trans ⟨fun _ _ _ => rfl, rfl, rfl, rfl, rfl, rfl, fun _ => rfl⟩

theorem Channel.keptW.pushMsg (h : c.keptW w d) (m : LogMsg) : c.keptW w (d.pushMsg m) :=
  (h.wr MBX_QSTAT_FILL _ rfl).trans ⟨fun _ _ _ => rfl, rfl, rfl, rfl, rfl, rfl, fun _ => rfl⟩

theorem Due.spares_nil : Due.spares [] := by simp [Due.spares]

theorem Due.spares_append {l m : Due} (h : l.spares) (k : m.spares) : Due.spares (l ++ m) := by
  intro p hp
  rcases List.mem_append.1 hp with h' | h'
  · exact h p h'
  · exact k p h'

theorem Due.spares_cons {p : Nat × Nat × Nat} {m : Due} (h : p.2.1.testBit 3 = false) (k : m.spares) : Due.spares (p :: m) := by
  intro q hq
  rcases List.mem_cons.1 hq with rfl | h'
  · exact h
  · exact k q h'

theorem Channel.keptW.queueEvent (h : c.keptW w d) (src code : Nat) (hs : d.spares 63) :
    c.keptW w (d.queueEvent src code).1 ∧ Due.spares (d.queueEvent src code).2 := by
  unfold Channel.queueEvent
  split
  · exact ⟨h, Due.spares_nil⟩
  · split
    · exact ⟨(h.pushMsg _).fcc_ _ rfl rfl rfl, Due.spares_nil⟩
    · exact ⟨h.dropMsg.logqDrop, Channel.logqDrop_due (Channel.keptW.spares (w := true) (Channel.keptW.refl d).dropMsg hs)⟩

theorem Channel.keptW.queueMsg (h : c.keptW w d) (src code data : Nat) (hs : d.spares 63) :
    c.keptW w (d.queueMsg src code data).1 ∧ Due.spares (d.queueMsg src code data).2 := by
  unfold Channel.queueMsg
  split
  · exact ⟨h.pushMsg _, Due.spares_nil⟩
  · exact ⟨h.dropMsg.logqDrop, Channel.logqDrop_due (Channel.keptW.spares (w := true) (Channel.keptW.refl d).dropMsg hs)⟩

theorem testBit3_brst (n : Nat) : (n &&& rBRST).testBit 3 = false := by
  rw [Nat.testBit_and]; simp [rBRST, Nat.testBit]

theorem Channel.keptW.taggedEvent (h : c.keptW w d) (src blk : Nat) (b : Bool) (hs : d.spares 63) :
    c.keptW w (d.taggedEvent src blk b).1 ∧ Due.spares (d.taggedEvent src blk b).2 := by
  unfold Channel.taggedEvent
  have hset : (if b = true then d.react src &&& rBRST else 0).testBit 3 = false := by
    split
    · exact testBit3_brst _
    · rfl
  revert hset
  dsimp only
  generalize (if b = true then d.react src &&& rBRST else 0) = set
  intro hset
  have h0 : c.keptW w ((d.wr FCC_INJRES_SEEN 1).stampLast src set false true) :=
    Channel.keptW.stampLast (h.wr FCC_INJRES_SEEN 1 rfl) _ _ _ _
  have h1 : d.kept ((d.wr FCC_INJRES_SEEN 1).stampLast src set false true) :=
    Channel.keptW.stampLast ((Channel.keptW.refl d).wr FCC_INJRES_SEEN 1 rfl) _ _ _ _
  revert h0 h1
  generalize ((d.wr FCC_INJRES_SEEN 1).stampLast src set false true) = x
  intro h0 h1
  split
  · exact ⟨h0.pushMsg _, Due.spares_cons hset Due.spares_nil⟩
  · exact ⟨h0.dropMsg.logqDrop, Due.spares_cons hset
      (Channel.logqDrop_due (Channel.keptW.spares (h1.dropMsg) hs))⟩

/-- One event keeps the rest, and no reaction of a source that spares the channel is a reset. -/
theorem Channel.keptW.event (h : c.keptW w d) (src blk : Nat) (hs : d.spares src)
    (hp : w = true ∨ plainSrc src = true) :
    c.keptW w (d.event src blk).1 ∧ Due.spares (d.event src blk).2 := by
  have count : ∀ x : Channel, c.keptW w x → d.kept x →
      c.keptW w (((x.countEvent src).1.queueEvent src (x.countEvent src).2.2).1) ∧
        Due.spares ((src, (x.countEvent src).2.1, blk) :: ((x.countEvent src).1.queueEvent src (x.countEvent src).2.2).2) := by
    intro x hx kx
    have sx : x.spares src := kx.spares hs
    have hq := Channel.keptW.queueEvent (hx.countEvent src hs.1 hp) src (x.countEvent src).2.2
      (Channel.keptW.spares (w := true) ((Channel.keptW.refl x).countEvent src hs.1 (.inl rfl)) sx.drop)
    exact ⟨hq.1, Due.spares_cons sx.count hq.2⟩
  unfold Channel.event
  split
  · exact ⟨h, Due.spares_nil⟩
  · split
    · split
      · exact h.taggedEvent src blk _ hs.drop
      · exact count _ (Channel.keptW.ite _ (h.wr FCC_INJRES_OTHER 1 rfl) h)
          (Channel.keptW.ite _ ((Channel.keptW.refl d).wr FCC_INJRES_OTHER 1 rfl) (Channel.keptW.refl d))
    · exact count d h (Channel.keptW.refl d)

theorem Channel.keptW.events (l : List (Nat × Nat)) : ∀ {d : Channel}, c.keptW w d →
    (∀ p ∈ l, d.spares p.1) → (∀ p ∈ l, w = true ∨ plainSrc p.1 = true) →
    c.keptW w (d.events l).1 ∧ Due.spares (d.events l).2 := by
  induction l with
  | nil => intro d h _ _; exact ⟨h, Due.spares_nil⟩
  | cons p r ih =>
    intro d h hs hp
    obtain ⟨src, blk⟩ := p
    have h1 := h.event src blk (hs (src, blk) (by simp)) (hp (src, blk) (by simp))
    have k1 := Channel.keptW.event (w := true) (.refl d) src blk (hs (src, blk) (by simp)) (.inl rfl)
    have h2 := ih h1.1 (fun q hq => k1.1.spares (hs q (by simp [hq]))) (fun q hq => hp q (by simp [hq]))
    exact ⟨h2.1, Due.spares_append h1.2 h2.2⟩

theorem Channel.keptW.nmis (l : Due) : ∀ {d : Channel}, c.keptW w d → c.keptW w (d.nmis l) := by
  induction l with
  | nil => intro d h; exact h
  | cons p r ih =>
    intro d h
    exact ih (Channel.keptW.ite _ (h.fcc_ _ rfl rfl rfl) h)

theorem Channel.keptW.blockReset (h : c.keptW w d) (b : Nat) : c.keptW w (d.blockReset b) := by
  unfold Channel.blockReset
  have k := h.setBit STW_BLKSTAT_BLK b true rfl
  exact Channel.keptW.ite _ h (Channel.keptW.ite _ (k.trans ⟨fun _ _ _ => rfl, rfl, rfl, rfl, rfl, rfl, fun _ => rfl⟩) k)

theorem Channel.keptW.brsts (l : Due) : ∀ {d : Channel}, c.keptW w d → c.keptW w (d.brsts l) := by
  induction l with
  | nil => intro d h; exact h
  | cons p r ih =>
    intro d h
    exact ih (Channel.keptW.ite _ (h.blockReset _) h)

theorem Channel.keptW.epin (h : c.keptW w d) : c.keptW w d.epin := by
  unfold Channel.epin
  exact Channel.keptW.fcc_ (Channel.keptW.ite _ h (h.sat FCC_EPIN_PULSES rfl)) _ rfl rfl rfl

theorem Channel.keptW.errRefresh (h : c.keptW w d) : c.keptW w d.errRefresh := h.flag FCC_EPIN_LEVEL _ rfl

theorem Channel.keptW.reactAll (h : c.keptW w d) (l : Due) (hl : l.spares) : c.keptW w (d.reactAll l) := by
  unfold Channel.reactAll
  have he : l.filter (fun p => p.2.1.testBit 3) = [] := by
    rw [List.filter_eq_nil_iff]
    intro p hp; simp [hl p hp]
  simp only [he, List.any_nil, List.find?_nil, Bool.false_eq_true, if_false]
  refine Channel.keptW.errRefresh (Channel.keptW.brsts l ?_)
  exact Channel.keptW.ite _ (Channel.keptW.epin (h.nmis l)) (h.nmis l)

theorem Channel.keptW.raiseAllW (h : c.keptW w d) (l : List (Nat × Nat)) (hl : ∀ p ∈ l, d.spares p.1)
    (hp : ∀ p ∈ l, w = true ∨ plainSrc p.1 = true) : c.keptW w (d.raiseAll l) := by
  have k := h.events l hl hp
  exact k.1.reactAll _ k.2

/-- Events of sources that spare the channel leave everything but the collector's registers and CP-x as it was. -/
theorem Channel.keptW.raiseAll (h : c.kept d) (l : List (Nat × Nat)) (hl : ∀ p ∈ l, d.spares p.1) : c.kept (d.raiseAll l) :=
  h.raiseAllW l hl fun _ _ => .inl rfl

theorem Channel.keptW.raise (h : c.kept d) (src : Nat) (hs : d.spares src) : c.kept (d.raise src) :=
  h.raiseAll _ (by intro p hp; rw [List.mem_singleton] at hp; subst hp; exact hs)

/-- An event of a plain source that spares the channel leaves CP-x too as it was. -/
theorem Channel.keptW.raisePlain (h : c.keptW w d) (src : Nat) (hs : d.spares src) (hp : plainSrc src = true) :
    c.keptW w (d.raise src) :=
  h.raiseAllW _ (by intro p hp; rw [List.mem_singleton] at hp; subst hp; exact hs)
    (by intro p hq; rw [List.mem_singleton] at hq; subst hq; exact .inr hp)

theorem Channel.keptW.log (h : c.keptW w d) (src code data : Nat) (hs : d.spares 63) : c.keptW w (d.log src code data) := by
  have k := h.queueMsg src code data hs
  exact k.1.reactAll _ k.2

/-- Fields beside the collector's registers are as before. -/
theorem Channel.keptW.get (h : c.keptW w d) (f : Fld) (h1 : eventAddr f.addr = false) (h2 : (w && severeAddr f.addr) = false) :
    d.regs.get f = c.regs.get f := by simp [RegMap.get, h.1 _ h1 h2]

/-- As a frame of registers and memories. -/
theorem Channel.keptW.sameButEvents (h : c.keptW w d) (l : List Nat) : c.sameButEvents l d := by
  refine ⟨fun a _ h1 h2 => h.1 a h1 (by simp [h2]), ?_⟩
  rw [h.2.1]; exact ⟨rfl, rfl, rfl, rfl, rfl, rfl⟩

end Sys2Proof.Machine
end

