-- ==== Sys2Proof/Laws/State.lean ====
section
/-! SUPPORT. One lemma per field per update: what an update of the state leaves alone, true by computation. -/

namespace Sys2Proof.Machine

@[simp] theorem State.chan_A (s : State) : s.chan .A = s.a := rfl
@[simp] theorem State.chan_B (s : State) : s.chan .B = s.b := rfl
@[simp] theorem State.chan_C (s : State) : s.chan .C = s.c := rfl

@[simp] theorem State.chan_setChan (s : State) (ch : Chan) (x : Channel) : (s.setChan ch x).chan ch = x := by cases ch <;> rfl

theorem State.chan_setChan_ne (s : State) {ch o : Chan} (x : Channel) (h : o ≠ ch) : (s.setChan ch x).chan o = s.chan o := by
  cases ch <;> cases o <;> first | rfl | exact absurd rfl h

@[simp] theorem State.mss_setChan (s : State) (ch : Chan) (x : Channel) : (s.setChan ch x).mss = s.mss := by cases ch <;> rfl
@[simp] theorem State.pending_setChan (s : State) (ch : Chan) (x : Channel) : (s.setChan ch x).pending = s.pending := by
  cases ch <;> rfl

@[simp] theorem State.chan_on (s : State) (ch : Chan) (f : Channel → Channel) : (s.on ch f).chan ch = f (s.chan ch) := by
  cases ch <;> rfl

theorem State.chan_on_ne (s : State) {ch o : Chan} (f : Channel → Channel) (h : o ≠ ch) : (s.on ch f).chan o = s.chan o :=
  State.chan_setChan_ne s _ h

@[simp] theorem State.mss_on (s : State) (ch : Chan) (f : Channel → Channel) : (s.on ch f).mss = s.mss := by cases ch <;> rfl
@[simp] theorem State.pending_on (s : State) (ch : Chan) (f : Channel → Channel) : (s.on ch f).pending = s.pending := by
  cases ch <;> rfl

theorem State.chan_onLive (s : State) (ch : Chan) (f : Channel → Channel) (h : (s.chan ch).live = true) :
    (s.onLive ch f).chan ch = f (s.chan ch) := by simp [State.onLive, h]

theorem State.chan_onPower (s : State) (ch : Chan) (f : Channel → Channel) (h : (s.chan ch).pwr.off = false) :
    (s.onPower ch f).chan ch = f (s.chan ch) := by simp [State.onPower, h]

@[simp] theorem State.mss_onMss (s : State) (f : Mss → Mss) : (s.onMss f).mss = f s.mss := rfl
@[simp] theorem State.chan_onMss (s : State) (f : Mss → Mss) (ch : Chan) : (s.onMss f).chan ch = s.chan ch := by cases ch <;> rfl
@[simp] theorem State.pending_onMss (s : State) (f : Mss → Mss) : (s.onMss f).pending = s.pending := rfl

@[simp] theorem Channel.wr_me (c : Channel) (x : Fld) (v : Nat) : (c.wr x v).me = c.me := rfl
@[simp] theorem Channel.wr_sram (c : Channel) (x : Fld) (v : Nat) : (c.wr x v).sram = c.sram := rfl
@[simp] theorem Channel.wr_itcm (c : Channel) (x : Fld) (v : Nat) : (c.wr x v).itcm = c.itcm := rfl
@[simp] theorem Channel.wr_dtcm (c : Channel) (x : Fld) (v : Nat) : (c.wr x v).dtcm = c.dtcm := rfl
@[simp] theorem Channel.wr_fce0 (c : Channel) (x : Fld) (v : Nat) : (c.wr x v).fce0 = c.fce0 := rfl
@[simp] theorem Channel.wr_fce1 (c : Channel) (x : Fld) (v : Nat) : (c.wr x v).fce1 = c.fce1 := rfl
@[simp] theorem Channel.wr_nete (c : Channel) (x : Fld) (v : Nat) : (c.wr x v).nete = c.nete := rfl
@[simp] theorem Channel.wr_tb (c : Channel) (x : Fld) (v : Nat) : (c.wr x v).tb = c.tb := rfl
@[simp] theorem Channel.wr_bus (c : Channel) (x : Fld) (v : Nat) : (c.wr x v).bus = c.bus := rfl
@[simp] theorem Channel.wr_resetting (c : Channel) (x : Fld) (v : Nat) : (c.wr x v).resetting = c.resetting := rfl
@[simp] theorem Channel.wr_failSilent (c : Channel) (x : Fld) (v : Nat) : (c.wr x v).failSilent = c.failSilent := rfl
@[simp] theorem Channel.wr_mlink (c : Channel) (x : Fld) (v : Nat) : (c.wr x v).mlink = c.mlink := rfl
@[simp] theorem Channel.wr_logq (c : Channel) (x : Fld) (v : Nat) : (c.wr x v).logq = c.logq := rfl
@[simp] theorem Channel.wr_dcnt (c : Channel) (x : Fld) (v : Nat) : (c.wr x v).dcnt = c.dcnt := rfl
@[simp] theorem Channel.wr_fcc (c : Channel) (x : Fld) (v : Nat) : (c.wr x v).fcc = c.fcc := rfl
@[simp] theorem Channel.wr_cmp (c : Channel) (x : Fld) (v : Nat) : (c.wr x v).cmp = c.cmp := rfl
@[simp] theorem Channel.wr_pow (c : Channel) (x : Fld) (v : Nat) : (c.wr x v).pow = c.pow := rfl
@[simp] theorem Channel.wr_pwr (c : Channel) (x : Fld) (v : Nat) : (c.wr x v).pwr = c.pwr := rfl
@[simp] theorem Channel.wr_ntc (c : Channel) (x : Fld) (v : Nat) : (c.wr x v).ntc = c.ntc := rfl
@[simp] theorem Channel.wr_tte (c : Channel) (x : Fld) (v : Nat) : (c.wr x v).tte = c.tte := rfl
@[simp] theorem Channel.wr_can (c : Channel) (x : Fld) (v : Nat) : (c.wr x v).can = c.can := rfl
@[simp] theorem Channel.wr_f0 (c : Channel) (x : Fld) (v : Nat) : (c.wr x v).f0 = c.f0 := rfl
@[simp] theorem Channel.wr_f1 (c : Channel) (x : Fld) (v : Nat) : (c.wr x v).f1 = c.f1 := rfl
@[simp] theorem Channel.wr_xlk (c : Channel) (x : Fld) (v : Nat) : (c.wr x v).xlk = c.xlk := rfl
@[simp] theorem Channel.wr_enc (c : Channel) (x : Fld) (v : Nat) : (c.wr x v).enc = c.enc := rfl
@[simp] theorem Channel.wr_sin (c : Channel) (x : Fld) (v : Nat) : (c.wr x v).sin = c.sin := rfl
@[simp] theorem Channel.wr_fol (c : Channel) (x : Fld) (v : Nat) : (c.wr x v).fol = c.fol := rfl
@[simp] theorem Channel.wr_hrd (c : Channel) (x : Fld) (v : Nat) : (c.wr x v).hrd = c.hrd := rfl
@[simp] theorem Channel.wr_dbg (c : Channel) (x : Fld) (v : Nat) : (c.wr x v).dbg = c.dbg := rfl
@[simp] theorem Channel.wr_otp (c : Channel) (x : Fld) (v : Nat) : (c.wr x v).otp = c.otp := rfl
@[simp] theorem Channel.wr_mssVote (c : Channel) (x : Fld) (v : Nat) : (c.wr x v).mssVote = c.mssVote := rfl
@[simp] theorem Channel.wr_hbLost (c : Channel) (x : Fld) (v : Nat) : (c.wr x v).hbLost = c.hbLost := rfl
@[simp] theorem Channel.wr_voting (c : Channel) (x : Fld) (v : Nat) : (c.wr x v).voting = c.voting := rfl
@[simp] theorem Channel.wr_voted (c : Channel) (x : Fld) (v : Nat) : (c.wr x v).voted = c.voted := rfl
@[simp] theorem Channel.wr_free (c : Channel) (x : Fld) (v : Nat) : (c.wr x v).free = c.free := rfl

@[simp] theorem Channel.wrWord_me (c : Channel) (a : Nat) (v : Word) : (c.wrWord a v).me = c.me := rfl
@[simp] theorem Channel.wrWord_sram (c : Channel) (a : Nat) (v : Word) : (c.wrWord a v).sram = c.sram := rfl
@[simp] theorem Channel.wrWord_itcm (c : Channel) (a : Nat) (v : Word) : (c.wrWord a v).itcm = c.itcm := rfl
@[simp] theorem Channel.wrWord_dtcm (c : Channel) (a : Nat) (v : Word) : (c.wrWord a v).dtcm = c.dtcm := rfl
@[simp] theorem Channel.wrWord_fce0 (c : Channel) (a : Nat) (v : Word) : (c.wrWord a v).fce0 = c.fce0 := rfl
@[simp] theorem Channel.wrWord_fce1 (c : Channel) (a : Nat) (v : Word) : (c.wrWord a v).fce1 = c.fce1 := rfl
@[simp] theorem Channel.wrWord_nete (c : Channel) (a : Nat) (v : Word) : (c.wrWord a v).nete = c.nete := rfl
@[simp] theorem Channel.wrWord_tb (c : Channel) (a : Nat) (v : Word) : (c.wrWord a v).tb = c.tb := rfl
@[simp] theorem Channel.wrWord_bus (c : Channel) (a : Nat) (v : Word) : (c.wrWord a v).bus = c.bus := rfl
@[simp] theorem Channel.wrWord_resetting (c : Channel) (a : Nat) (v : Word) : (c.wrWord a v).resetting = c.resetting := rfl
@[simp] theorem Channel.wrWord_failSilent (c : Channel) (a : Nat) (v : Word) : (c.wrWord a v).failSilent = c.failSilent := rfl
@[simp] theorem Channel.wrWord_mlink (c : Channel) (a : Nat) (v : Word) : (c.wrWord a v).mlink = c.mlink := rfl
@[simp] theorem Channel.wrWord_logq (c : Channel) (a : Nat) (v : Word) : (c.wrWord a v).logq = c.logq := rfl
@[simp] theorem Channel.wrWord_dcnt (c : Channel) (a : Nat) (v : Word) : (c.wrWord a v).dcnt = c.dcnt := rfl
@[simp] theorem Channel.wrWord_fcc (c : Channel) (a : Nat) (v : Word) : (c.wrWord a v).fcc = c.fcc := rfl
@[simp] theorem Channel.wrWord_cmp (c : Channel) (a : Nat) (v : Word) : (c.wrWord a v).cmp = c.cmp := rfl
@[simp] theorem Channel.wrWord_pow (c : Channel) (a : Nat) (v : Word) : (c.wrWord a v).pow = c.pow := rfl
@[simp] theorem Channel.wrWord_pwr (c : Channel) (a : Nat) (v : Word) : (c.wrWord a v).pwr = c.pwr := rfl
@[simp] theorem Channel.wrWord_ntc (c : Channel) (a : Nat) (v : Word) : (c.wrWord a v).ntc = c.ntc := rfl
@[simp] theorem Channel.wrWord_tte (c : Channel) (a : Nat) (v : Word) : (c.wrWord a v).tte = c.tte := rfl
@[simp] theorem Channel.wrWord_can (c : Channel) (a : Nat) (v : Word) : (c.wrWord a v).can = c.can := rfl
@[simp] theorem Channel.wrWord_f0 (c : Channel) (a : Nat) (v : Word) : (c.wrWord a v).f0 = c.f0 := rfl
@[simp] theorem Channel.wrWord_f1 (c : Channel) (a : Nat) (v : Word) : (c.wrWord a v).f1 = c.f1 := rfl
@[simp] theorem Channel.wrWord_xlk (c : Channel) (a : Nat) (v : Word) : (c.wrWord a v).xlk = c.xlk := rfl
@[simp] theorem Channel.wrWord_enc (c : Channel) (a : Nat) (v : Word) : (c.wrWord a v).enc = c.enc := rfl
@[simp] theorem Channel.wrWord_sin (c : Channel) (a : Nat) (v : Word) : (c.wrWord a v).sin = c.sin := rfl
@[simp] theorem Channel.wrWord_fol (c : Channel) (a : Nat) (v : Word) : (c.wrWord a v).fol = c.fol := rfl
@[simp] theorem Channel.wrWord_hrd (c : Channel) (a : Nat) (v : Word) : (c.wrWord a v).hrd = c.hrd := rfl
@[simp] theorem Channel.wrWord_dbg (c : Channel) (a : Nat) (v : Word) : (c.wrWord a v).dbg = c.dbg := rfl
@[simp] theorem Channel.wrWord_otp (c : Channel) (a : Nat) (v : Word) : (c.wrWord a v).otp = c.otp := rfl
@[simp] theorem Channel.wrWord_mssVote (c : Channel) (a : Nat) (v : Word) : (c.wrWord a v).mssVote = c.mssVote := rfl
@[simp] theorem Channel.wrWord_hbLost (c : Channel) (a : Nat) (v : Word) : (c.wrWord a v).hbLost = c.hbLost := rfl
@[simp] theorem Channel.wrWord_voting (c : Channel) (a : Nat) (v : Word) : (c.wrWord a v).voting = c.voting := rfl
@[simp] theorem Channel.wrWord_voted (c : Channel) (a : Nat) (v : Word) : (c.wrWord a v).voted = c.voted := rfl
@[simp] theorem Channel.wrWord_free (c : Channel) (a : Nat) (v : Word) : (c.wrWord a v).free = c.free := rfl

@[simp] theorem Mss.wr_bus (m : Mss) (x : Fld) (v : Nat) : (m.wr x v).bus = m.bus := rfl
@[simp] theorem Mss.wr_sram (m : Mss) (x : Fld) (v : Nat) : (m.wr x v).sram = m.sram := rfl
@[simp] theorem Mss.wr_shadow (m : Mss) (x : Fld) (v : Nat) : (m.wr x v).shadow = m.shadow := rfl
@[simp] theorem Mss.wr_free (m : Mss) (x : Fld) (v : Nat) : (m.wr x v).free = m.free := rfl
@[simp] theorem Mss.wr_rung (m : Mss) (x : Fld) (v : Nat) : (m.wr x v).rung = m.rung := rfl
@[simp] theorem Mss.wr_on (m : Mss) (x : Fld) (v : Nat) : (m.wr x v).on = m.on := rfl
@[simp] theorem Mss.wr_ready (m : Mss) (x : Fld) (v : Nat) : (m.wr x v).ready = m.ready := rfl
@[simp] theorem Mss.wr_mp (m : Mss) (x : Fld) (v : Nat) : (m.wr x v).mp = m.mp := rfl
@[simp] theorem Mss.wr_held (m : Mss) (x : Fld) (v : Nat) : (m.wr x v).held = m.held := rfl
@[simp] theorem Mss.wr_restart (m : Mss) (x : Fld) (v : Nat) : (m.wr x v).restart = m.restart := rfl
@[simp] theorem Mss.wr_herdMode (m : Mss) (x : Fld) (v : Nat) : (m.wr x v).herdMode = m.herdMode := rfl
@[simp] theorem Mss.wr_portA (m : Mss) (x : Fld) (v : Nat) : (m.wr x v).portA = m.portA := rfl
@[simp] theorem Mss.wr_portB (m : Mss) (x : Fld) (v : Nat) : (m.wr x v).portB = m.portB := rfl
@[simp] theorem Mss.wr_portC (m : Mss) (x : Fld) (v : Nat) : (m.wr x v).portC = m.portC := rfl
@[simp] theorem Mss.wr_log (m : Mss) (x : Fld) (v : Nat) : (m.wr x v).log = m.log := rfl
@[simp] theorem Mss.wr_sup (m : Mss) (x : Fld) (v : Nat) : (m.wr x v).sup = m.sup := rfl
@[simp] theorem Mss.wr_key (m : Mss) (x : Fld) (v : Nat) : (m.wr x v).key = m.key := rfl
@[simp] theorem Mss.wr_upd (m : Mss) (x : Fld) (v : Nat) : (m.wr x v).upd = m.upd := rfl
@[simp] theorem Mss.wr_dbg (m : Mss) (x : Fld) (v : Nat) : (m.wr x v).dbg = m.dbg := rfl
@[simp] theorem Mss.wr_slotA (m : Mss) (x : Fld) (v : Nat) : (m.wr x v).slotA = m.slotA := rfl
@[simp] theorem Mss.wr_slotB (m : Mss) (x : Fld) (v : Nat) : (m.wr x v).slotB = m.slotB := rfl
@[simp] theorem Mss.wr_active (m : Mss) (x : Fld) (v : Nat) : (m.wr x v).active = m.active := rfl
@[simp] theorem Mss.wr_proofMinutes (m : Mss) (x : Fld) (v : Nat) : (m.wr x v).proofMinutes = m.proofMinutes := rfl
@[simp] theorem Mss.wr_proofAt (m : Mss) (x : Fld) (v : Nat) : (m.wr x v).proofAt = m.proofAt := rfl

@[simp] theorem Mss.onSup_regs (m : Mss) (g : Sup → Sup) : (m.onSup g).regs = m.regs := rfl
@[simp] theorem Mss.onSup_bus (m : Mss) (g : Sup → Sup) : (m.onSup g).bus = m.bus := rfl
@[simp] theorem Mss.onSup_sram (m : Mss) (g : Sup → Sup) : (m.onSup g).sram = m.sram := rfl
@[simp] theorem Mss.onSup_shadow (m : Mss) (g : Sup → Sup) : (m.onSup g).shadow = m.shadow := rfl
@[simp] theorem Mss.onSup_free (m : Mss) (g : Sup → Sup) : (m.onSup g).free = m.free := rfl
@[simp] theorem Mss.onSup_rung (m : Mss) (g : Sup → Sup) : (m.onSup g).rung = m.rung := rfl
@[simp] theorem Mss.onSup_on (m : Mss) (g : Sup → Sup) : (m.onSup g).on = m.on := rfl
@[simp] theorem Mss.onSup_ready (m : Mss) (g : Sup → Sup) : (m.onSup g).ready = m.ready := rfl
@[simp] theorem Mss.onSup_mp (m : Mss) (g : Sup → Sup) : (m.onSup g).mp = m.mp := rfl
@[simp] theorem Mss.onSup_held (m : Mss) (g : Sup → Sup) : (m.onSup g).held = m.held := rfl
@[simp] theorem Mss.onSup_restart (m : Mss) (g : Sup → Sup) : (m.onSup g).restart = m.restart := rfl
@[simp] theorem Mss.onSup_herdMode (m : Mss) (g : Sup → Sup) : (m.onSup g).herdMode = m.herdMode := rfl
@[simp] theorem Mss.onSup_portA (m : Mss) (g : Sup → Sup) : (m.onSup g).portA = m.portA := rfl
@[simp] theorem Mss.onSup_portB (m : Mss) (g : Sup → Sup) : (m.onSup g).portB = m.portB := rfl
@[simp] theorem Mss.onSup_portC (m : Mss) (g : Sup → Sup) : (m.onSup g).portC = m.portC := rfl
@[simp] theorem Mss.onSup_log (m : Mss) (g : Sup → Sup) : (m.onSup g).log = m.log := rfl
@[simp] theorem Mss.onSup_key (m : Mss) (g : Sup → Sup) : (m.onSup g).key = m.key := rfl
@[simp] theorem Mss.onSup_upd (m : Mss) (g : Sup → Sup) : (m.onSup g).upd = m.upd := rfl
@[simp] theorem Mss.onSup_dbg (m : Mss) (g : Sup → Sup) : (m.onSup g).dbg = m.dbg := rfl
@[simp] theorem Mss.onSup_slotA (m : Mss) (g : Sup → Sup) : (m.onSup g).slotA = m.slotA := rfl
@[simp] theorem Mss.onSup_slotB (m : Mss) (g : Sup → Sup) : (m.onSup g).slotB = m.slotB := rfl
@[simp] theorem Mss.onSup_active (m : Mss) (g : Sup → Sup) : (m.onSup g).active = m.active := rfl
@[simp] theorem Mss.onSup_proofMinutes (m : Mss) (g : Sup → Sup) : (m.onSup g).proofMinutes = m.proofMinutes := rfl
@[simp] theorem Mss.onSup_proofAt (m : Mss) (g : Sup → Sup) : (m.onSup g).proofAt = m.proofAt := rfl
@[simp] theorem Mss.onLog_regs (m : Mss) (g : Log → Log) : (m.onLog g).regs = m.regs := rfl
@[simp] theorem Mss.onLog_bus (m : Mss) (g : Log → Log) : (m.onLog g).bus = m.bus := rfl
@[simp] theorem Mss.onLog_sram (m : Mss) (g : Log → Log) : (m.onLog g).sram = m.sram := rfl
@[simp] theorem Mss.onLog_shadow (m : Mss) (g : Log → Log) : (m.onLog g).shadow = m.shadow := rfl
@[simp] theorem Mss.onLog_free (m : Mss) (g : Log → Log) : (m.onLog g).free = m.free := rfl
@[simp] theorem Mss.onLog_rung (m : Mss) (g : Log → Log) : (m.onLog g).rung = m.rung := rfl
@[simp] theorem Mss.onLog_on (m : Mss) (g : Log → Log) : (m.onLog g).on = m.on := rfl
@[simp] theorem Mss.onLog_ready (m : Mss) (g : Log → Log) : (m.onLog g).ready = m.ready := rfl
@[simp] theorem Mss.onLog_mp (m : Mss) (g : Log → Log) : (m.onLog g).mp = m.mp := rfl
@[simp] theorem Mss.onLog_held (m : Mss) (g : Log → Log) : (m.onLog g).held = m.held := rfl
@[simp] theorem Mss.onLog_restart (m : Mss) (g : Log → Log) : (m.onLog g).restart = m.restart := rfl
@[simp] theorem Mss.onLog_herdMode (m : Mss) (g : Log → Log) : (m.onLog g).herdMode = m.herdMode := rfl
@[simp] theorem Mss.onLog_portA (m : Mss) (g : Log → Log) : (m.onLog g).portA = m.portA := rfl
@[simp] theorem Mss.onLog_portB (m : Mss) (g : Log → Log) : (m.onLog g).portB = m.portB := rfl
@[simp] theorem Mss.onLog_portC (m : Mss) (g : Log → Log) : (m.onLog g).portC = m.portC := rfl
@[simp] theorem Mss.onLog_sup (m : Mss) (g : Log → Log) : (m.onLog g).sup = m.sup := rfl
@[simp] theorem Mss.onLog_key (m : Mss) (g : Log → Log) : (m.onLog g).key = m.key := rfl
@[simp] theorem Mss.onLog_upd (m : Mss) (g : Log → Log) : (m.onLog g).upd = m.upd := rfl
@[simp] theorem Mss.onLog_dbg (m : Mss) (g : Log → Log) : (m.onLog g).dbg = m.dbg := rfl
@[simp] theorem Mss.onLog_slotA (m : Mss) (g : Log → Log) : (m.onLog g).slotA = m.slotA := rfl
@[simp] theorem Mss.onLog_slotB (m : Mss) (g : Log → Log) : (m.onLog g).slotB = m.slotB := rfl
@[simp] theorem Mss.onLog_active (m : Mss) (g : Log → Log) : (m.onLog g).active = m.active := rfl
@[simp] theorem Mss.onLog_proofMinutes (m : Mss) (g : Log → Log) : (m.onLog g).proofMinutes = m.proofMinutes := rfl
@[simp] theorem Mss.onLog_proofAt (m : Mss) (g : Log → Log) : (m.onLog g).proofAt = m.proofAt := rfl

/-- A field reads the value written to it, cut to its width. -/
theorem Channel.rd_wr (c : Channel) (f : Fld) (v : Nat) (h : f.fits) : (c.wr f v).rd f = v % 2 ^ f.width :=
  RegMap.get_put_self c.regs f v h

/-- A write of one field leaves a field that shares no bit with it alone. -/
theorem Channel.rd_wr_apart (c : Channel) (f g : Fld) (v : Nat) (h : f.apart g) (hg : g.fits) : (c.wr g v).rd f = c.rd f :=
  RegMap.get_put_apart c.regs f g v h hg

theorem Mss.rd_wr (m : Mss) (f : Fld) (v : Nat) (h : f.fits) : (m.wr f v).rd f = v % 2 ^ f.width :=
  RegMap.get_put_self m.regs f v h

theorem Mss.rd_wr_apart (m : Mss) (f g : Fld) (v : Nat) (h : f.apart g) (hg : g.fits) : (m.wr g v).rd f = m.rd f :=
  RegMap.get_put_apart m.regs f g v h hg

end Sys2Proof.Machine
end

