-- ==== Sys2Proof/Laws/Counted.lean ====
section
/-! SUPPORT. An event that is counted stays counted: status bits, occurrence counters and runs after `raise`. -/

namespace Sys2Proof.Machine

/-- Bits of a number below its width: setting bit `b`. -/
theorem testBit_or_pow (n b k : Nat) : (n ||| 2 ^ b).testBit k = (n.testBit k || decide (b = k)) := by
  rw [Nat.testBit_or, Nat.testBit_two_pow]

theorem testBit_and_clear (n w b k : Nat) (hn : n < 2 ^ w) (hb : b < w) :
    (n &&& (2 ^ w - 1 - 2 ^ b)).testBit k = (n.testBit k && !decide (b = k)) := by
  rw [Nat.testBit_and]
  by_cases hk : k < w
  · have : (2 ^ w - 1 - 2 ^ b).testBit k = !decide (b = k) := by
      have h2 : 2 ^ b < 2 ^ w := Nat.pow_lt_pow_right (by omega) hb
      have e : 2 ^ w - 1 - 2 ^ b = 2 ^ w - (2 ^ b + 1) := by omega
      rw [e, Nat.testBit_two_pow_sub_succ h2, Nat.testBit_two_pow]
      simp [hk]
    rw [this]
  · have : n.testBit k = false := by
      apply Nat.testBit_lt_two_pow
      exact lt_of_lt_of_le hn (Nat.pow_le_pow_right (by omega) (by omega))
    simp [this]

theorem Channel.rd_lt (c : Channel) (f : Fld) : c.rd f < 2 ^ f.width := RegMap.get_lt c.regs f

/-- A bit of a field after one of its bits is written. -/
theorem Channel.bit_setBit (c : Channel) (f : Fld) (b k : Nat) (v : Bool) (hf : f.fitsB = true) (hb : b < f.width) :
    (c.setBit f b v).bit f k = if b = k then v else c.bit f k := by
  have hlt : c.regs.get f < 2 ^ f.width := c.rd_lt f
  have h2 : 2 ^ b < 2 ^ f.width := Nat.pow_lt_pow_right (by omega) hb
  unfold Channel.bit Channel.setBit
  simp only [Channel.rd, Channel.wr]
  rw [RegMap.get_put _ _ _ hf]
  cases v
  · have h3 : c.regs.get f &&& (2 ^ f.width - 1 - 2 ^ b) < 2 ^ f.width := lt_of_le_of_lt Nat.and_le_left hlt
    simp only [Bool.false_eq_true, if_false]
    rw [Nat.mod_eq_of_lt h3, testBit_and_clear _ _ _ _ hlt hb]
    by_cases e : b = k <;> simp [e]
  · have h3 : c.regs.get f ||| 2 ^ b < 2 ^ f.width := Nat.or_lt_two_pow hlt h2
    simp only [if_true]
    rw [Nat.mod_eq_of_lt h3, testBit_or_pow]
    by_cases e : b = k <;> simp [e]

/-- A bit of a field that shares no bit with the field written. -/
theorem Channel.bit_wr_off (c : Channel) (f g : Fld) (v k : Nat) (h : (f.apartB g && g.fitsB) = true) :
    (c.wr g v).bit f k = c.bit f k := by
  simp only [Channel.bit, Channel.rd, Channel.wr]
  rw [RegMap.get_put_off _ _ _ _ h]

/-- Addresses of the status, activity and counter registers (R427). -/
def countAddr (a : Nat) : Bool := (0x40010000 ≤ a && a < 0x40010010) || (0x40010100 ≤ a && a < 0x40010200)

/-- `d` is `c` with perhaps more counted: no status or activity bit falls, no source but LOGQ_DROP counts. -/
def Channel.later (c d : Channel) : Prop :=
  (∀ k < 2, ∀ b, c.bit (FCC_STAT_SRC k) b = true → d.bit (FCC_STAT_SRC k) b = true) ∧
  (∀ k < 2, ∀ b, c.bit (FCC_ACT_SRC k) b = true → d.bit (FCC_ACT_SRC k) b = true) ∧
  (∀ n < 63, d.regs.word (FCC_CNT n) = c.regs.word (FCC_CNT n)) ∧
  (∀ n < 63, kget 0 d.fcc.runs n = kget 0 c.fcc.runs n) ∧
  (d.fcc.tag = c.fcc.tag ∧ d.fcc.fccInj = c.fcc.fccInj ∧ d.fcc.released = c.fcc.released)

theorem Channel.later.refl (c : Channel) : c.later c :=
  ⟨fun _ _ _ h => h, fun _ _ _ h => h, fun _ _ => rfl, fun _ _ => rfl, rfl, rfl, rfl⟩

theorem Channel.later.trans {c d e : Channel} (h : c.later d) (k : d.later e) : c.later e :=
  ⟨fun i hi b hb => k.1 i hi b (h.1 i hi b hb), fun i hi b hb => k.2.1 i hi b (h.2.1 i hi b hb),
    fun n hn => (k.2.2.1 n hn).trans (h.2.2.1 n hn), fun n hn => (k.2.2.2.1 n hn).trans (h.2.2.2.1 n hn),
    k.2.2.2.2.1.trans h.2.2.2.2.1, k.2.2.2.2.2.1.trans h.2.2.2.2.2.1, k.2.2.2.2.2.2.trans h.2.2.2.2.2.2⟩

variable {c d e : Channel}

theorem Channel.later.wr (h : c.later d) (f : Fld) (v : Nat) (hf : countAddr f.addr = false) : c.later (d.wr f v) := by
  refine h.trans ⟨fun k hk b hb => ?_, fun k hk b hb => ?_, fun n hn => ?_, fun _ _ => rfl, rfl, rfl, rfl⟩
  · have : (d.regs.put f v).get (FCC_STAT_SRC k) = d.regs.get (FCC_STAT_SRC k) := by
      refine RegMap.get_put_ne _ _ ?_
      intro e; rw [← e] at hf; simp [countAddr, FCC_STAT] at hf; omega
    simpa [Channel.bit, Channel.rd, Channel.wr, this] using hb
  · have : (d.regs.put f v).get (FCC_ACT_SRC k) = d.regs.get (FCC_ACT_SRC k) := by
      refine RegMap.get_put_ne _ _ ?_
      intro e; rw [← e] at hf; simp [countAddr, FCC_ACT] at hf; omega
    simpa [Channel.bit, Channel.rd, Channel.wr, this] using hb
  · refine RegMap.word_put_ne _ _ _ ?_
    rintro e
    rw [← e] at hf
    simp [countAddr, FCC_CNT] at hf
    omega

theorem Channel.later.setBit (h : c.later d) (f : Fld) (b : Nat) (v : Bool) (hf : countAddr f.addr = false) :
    c.later (d.setBit f b v) := h.wr f _ hf

theorem Channel.later.sat (h : c.later d) (f : Fld) (hf : countAddr f.addr = false) : c.later (d.sat f) := h.wr f _ hf

theorem Channel.later.flag (h : c.later d) (f : Fld) (b : Bool) (hf : countAddr f.addr = false) : c.later (d.flag f b) :=
  h.wr f _ hf

theorem Channel.later.fcc_ (h : c.later d) (x : Fcc) (h1 : ∀ n < 63, kget 0 x.runs n = kget 0 d.fcc.runs n)
    (h2 : x.tag = d.fcc.tag) (h3 : x.fccInj = d.fcc.fccInj) (h4 : x.released = d.fcc.released) :
    c.later { d with fcc := x } :=
  h.trans ⟨fun _ _ _ h => h, fun _ _ _ h => h, fun _ _ => rfl, h1, h2, h3, h4⟩

theorem Channel.later.pow_ (h : c.later d) (x : Pow) : c.later { d with pow := x } :=
  h.trans ⟨fun _ _ _ h => h, fun _ _ _ h => h, fun _ _ => rfl, fun _ _ => rfl, rfl, rfl, rfl⟩

theorem Channel.later.ite (p : Prop) [Decidable p] (h : c.later d) (k : c.later e) : c.later (if p then d else e) := by
  split <;> assumption

theorem Channel.later.settle (h : c.later d) (b : Bridge) : c.later (d.settle b) := by
  unfold Channel.settle
  refine Channel.later.wr (Channel.later.ite _ ?_ h) _ _ (by cases b <;> rfl)
  cases b <;> exact h.pow_ _

theorem Channel.later.holdOv (h : c.later d) (b : Bridge) : c.later (d.holdOv b) := by
  cases b <;> exact h.pow_ _

theorem Channel.later.setCause (h : c.later d) (b : Bridge) (n : Nat) (v : Bool) : c.later (d.setCause b n v) := by
  unfold Channel.setCause
  refine Channel.later.settle (Channel.later.holdOv (Channel.later.setBit (Channel.later.ite _ ?_ h) _ _ _ (by cases b <;> rfl)) b) b
  cases b <;> exact h.pow_ _

theorem Channel.later.setCauses (h : c.later d) (n : Nat) (v : Bool) : c.later (d.setCauses n v) :=
  (h.setCause .S n v).setCause .P n v

theorem Channel.later.gdRefresh (h : c.later d) : c.later d.gdRefresh :=
  (((h.flag _ _ rfl).flag _ _ rfl).setCause .S 0 _).setCause .P 0 _

theorem Channel.later.chopFailed (h : c.later d) : c.later d.chopFailed :=
  ((((h.wr GDR_CHOP_FAILED 1 rfl).wr (FCE_REGEN_ZERO 0) 1 rfl).wr (FCE_REGEN_ZERO 1) 1 rfl).wr (FCE_REGEN_REGEN 0) 0 rfl).wr
    (FCE_REGEN_REGEN 1) 0 rfl

theorem Channel.later.setSev (k : c.later d) (src : Nat) (v : Bool) (h : src < 64) : c.later (d.setSrc FCC_SEV_SRC src v) := by
  have : src / 32 < 2 := by omega
  exact k.setBit _ _ _ (by simp [countAddr, FCC_SEV]; omega)

theorem Channel.later.becomeSevere (h : c.later d) (src : Nat) (hs : src < 64) : c.later (d.becomeSevere src) := by
  unfold Channel.becomeSevere
  have h0 : c.later { d.setSrc FCC_SEV_SRC src true with fcc := { d.fcc with newSev := true } } :=
    (h.setSev src true hs).fcc_ _ (fun _ _ => rfl) rfl rfl rfl
  revert h0
  generalize ({ d.setSrc FCC_SEV_SRC src true with fcc := { d.fcc with newSev := true } } : Channel) = x
  intro h0
  have h1 : c.later (if (removes src).channel = true then { x with fcc := { x.fcc with leave := true } } else x) :=
    Channel.later.ite _ (h0.fcc_ _ (fun _ _ => rfl) rfl rfl rfl) h0
  revert h1
  dsimp only
  generalize (if (removes src).channel = true then { x with fcc := { x.fcc with leave := true } } else x) = y
  intro h1
  refine Channel.later.ite _ ?_ ?_
  · exact Channel.later.gdRefresh (Channel.later.ite _ (h1.wr GDR_LOCK_LOCK _ rfl).chopFailed (h1.wr GDR_LOCK_LOCK _ rfl))
  · exact Channel.later.ite _ (Channel.later.setCause (Channel.later.ite _ (h1.setCause _ _ _) h1) _ _ _)
      (Channel.later.ite _ (h1.setCause _ _ _) h1)

theorem Channel.later.stampLast (h : c.later d) (src set : Nat) (a b : Bool) : c.later (d.stampLast src set a b) := by
  have h0 : c.later (d.draw 2).2 :=
    h.trans ⟨fun _ _ _ h => h, fun _ _ _ h => h, fun _ _ => rfl, fun _ _ => rfl, rfl, rfl, rfl⟩
  exact ((((h0.wr FCC_LAST_SRC _ rfl).wr FCC_LAST_SET _ rfl).flag FCC_LAST_SEVT _ rfl).flag FCC_LAST_INJ _ rfl).wr
    FCC_LASTT_TB _ rfl

theorem Channel.rd_setSrc_other (c : Channel) (f g : Nat → Fld) (a b src : Nat) (v : Bool)
    (hg : ∀ n, g n = ⟨a + 4 * n, 0, 32⟩) (hf : ∀ n, f n = ⟨b + 4 * n, 0, 32⟩) (hab : a + 8 ≤ b ∨ b + 8 ≤ a)
    (hs : src < 64) (k : Nat) (hk : k < 2) : (c.setSrc g src v).rd (f k) = c.rd (f k) := by
  have : src / 32 < 2 := by omega
  refine RegMap.get_put_ne _ _ ?_
  rw [hf, hg]
  simp only [ne_eq]
  omega

/-- The status bit of a counted source. -/
theorem Channel.srcBit_setSrc (c : Channel) (f : Nat → Fld) (a src : Nat) (v : Bool) (hf : ∀ n, f n = ⟨a + 4 * n, 0, 32⟩)
    (n : Nat) : (c.setSrc f src v).srcBit f n = if src = n then v else c.srcBit f n := by
  unfold Channel.srcBit Channel.setSrc
  by_cases e : src / 32 = n / 32
  · rw [← e, Channel.bit_setBit c _ _ _ _ (by rw [hf]; rfl) (by rw [hf]; simp only; omega)]
    by_cases e2 : src = n
    · subst e2; simp
    · have : src % 32 ≠ n % 32 := by omega
      simp [e2, this]
  · have e2 : src ≠ n := by rintro rfl; exact e rfl
    rw [if_neg e2]
    simp only [Channel.bit, Channel.setBit, Channel.rd, Channel.wr]
    rw [RegMap.get_put_ne]
    rw [hf, hf]; simp only [ne_eq]; omega

theorem kget_runs_count (c : Channel) (src : Nat) : kget 0 (c.counted src).fcc.runs src = kget 0 c.fcc.runs src + 1 := by
  simp [Channel.counted, Channel.sat, Channel.setSrc, Channel.setBit]

/-- What one count does to status, activity, OCC and run. -/
theorem Channel.counted_spec (c : Channel) (src : Nat) (hs : src < 64) :
    (c.counted src).srcBit FCC_STAT_SRC src = true ∧ (c.counted src).srcBit FCC_ACT_SRC src = true ∧
      (c.counted src).rd (FCC_CNT_OCC src) = satInc 16 (c.rd (FCC_CNT_OCC src)) ∧
      kget 0 (c.counted src).fcc.runs src = kget 0 c.fcc.runs src + 1 := by
  have hs2 : src / 32 < 2 := by omega
  have h32 : src % 32 < 32 := by omega
  have hne1 : (FCC_STAT_SRC (src / 32)).addr ≠ (FCC_CNT_OCC src).addr := by simp [FCC_STAT, FCC_CNT]; omega
  have hne2 : (FCC_ACT_SRC (src / 32)).addr ≠ (FCC_CNT_OCC src).addr := by simp [FCC_ACT, FCC_CNT]; omega
  refine ⟨?_, ?_, ?_, kget_runs_count c src⟩
  · show (((c.setSrc FCC_STAT_SRC src true).setSrc FCC_ACT_SRC src true).sat (FCC_CNT_OCC src)).srcBit FCC_STAT_SRC src = true
    have e1 : ∀ x : Channel, (x.sat (FCC_CNT_OCC src)).srcBit FCC_STAT_SRC src = x.srcBit FCC_STAT_SRC src := by
      intro x
      simp only [Channel.srcBit, Channel.bit, Channel.sat, Channel.rd, Channel.wr]
      rw [RegMap.get_put_ne _ _ hne1]
    have e2 : ∀ x : Channel, (x.setSrc FCC_ACT_SRC src true).srcBit FCC_STAT_SRC src = x.srcBit FCC_STAT_SRC src := by
      intro x
      simp only [Channel.srcBit, Channel.bit]
      rw [Channel.rd_setSrc_other x FCC_STAT_SRC FCC_ACT_SRC 0x40010008 0x40010000 src true (fun _ => rfl) (fun _ => rfl)
        (by omega) hs _ hs2]
    rw [e1, e2, Channel.srcBit_setSrc c FCC_STAT_SRC 0x40010000 src true (fun _ => rfl)]
    simp
  · show (((c.setSrc FCC_STAT_SRC src true).setSrc FCC_ACT_SRC src true).sat (FCC_CNT_OCC src)).srcBit FCC_ACT_SRC src = true
    have e1 : ∀ x : Channel, (x.sat (FCC_CNT_OCC src)).srcBit FCC_ACT_SRC src = x.srcBit FCC_ACT_SRC src := by
      intro x
      simp only [Channel.srcBit, Channel.bit, Channel.sat, Channel.rd, Channel.wr]
      rw [RegMap.get_put_ne _ _ hne2]
    rw [e1, Channel.srcBit_setSrc _ FCC_ACT_SRC 0x40010008 src true (fun _ => rfl)]
    simp
  · show (((c.setSrc FCC_STAT_SRC src true).setSrc FCC_ACT_SRC src true).sat (FCC_CNT_OCC src)).rd (FCC_CNT_OCC src) = _
    have e1 : ((c.setSrc FCC_STAT_SRC src true).setSrc FCC_ACT_SRC src true).rd (FCC_CNT_OCC src) = c.rd (FCC_CNT_OCC src) := by
      simp only [Channel.setSrc, Channel.setBit, Channel.rd, Channel.wr]
      rw [RegMap.get_put_ne _ _ (Ne.symm hne2), RegMap.get_put_ne _ _ (Ne.symm hne1)]
    simp only [Channel.sat, e1]
    rw [Channel.rd_wr _ _ _ (by simp [Fld.fits])]
    have : satInc 16 (c.rd (FCC_CNT_OCC src)) < 2 ^ 16 := by unfold satInc; split <;> omega
    exact Nat.mod_eq_of_lt this

theorem Channel.later.judged (c : Channel) (src : Nat) (hs : src < 64) : (c.counted src).later (c.judged src) :=
  Channel.later.ite _ ((Channel.later.refl _).becomeSevere src hs) (Channel.later.refl _)

theorem Channel.later.afterCount (c : Channel) (src : Nat) (hs : src < 64) : (c.counted src).later (c.countEvent src).1 := by
  rw [Channel.countEvent_eq]
  exact (Channel.later.judged c src hs).stampLast _ _ _ _

/-- Counting LOGQ_DROP lowers no status bit and counts no other source. -/
theorem Channel.later.counted63 (h : c.later d) : c.later (d.counted 63) := by
  refine h.trans ⟨fun k hk b hb => ?_, fun k hk b hb => ?_, fun n hn => ?_, fun n hn => ?_, rfl, rfl, rfl⟩
  · show (((d.setSrc FCC_STAT_SRC 63 true).setSrc FCC_ACT_SRC 63 true).sat (FCC_CNT_OCC 63)).bit (FCC_STAT_SRC k) b = true
    have e1 : ∀ x : Channel, (x.sat (FCC_CNT_OCC 63)).bit (FCC_STAT_SRC k) b = x.bit (FCC_STAT_SRC k) b := by
      intro x
      simp only [Channel.bit, Channel.sat, Channel.rd, Channel.wr]
      rw [RegMap.get_put_ne]
      simp [FCC_STAT, FCC_CNT]; omega
    have e2 : ∀ x : Channel, (x.setSrc FCC_ACT_SRC 63 true).bit (FCC_STAT_SRC k) b = x.bit (FCC_STAT_SRC k) b := by
      intro x
      simp only [Channel.bit]
      rw [Channel.rd_setSrc_other x FCC_STAT_SRC FCC_ACT_SRC 0x40010008 0x40010000 63 true (fun _ => rfl) (fun _ => rfl)
        (by omega) (by omega) _ hk]
    rw [e1, e2]
    by_cases hk1 : k = 1
    · subst hk1
      have : (d.setSrc FCC_STAT_SRC 63 true).bit (FCC_STAT_SRC 1) b = if 31 = b then true else d.bit (FCC_STAT_SRC 1) b :=
        Channel.bit_setBit d (FCC_STAT_SRC 1) 31 b true rfl (by decide)
      rw [this]; split
      · rfl
      · exact hb
    · have hk0 : k = 0 := by omega
      subst hk0
      have : (d.setSrc FCC_STAT_SRC 63 true).bit (FCC_STAT_SRC 0) b = d.bit (FCC_STAT_SRC 0) b :=
        Channel.bit_wr_off d (FCC_STAT_SRC 0) (FCC_STAT_SRC 1) _ b rfl
      rw [this]; exact hb
  · show (((d.setSrc FCC_STAT_SRC 63 true).setSrc FCC_ACT_SRC 63 true).sat (FCC_CNT_OCC 63)).bit (FCC_ACT_SRC k) b = true
    have e1 : ∀ x : Channel, (x.sat (FCC_CNT_OCC 63)).bit (FCC_ACT_SRC k) b = x.bit (FCC_ACT_SRC k) b := by
      intro x
      simp only [Channel.bit, Channel.sat, Channel.rd, Channel.wr]
      rw [RegMap.get_put_ne]
      simp [FCC_ACT, FCC_CNT]; omega
    have e2 : (d.setSrc FCC_STAT_SRC 63 true).bit (FCC_ACT_SRC k) b = d.bit (FCC_ACT_SRC k) b := by
      simp only [Channel.bit]
      rw [Channel.rd_setSrc_other d FCC_ACT_SRC FCC_STAT_SRC 0x40010000 0x40010008 63 true (fun _ => rfl) (fun _ => rfl)
        (by omega) (by omega) _ hk]
    rw [e1]
    by_cases hk1 : k = 1
    · subst hk1
      have : ((d.setSrc FCC_STAT_SRC 63 true).setSrc FCC_ACT_SRC 63 true).bit (FCC_ACT_SRC 1) b =
          if 31 = b then true else (d.setSrc FCC_STAT_SRC 63 true).bit (FCC_ACT_SRC 1) b :=
        Channel.bit_setBit _ (FCC_ACT_SRC 1) 31 b true rfl (by decide)
      rw [this, e2]; split
      · rfl
      · exact hb
    · have hk0 : k = 0 := by omega
      subst hk0
      have : ((d.setSrc FCC_STAT_SRC 63 true).setSrc FCC_ACT_SRC 63 true).bit (FCC_ACT_SRC 0) b =
          (d.setSrc FCC_STAT_SRC 63 true).bit (FCC_ACT_SRC 0) b :=
        Channel.bit_wr_off _ (FCC_ACT_SRC 0) (FCC_ACT_SRC 1) _ b rfl
      rw [this, e2]; exact hb
  · show (((d.setSrc FCC_STAT_SRC 63 true).setSrc FCC_ACT_SRC 63 true).sat (FCC_CNT_OCC 63)).regs.word (FCC_CNT n) = _
    simp only [Channel.sat, Channel.setSrc, Channel.setBit, Channel.wr]
    rw [RegMap.word_put_ne, RegMap.word_put_ne, RegMap.word_put_ne] <;> (simp [FCC_CNT, FCC_ACT, FCC_STAT]; try omega)
  · simp only [Channel.counted]
    rw [kget_kset_ne _ _ _ (by omega)]
    rfl

theorem Channel.later.countEvent63 (h : c.later d) : c.later (d.countEvent 63).1 :=
  (h.counted63).trans (Channel.later.afterCount d 63 (by omega))

theorem Channel.later.logqDrop (h : c.later d) : c.later d.logqDrop.1 := by
  unfold Channel.logqDrop
  exact Channel.later.countEvent63 (Channel.later.ite _ (h.wr FCC_INJRES_OTHER 1 rfl) h)

theorem Channel.later.dropMsg (h : c.later d) : c.later d.dropMsg :=
  (h.sat MBX_QSTAT_DROPS rfl).trans
    ⟨fun _ _ _ h => h, fun _ _ _ h => h, fun _ _ => rfl, fun _ _ => rfl, rfl, rfl, rfl⟩

theorem Channel.later.pushMsg (h : c.later d) (m : LogMsg) : c.later (d.pushMsg m) :=
  (h.wr MBX_QSTAT_FILL _ rfl).trans
    ⟨fun _ _ _ h => h, fun _ _ _ h => h, fun _ _ => rfl, fun _ _ => rfl, rfl, rfl, rfl⟩

theorem Channel.later.queueEvent (h : c.later d) (src code : Nat) : c.later (d.queueEvent src code).1 := by
  unfold Channel.queueEvent
  split
  · exact h
  · split
    · exact (h.pushMsg _).fcc_ _ (fun _ _ => rfl) rfl rfl rfl
    · exact h.dropMsg.logqDrop

theorem Channel.later.nmis (l : Due) : ∀ {d : Channel}, c.later d → c.later (d.nmis l) := by
  induction l with
  | nil => intro d h; exact h
  | cons p r ih =>
    intro d h
    exact ih (Channel.later.ite _ (h.fcc_ _ (fun _ _ => rfl) rfl rfl rfl) h)

theorem Channel.later.blockReset (h : c.later d) (b : Nat) : c.later (d.blockReset b) := by
  unfold Channel.blockReset
  have k := h.setBit STW_BLKSTAT_BLK b true rfl
  exact Channel.later.ite _ h (Channel.later.ite _
    (k.trans ⟨fun _ _ _ h => h, fun _ _ _ h => h, fun _ _ => rfl, fun _ _ => rfl, rfl, rfl, rfl⟩) k)

theorem Channel.later.brsts (l : Due) : ∀ {d : Channel}, c.later d → c.later (d.brsts l) := by
  induction l with
  | nil => intro d h; exact h
  | cons p r ih =>
    intro d h
    exact ih (Channel.later.ite _ (h.blockReset _) h)

theorem Channel.later.epin (h : c.later d) : c.later d.epin := by
  unfold Channel.epin
  exact Channel.later.fcc_ (Channel.later.ite _ h (h.sat FCC_EPIN_PULSES rfl)) _ (fun _ _ => rfl) rfl rfl rfl

theorem Channel.later.errRefresh (h : c.later d) : c.later d.errRefresh := h.flag FCC_EPIN_LEVEL _ rfl

/-- Reactions that do not reset the channel lower nothing that was counted. -/
theorem Channel.later.reactAll (h : c.later d) (l : Due) (hl : l.spares) : c.later (d.reactAll l) := by
  unfold Channel.reactAll
  have he : l.filter (fun p => p.2.1.testBit 3) = [] := by
    rw [List.filter_eq_nil_iff]
    intro p hp; simp [hl p hp]
  simp only [he, List.any_nil, List.find?_nil, Bool.false_eq_true, if_false]
  refine Channel.later.errRefresh (Channel.later.brsts l ?_)
  exact Channel.later.ite _ (Channel.later.epin (h.nmis l)) (h.nmis l)

/-- One event as the collector sees it when its block is on, no injection is announced and the channel is not in reset. -/
theorem Channel.event_eq (c : Channel) (src blk : Nat) (hb : c.blockOn blk = true) (hr : c.resetting = false)
    (ho : c.pwr.off = false) (ht : c.fcc.tag = none) :
    c.event src blk = (((c.countEvent src).1.queueEvent src (c.countEvent src).2.2).1,
      (src, (c.countEvent src).2.1, blk) :: ((c.countEvent src).1.queueEvent src (c.countEvent src).2.2).2) := by
  unfold Channel.event
  rw [ht]
  simp [hb, hr, ho]

/-- What raising a source of an enabled block does: status, activity, OCC, run. -/
theorem Channel.raiseOn_spec (c : Channel) (src blk : Nat) (hb : c.blockOn blk = true) (hr : c.resetting = false)
    (ho : c.pwr.off = false) (ht : c.fcc.tag = none) (hs : c.spares src) :
    (c.counted src).later (c.raiseAll [(src, blk)]) := by
  have hev := c.event_eq src blk hb hr ho ht
  have k1 := Channel.keptW.event (w := true) (.refl c) src blk hs (.inl rfl)
  unfold Channel.raiseAll
  simp only [Channel.events, List.append_nil]
  refine Channel.later.reactAll ?_ _ k1.2
  rw [hev]
  exact (Channel.later.afterCount c src hs.1).queueEvent _ _

theorem Channel.later.srcStat (h : c.later d) {n : Nat} (hn : n < 64) (hc : c.srcBit FCC_STAT_SRC n = true) :
    d.srcBit FCC_STAT_SRC n = true := h.1 _ (by omega) _ hc

theorem Channel.later.srcAct (h : c.later d) {n : Nat} (hn : n < 64) (hc : c.srcBit FCC_ACT_SRC n = true) :
    d.srcBit FCC_ACT_SRC n = true := h.2.1 _ (by omega) _ hc

theorem Channel.later.occ (h : c.later d) {n : Nat} (hn : n < 63) : d.rd (FCC_CNT_OCC n) = c.rd (FCC_CNT_OCC n) := by
  simp [Channel.rd, RegMap.get, h.2.2.1 n hn]

theorem Channel.live_not (h : c.live = true) : c.resetting = false ∧ c.failSilent = false ∧ c.pwr.off = false := by
  simp only [Channel.live, Channel.alive, Bool.and_eq_true, Bool.not_eq_true', decide_eq_true_eq] at h
  exact ⟨h.1.1.1, h.1.1.2, h.1.2⟩

/-- Raising a source of an enabled block of a running channel: status and activity bits are set. -/
theorem Channel.raise_counts (c : Channel) (src blk : Nat) (hl : c.live = true) (hb : c.blockOn blk = true)
    (ht : c.fcc.tag = none) (hs : c.spares src) :
    (c.raiseAll [(src, blk)]).srcBit FCC_STAT_SRC src = true ∧ (c.raiseAll [(src, blk)]).srcBit FCC_ACT_SRC src = true ∧
      (src < 63 → (c.raiseAll [(src, blk)]).rd (FCC_CNT_OCC src) = satInc 16 (c.rd (FCC_CNT_OCC src)) ∧
        kget 0 (c.raiseAll [(src, blk)]).fcc.runs src = kget 0 c.fcc.runs src + 1) := by
  obtain ⟨h1, _, h3⟩ := Channel.live_not hl
  have h := c.raiseOn_spec src blk hb h1 h3 ht hs
  have k := c.counted_spec src hs.1
  exact ⟨h.srcStat hs.1 k.1, h.srcAct hs.1 k.2.1, fun hn => ⟨(h.occ hn).trans k.2.2.1, (h.2.2.2.1 src hn).trans k.2.2.2⟩⟩

end Sys2Proof.Machine
end

