-- ==== Sys2Proof/Laws/Frames.lean ====
section
/-! SUPPORT. Frames of the shared operations: which channel a command touches, and what a write leaves alone. -/

namespace Sys2Proof.Machine

theorem State.onlyChan_on (s : State) (ch : Chan) (f : Channel → Channel) : s.onlyChan ch (s.on ch f) :=
  ⟨fun _ h => State.chan_on_ne s f h, State.mss_on s ch f, State.pending_on s ch f⟩

theorem State.onlyChan_onLive (s : State) (ch : Chan) (f : Channel → Channel) : s.onlyChan ch (s.onLive ch f) :=
  s.onlyChan_on ch _

theorem State.onlyChan_onPower (s : State) (ch : Chan) (f : Channel → Channel) : s.onlyChan ch (s.onPower ch f) :=
  s.onlyChan_on ch _

theorem State.onlyMss_onMss (s : State) (f : Mss → Mss) : s.onlyMss (s.onMss f) := ⟨rfl, rfl, rfl, rfl⟩

theorem State.onlyChan.trans {ch : Chan} {s t u : State} (h : s.onlyChan ch t) (k : t.onlyChan ch u) : s.onlyChan ch u :=
  ⟨fun o ho => (k.1 o ho).trans (h.1 o ho), k.2.1.trans h.2.1, k.2.2.trans h.2.2⟩

theorem Channel.sameBut.refl (l : List Nat) (c : Channel) : c.sameBut l c := ⟨fun _ _ => rfl, rfl, rfl, rfl, rfl, rfl, rfl⟩

theorem Channel.sameBut.trans {l : List Nat} {c d e : Channel} (h : c.sameBut l d) (k : d.sameBut l e) : c.sameBut l e :=
  ⟨fun a ha => (k.1 a ha).trans (h.1 a ha), k.2.1.trans h.2.1, k.2.2.1.trans h.2.2.1, k.2.2.2.1.trans h.2.2.2.1,
    k.2.2.2.2.1.trans h.2.2.2.2.1, k.2.2.2.2.2.1.trans h.2.2.2.2.2.1, k.2.2.2.2.2.2.trans h.2.2.2.2.2.2⟩

theorem Channel.sameBut.mono {l m : List Nat} {c d : Channel} (h : c.sameBut l d) (hm : ∀ a ∈ l, a ∈ m) : c.sameBut m d :=
  ⟨fun a ha => h.1 a fun hl => ha (hm a hl), h.2⟩

/-- A write of a listed register. -/
theorem Channel.sameBut.wr {l : List Nat} {c d : Channel} (h : c.sameBut l d) (f : Fld) (v : Nat) (hf : f.addr ∈ l) :
    c.sameBut l (d.wr f v) :=
  h.trans ⟨fun a ha => RegMap.word_put_ne _ _ _ (by rintro rfl; exact ha hf), rfl, rfl, rfl, rfl, rfl, rfl⟩

theorem Channel.sameBut.wrWord {l : List Nat} {c d : Channel} (h : c.sameBut l d) (b : Nat) (v : Word) (hf : b ∈ l) :
    c.sameBut l (d.wrWord b v) :=
  h.trans ⟨fun a ha => RegMap.word_setWord_ne _ _ (by rintro rfl; exact ha hf), rfl, rfl, rfl, rfl, rfl, rfl⟩

theorem Channel.sameBut.ite {l : List Nat} {c d e : Channel} (p : Prop) [Decidable p] (h : c.sameBut l d) (k : c.sameBut l e) :
    c.sameBut l (if p then d else e) := by split <;> assumption

/-- A channel that differs only in parts that are neither registers nor memories. -/
theorem Channel.sameBut_of_parts {l : List Nat} {c d : Channel} (h0 : d.regs = c.regs) (h1 : d.sram = c.sram)
    (h2 : d.itcm = c.itcm) (h3 : d.dtcm = c.dtcm) (h4 : d.fce0 = c.fce0) (h5 : d.fce1 = c.fce1) (h6 : d.nete = c.nete) :
    c.sameBut l d := ⟨fun _ _ => by rw [h0], h1, h2, h3, h4, h5, h6⟩

theorem Channel.sameBut.get {l : List Nat} {c d : Channel} (h : c.sameBut l d) (f : Fld) (hf : f.addr ∉ l) :
    d.regs.get f = c.regs.get f := by simp [RegMap.get, h.1 _ hf]

/-- Events keep the memories too. -/
theorem Channel.keptW.sameMem {c d : Channel} (h : c.kept d) :
    d.sram = c.sram ∧ d.itcm = c.itcm ∧ d.dtcm = c.dtcm ∧ d.fce0 = c.fce0 ∧ d.fce1 = c.fce1 ∧ d.nete = c.nete := by
  rw [h.2.1]; exact ⟨rfl, rfl, rfl, rfl, rfl, rfl⟩

/-- A fail-silent channel is not reset by a reaction: the reset of R159 is wired. -/
theorem Channel.keptW.reactAllSilent {c d : Channel} (h : c.kept d) (l : Due) (hf : d.failSilent = true) : c.kept (d.reactAll l) := by
  unfold Channel.reactAll
  have hn : ∀ (l : Due) (x : Channel), (x.nmis l).failSilent = x.failSilent := by
    intro l; induction l with
    | nil => intro x; rfl
    | cons p r ih => intro x; simp only [Channel.nmis]; rw [ih]; split <;> rfl
  have he : ∀ x : Channel, x.epin.failSilent = x.failSilent := by
    intro x; simp only [Channel.epin]; split <;> rfl
  have k1 : c.kept (if (l.any fun d => d.2.1.testBit 4) = true then (d.nmis l).epin else d.nmis l) :=
    Channel.keptW.ite _ (Channel.keptW.epin (h.nmis l)) (h.nmis l)
  have f1 : (if (l.any fun d => d.2.1.testBit 4) = true then (d.nmis l).epin else d.nmis l).failSilent = true := by
    split
    · rw [he, hn, hf]
    · rw [hn, hf]
  revert k1 f1
  dsimp only
  generalize (if (l.any fun d => d.2.1.testBit 4) = true then (d.nmis l).epin else d.nmis l) = x
  intro k1 f1
  have k2 : ∀ p : Prop, [Decidable p] → c.kept (if p then
      ({ x with fcc := { x.fcc with stayOut := true } } : Channel).setCauses 9 true else x) := by
    intro p _
    exact Channel.keptW.ite _ (Channel.keptW.setCauses (k1.fcc_ (Fcc.mk x.fcc.runs x.fcc.since x.fcc.loaded x.fcc.tag x.fcc.fccInj x.fcc.released x.fcc.kicks x.fcc.engines x.fcc.pulse x.fcc.nmis true x.fcc.leave x.fcc.newSev) rfl rfl rfl) 9 true) k1
  have f2 : ∀ p : Prop, [Decidable p] → (if p then
      ({ x with fcc := { x.fcc with stayOut := true } } : Channel).setCauses 9 true else x).failSilent = true := by
    intro p _
    have kk := Channel.keptW.setCauses ((Channel.keptW.refl x).fcc_ { x.fcc with stayOut := true } rfl rfl rfl) 9 true
    split
    · rw [kk.2.1]; exact f1
    · exact f1
  have k3 := k2 (((l.filter fun d => d.2.1.testBit 3).any fun d => !x.crstHonoured d.1) = true)
  have f3 := f2 (((l.filter fun d => d.2.1.testBit 3).any fun d => !x.crstHonoured d.1) = true)
  revert k3 f3
  generalize (if ((l.filter fun d => d.2.1.testBit 3).any fun d => !x.crstHonoured d.1) = true then
      ({ x with fcc := { x.fcc with stayOut := true } } : Channel).setCauses 9 true else x) = y
  intro k3 f3
  split
  · rw [if_pos f3]; exact k3.errRefresh
  · exact Channel.keptW.errRefresh (Channel.keptW.brsts l k3)

end Sys2Proof.Machine
end

