-- ==== Sys2Proof/WellFormed.lean ====
section
/-! DEFINITION. Which commands are well formed: operands that a bus, a packet or a converter can carry. A meaning is
given for the others too; the checks say what a sender can send. -/

namespace Sys2Proof

/-- Greatest length of a Folio in bytes (R39 of 02_folio.md). -/
def folioMax : Nat := 4194304

/-- A Folio part: the spine has 64 bytes, the others no more than a Folio (R39, R539). -/
def FolPart.wf : FolPart → Bool
  | .spine b => b.length == 64
  | .colophon b | .body b => decide (b.length ≤ folioMax)
  | .unreadable | .emptySlot => true

/-- The codes of a valley: 14 bits each, the mean current in Q1.31 (R185). -/
def SValley.wf (s : SValley) : Bool :=
  decide (s.codeU < 16384) && decide (s.codeV < 16384) && decide (-(2 ^ 31) ≤ s.idc) && decide (s.idc < 2 ^ 31)

/-- The fields of a Tether frame fit their widths, and its payload is as long as LEN where LEN is a length at all
(R336, R337, R340). -/
def Frame.wf (f : Frame) : Bool :=
  decide (f.etype < 2 ^ 16) && decide (f.ring < 256) && decide (f.dst < 256) && decide (f.srcRing < 256) &&
    decide (f.src < 256) && decide (f.ver < 16) && decide (f.kind < 16) && decide (f.stream < 128) &&
    decide (f.hops < 256) && decide (f.seq < 2 ^ 16) && decide (f.len < 2048) && decide (f.payload.length ≤ 1500) &&
    decide (-(2 ^ 63) ≤ f.corr) && decide (f.corr < 2 ^ 63) && (decide (1024 < f.len) || f.payload.length == f.len)

/-- An 18-bit parameter group number, 8-bit addresses, at most 8 bytes (R389). -/
def CanFrame.wf (f : CanFrame) : Bool :=
  decide (f.pgn < 2 ^ 18) && decide (f.sa < 256) && decide (f.da < 256) && decide (f.data.length ≤ 8)

/-- A frame has a calibration pulse, and no pulse is shorter than its low phase (R301, R302). -/
def SentFrame.wf (f : SentFrame) : Bool := decide (0 < f.cal) && f.pulses.all fun p => decide (p.2 ≤ p.1)

/-- The operands of a command are such as its sender can give. -/
def Instr.wf : Instr → Bool
  | .registerWrite _ _ addr _ _ => decide (addr < 2 ^ 32)
  | .class4RetryExhausted ch peer => ch != peer
  | .mailboxRead _ off => decide (off.addr < 65536)
  | .peerWindowRead _ x => decide (0x60000000 ≤ x.addr) && decide (x.addr < 0x63000000)
  | .carrierMarker ch from_ _ _ => ch != from_
  | .folioPartReceived _ _ size part => decide (size ≤ folioMax) && part.wf
  | .peerLoadServe ch requester => ch != requester
  | .joinRecord ch rec => ch != rec.val.from_
  | .admissionReply ch from_ _ _ _ => ch != from_
  | .migrationStateArrived _ _ bytes => decide (bytes.val.length ≤ 524288)
  | .dataHomeWrite _ _ off _ => decide (off < 65536)
  | .coreMemoryAccess _ _ addr _ _ => decide (addr < 2 ^ 32)
  | .patrolScrub _ _ addr _ => decide (addr < 2 ^ 32)
  | .bridgeSValley _ s => s.wf
  | .bridgePValley _ codeU codeV _ => decide (codeU < 16384) && decide (codeV < 16384)
  | .setComputeDone _ _ accepted => decide (accepted ≤ 32)
  | .encErrorWindowEnd _ unit qerr => decide (unit.val < 6) || !qerr
  | .sentFrame _ _ f => f.wf
  | .frameForward _ f _ => f.wf
  | .cycleFrameReceived _ f => f.wf
  | .streamDataReceived _ f => f.wf
  | .claimReceived _ f _ => f.wf
  | .enumerationFrame _ f => f.wf
  | .startupFrame _ f => f.wf
  | .linkDelayRequestReceived _ f _ => f.wf
  | .linkDelayResponseReceived _ f => f.wf
  | .addressClaimReceived _ f => f.wf
  | .requestReceived _ f => f.wf
  | .guidanceCommandReceived _ f => f.wf
  | .speedMessageReceived _ f => f.wf
  | .timeDateReceived _ f => f.wf
  | .canFrameReceived _ f => f.wf
  | .tpRtsReceived _ f => f.wf
  | .tpBamReceived _ f => f.wf
  | .tpDtReceived _ f => f.wf
  | .tpTimeout _ sa da => decide (sa < 256) && decide (da < 256)
  | .sensorSample samples _ => samples.length == 25
  | .logReadDone _ bad0 bad1 => (bad0 ++ bad1).all fun n => decide (n < 131072)
  | .loadFrame busyPercent => decide (busyPercent ≤ 100)
  | .updBlock _ words => decide (words < 2 ^ 13)
  | .wake w => decide (w.kind < 16)
  | .debugHaltRequest port hart _ => port != .mss || hart == 0
  | .debugResume port hart _ => port != .mss || hart == 0
  | .systemBusAccess _ addr _ _ => decide (addr < 2 ^ 32)
  | .peerWindowReadServed ch requester => ch != requester.val
  | .dataHomeUpdateReceived _ _ off _ => decide (off < 65536)
  | .tpCtsReceived _ f => f.wf
  | .crossLinkDown _ | .crossLinkUp _ | .class3RetryExhausted _ | .clkFail _ _ | .mpStateRead _ _ |
    .mpPlannedAbsence _ _ | .mpFolioLoad _ _ _ | .mpBlockEnable _ _ | .mpBlockReset _ _ | .mpChannelReset _ |
    .mpWake _ | .mpDebugAccess _ _ | .mailboxReadTimeout _ | .peerReadReply _ | .peerReadTimeout _ |
    .folCtrlWrite _ _ | .mssFolioTimeout _ | .peerLoadRetry _ | .peerLoadTimeout _ | .folioApplyDone _ |
    .roundStart _ | .hb1Send _ _ | .hb1Received _ _ _ _ | .hb2Relay _ | .hb2Received _ _ _ _ |
    .membershipDecision _ _ | .simplexTimerExpiry _ | .idegTimerExpiry _ | .idegClear _ | .bringupWindowEnd _ |
    .modeReqLeaveService _ | .modeReqSafeStop _ | .modeReqService _ | .modeReqPark _ | .safeStopRampEnd _ |
    .safeStopFullBrake _ | .stationaryDeclared _ | .listenRoundEnd _ | .shadowComplete _ | .controlCycleBoundary _ |
    .migrationStateSend _ _ | .jobRelease _ _ | .hrdDone _ _ _ | .hreqUpdateRotation _ | .hreqProofTest _ |
    .hreqAbort _ | .repairRequest _ | .absenceRequestDropped _ | .rotationNextRequest _ | .returnDeadline _ |
    .commitReportRepeat _ | .proofTestDue _ | .proofOverdue _ | .recoveryWindowExpiry _ | .cmpDiv _ _ _ |
    .cmpSelf _ _ _ | .failSilentReset _ | .digestDue _ | .digestTaken _ _ _ _ | .cmpInjStart _ _ _ |
    .sweepStepTimeout _ | .channelReset _ _ | .wipeDone _ _ | .hart1Release _ _ | .splitStationaryLost _ |
    .adcConversionDone _ | .carrierPeak _ _ | .offsetCalibrationDone _ _ _ _ | .rotorLockDone _ |
    .fceSetptWrite _ _ _ | .pumpSectorDetectDone _ _ | .pumpHoldEnd _ | .pumpRampEnd _ | .pumpHandoverTimeout _ |
    .pumpRetry _ | .pumpStopTimeout _ | .solenoidTick _ | .fceSolnSetWrite _ _ _ | .samplePacketReceived _ _ _ _ |
    .sampleDeadline _ _ | .tripletOverrun _ _ | .dutyTripletReceived _ _ _ _ | .vote _ | .voteEchoReceived _ _ _ _ |
    .memberMaskDelivery _ _ _ | .speedWord _ _ _ _ | .chopperOn _ _ _ | .chopperOff _ | .chopperCheck _ _ | .linkOv1 _ |
    .linkOv2 _ | .linkUv _ | .ov1Clear _ | .ov2Clear _ | .uvClear _ | .dieToDieLoss _ | .digitalDieSilent _ |
    .gdStcmd _ _ | .desatLatch _ _ _ _ | .ocLatch _ _ _ | .gdUvlo _ _ _ | .gdOt _ _ _ | .gdrBlockReset _ |
    .gdrResetRelease _ | .localBlockReset _ | .gdenFall _ | .gdenRise _ _ _ | .gdenoPulse _ | .gdenoPulseEnd _ |
    .powerStageSelfTestDone _ _ _ | .encInputChange _ _ _ _ | .encSettlement _ _ _ | .observerUpdate _ _ |
    .standstillTimeout _ _ | .comparePulseEnd _ _ | .encCmpvWrite _ _ _ | .sentTimeout _ _ | .sinSample _ _ |
    .discrepancyTimeout _ _ | .faultRearm _ _ | .testPulseStart _ _ | .testPulseCheck _ _ _ | .sb1Received _ _ _ _ |
    .sb2Received _ _ _ _ | .portDown _ _ | .portUp _ _ | .cycleStart _ | .streamFetch _ _ | .streamSlot _ _ _ _ |
    .acceptanceWindowEnd _ _ | .txCommit _ _ _ | .portSelect _ _ _ | .claimRetry _ | .enumerationResend _ |
    .listenTimeout _ | .startupWaitEnd _ | .cycleFrameLoss _ | .ntcTimelRead _ | .linkDelayRequestSend _ _ _ |
    .linkDelayTimeout _ _ | .cycleMark _ _ | .claimHoldOffEnd _ _ | .voiceTxStart _ | .isoVoice _ | .isoBusoff _ |
    .statusMessageSend _ | .bamPacketSend _ _ | .canTxGo _ _ | .canRxPop _ | .faultEvent _ _ | .runWindowEnd _ _ |
    .recovery _ _ | .epinPulseEnd _ | .fccEpinHold _ _ | .fccInjStart _ _ _ | .injectionRelease _ |
    .injectionSample _ _ | .stwBlkrstWrite _ _ | .stwChrstWrite _ _ | .blockResetRelease _ _ | .stwKick _ _ |
    .coreWdog _ _ | .optimeSave | .mssPowerOn _ _ | .calendarUpdate _ | .envRecord | .logQueueDrain _ |
    .mailboxMessage _ _ | .logGo | .logRecordWritten _ _ | .managementLinkDown _ | .managementLinkUp _ |
    .logReadRequest _ _ | .shadowRefresh | .mssHbKick | .mssHbMiss _ | .resetVoteEnd _ | .mpVoteReset |
    .mpRestartDone | .keyChallenge _ | .keySubmitToken _ | .keyAttest _ | .keyFuseRootSlot _ | .keyAppendPart _ |
    .attestCredit | .identityGenerated | .updOpen _ | .updVerify _ | .updVerifyDone | .updArmRotation _ |
    .updArmPowerCycle _ | .updDiscard _ | .slotCopyDone _ | .commit | .trialNoHerdTimeout | .vsupRise _ _ |
    .vsupUndervoltage _ | .vsupReset _ | .bistDone _ _ | .p1EnterRequest _ | .p1LeaveRequest _ | .keyFiltered _ _ |
    .awakeTimeEnd _ | .parkHoldEnd | .rungDwellEnd _ | .dmiAccess _ _ _ _ | .tempCd _ | .cpWdog _ | .d2dErr _ |
    .mpWatchdogReset | .vsupMLoss | .folioRequest _ | .solenoidCurrentSample _ _ _ | .vgdRecovered _ |
    .canFrameSent _ _ | .busIntegrationDone _ | .supervisorHeartbeat | .keyCommandDone _ => true

end Sys2Proof
end

