-- ==== Sys2Proof/Tests/Slice0.lean ====
section
/-! SUPPORT. Witnesses: for each statement, states and operands that meet the hypotheses of each of its clauses; and small
checks of single steps. -/

set_option linter.unusedVariables false
set_option maxRecDepth 20000

open Sys2Proof Sys2Proof.Machine

namespace Sys2Proof.Tests

/-- A channel that runs: released from reset, every block on, its Folio loaded, its management link up. -/
def lit (me : Chan) : Channel :=
  { Channel.powerOn me with
    resetting := false, mlink := true, regs := (Channel.powerOn me).regs.setWord STW_BLKEN 0x1FFFF, fcc := { loaded := true } }

/-- A management subsystem that runs and serves, its three links up. -/
def lead : Mss :=
  { State.reset.mss with on := true, ready := true, mp := true, portA := { up := true }, portB := { up := true }, portC := { up := true } }

/-- The module running, before any herd. -/
def w0 : State := { a := lit .A, b := lit .B, c := lit .C, mss := lead, pending := [] }

/-- The same with channel A, channel B, or the management subsystem changed. -/
def wA (f : Channel → Channel) : State := { w0 with a := f w0.a }
def wB (f : Channel → Channel) (s : State) : State := { s with b := f s.b }
def wM (f : Mss → Mss) (s : State) : State := { s with mss := f s.mss }

/-- A voting member. -/
def mem (c : Channel) : Channel := { c with voting := true, voted := true }

/-- Parts of a channel changed. -/
def fol (f : Fol → Fol) (c : Channel) : Channel := { c with fol := f c.fol }
def hrd (f : Hrd → Hrd) (c : Channel) : Channel := { c with hrd := f c.hrd }
def cur (f : Herd → Herd) (c : Channel) : Channel := hrd (fun h => { h with cur := f h.cur }) c

/-- Every cross-link up at this end. -/
def linked (c : Channel) : Channel := hrd (fun h => { h with links := 7 }) c

/-- A voting member in FULL. -/
def full (c : Channel) : Channel := mem (cur (fun h => { h with mode := 2, view := 7 }) (c.wr STW_MODE_MODE 2))

/-- A Folio with one task (id 5, 16 bytes of state) and one home (id 6, 16 bytes), hosted by the channel. -/
def placed (c : Channel) : Channel :=
  (fol (fun x => { x with recs := [⟨0x0800, 0, 0, [0x1805, 10, 0x00100000, 100]⟩, ⟨0x0801, 0, 0, [0x1806, 16]⟩] })
    c).wrWord (addrReg true 5) 0x20000100 |>.wrWord (addrReg false 6) 0x20080040

/-- A spine without an error: length 0x200, colophon at 0x100. -/
def spine : List Byte :=
  leBytes 4 0x494C4F46 ++ leBytes 4 1 ++ leBytes 4 0x200 ++ leBytes 4 0x100 ++ leBytes 44 0 ++ leBytes 4 0xE8FAA537

/-- A carrier of 10 kHz on both bridges, three members in the mask. -/
def run5 (c : Channel) : Channel :=
  { (c.wr (FCE_PWM_HALF 0) 5000).wr (FCE_PWM_HALF 1) 5000 with xlk := { c.xlk with mask := 7 } }

/-- The sample packet of set B held, and its triplet agreed. -/
def setB (c : Channel) (p : BitVec 176) : Channel :=
  { c with f0 := { c.f0 with setB := { c.f0.setB with pkt := some p, agreed := true } } }

/-- Three triplets of the own set. -/
def trips (a b d : BitVec 256) (c : Channel) : Channel :=
  { run5 c with xlk := { (run5 c).xlk with trA := some a, trB := some b, trC := some d } }

/-- A chopper check in progress at 50 V with these limits. -/
def chk (c : Channel) (ll4 : Word) : Channel :=
  { (c.wrWord (GDR_LL 3) 0x03E80064).wrWord (GDR_LL 4) ll4 with pow := { c.pow with chk := some (50000, 0) } }

/-- A Tether node with a role: both ports up, joined, address 4, stream 5 transmit and stream 6 receive with their slots, one
claim slot, one mark. -/
def node (role : Nat) (c : Channel) : Channel :=
  let c := (((c.wr TTE_STAT_ROLE role).wr TTE_STAT_LINK0 1).wr TTE_STAT_LINK1 1).wr TTE_STAT_ADDR 4
  let c := (c.wr NTC_STAT_JOINED 1).wrWord (TTE_RING 3) 0x20
  let c := (c.wrWord (TTE_CTXCFG 5 1) 0x00400105).wrWord (TTE_CTXCFG 6 1) 0x00400006
  let recs : List FolRec := [⟨0x0502, 0, 0, [7, 0x0200, 0x0A05, 0x3FFFF, 0x1E06, 0x3FFFF]⟩, ⟨0x0503, 0, 0, [7, 0x2800, 16]⟩,
    ⟨0x0504, 0, 0, [7, 0, 0, 0]⟩]
  { fol (fun x => { x with recs := recs }) c with tte := { framed := true }, ntc := { e := some 0 } }

/-- A frame from address 2 to all nodes of ring A, with its safety code. -/
def frm (kind stream : Nat) (payload : List Byte) (seed : Nat) (trx : Int) : Frame :=
  let f : Frame :=
    { port := 0, fcsOk := true, etype := 0, ring := 1, dst := 63, srcRing := 1, src := 2, ver := 1, kind := kind,
      brk := false, fcopy := false, stream := stream, hops := 1, seq := 1, len := payload.length, corr := 0,
      payload := payload, code := 0, trx := trx }
  { f with code := f.codeFrom seed }

/-- A SENT frame of 10 µs ticks with status 0, the data nibbles 1 to 6 and a CRC nibble. -/
def snt (cal crc : Nat) : SentFrame :=
  { cal := cal, pulses := ([0, 1, 2, 3, 4, 5, 6, crc]).map fun v => ((12 + v) * 4000, 16000), pause := none }

/-- The ISOBUS voice with one function at address 0x26. -/
def bus (c : Channel) : Channel :=
  let c := ((c.wr CAN_ISTAT_VOICE 1).wr (CAN_CLAIM_SA 0) 0x26).wr (CAN_CLAIM_STATE 0) 2
  { fol (fun x => { x with recs := [⟨0x0600, 0, 0, [0x2600, 5, 0]⟩] }) c with can := { up := true, on := true } }

/-- The same with a receive session. -/
def rxs (r : RxSession) (c : Channel) : Channel := { bus c with can := { (bus c).can with rx := [r] } }


/-- The port of channel A changed. -/
def pA (f : Port → Port) (m : Mss) : Mss := { m with portA := f m.portA }

/-- An update session of channel A in a state. -/
def sess (st len next : Nat) (m : Mss) : Mss :=
  (((m.wr UPD_STAT_STATE st).wr UPD_STAT_OWNER 1).wr UPD_LEN_VALUE len).wr UPD_NEXT_VALUE next

/-- A channel without supply. -/
def dark (c : Channel) : Channel := { c with pwr := { c.pwr with up := false } }

/-- The ASCII digits 1 to 9. -/
def lit9 : List Byte := [0x31, 0x32, 0x33, 0x34, 0x35, 0x36, 0x37, 0x38, 0x39]

/-- The state that a command leaves. -/
def after (i : Instr) (s : State) : State :=
  match exec i s with
  | .next t => t
  | _ => s

theorem test_wit_CrossLinksGoDownAndUp :
    (∃ (l : Link) (s : State), ((∀ e, e = (linkEnds l).1 ∨ e = (linkEnds l).2 → (s.chan e).live = true ∧ (s.chan e).hrd.links.testBit (linkIdx l) = true ∧ (s.chan e).blockOn 6 = true ∧ (s.chan e).fcc.tag = none ∧ (s.chan e).spares 12 ∧ (s.chan e).spares 8))) ∧
    (∃ (l : Link) (s : State), ((∀ e, e = (linkEnds l).1 ∨ e = (linkEnds l).2 → (s.chan e).live = true))) ∧
    (∃ (ch : Chan) (s : State), (s.chan ch).live = true ∧ (s.chan ch).xlk.rdReq ≠ none) ∧
    (∃ (ch peer : Chan) (s : State), (s.chan ch).live = true ∧ peer ≠ ch ∧ (s.chan ch).blockOn 6 = true ∧ (s.chan ch).fcc.tag = none ∧ (s.chan ch).spares 12 ∧ (s.chan ch).spares 8) :=
  ⟨⟨.AB, (wA (fun c => { c with hrd := { c.hrd with links := 7 } }) |> wB fun c => { c with hrd := { c.hrd with links := 7 } }), (by intro o; cases o <;> (unfold Channel.spares; decide))⟩,
    ⟨.CA, w0, (by intro o; cases o <;> decide)⟩,
    ⟨.A, (wA fun c => { c with xlk := { c.xlk with rdReq := some (.B, 0x40000000) } }), (by decide), (by decide)⟩,
    ⟨.A, .C, w0, (by decide), (by decide), (by decide), (by decide), (by unfold Channel.spares; decide), (by unfold Channel.spares; decide)⟩⟩

theorem test_wit_PeerAndMailboxReadsAnswer :
    (∃ (ch p : Chan) (addr x : Nat) (s : State), (s.chan ch).live = true ∧ peerAddr addr = some (p, x) ∧ p ≠ ch ∧ s.crossUp ch p = true) ∧
    (∃ (ch : Chan) (addr : Nat) (z : AccSize) (s : State), (s.chan ch).live = true ∧ (peerAddr addr = none ∨ z ≠ .word)) ∧
    (∃ (ch requester : Chan) (a : Nat) (s : State), (s.chan ch).live = true ∧ (s.chan requester).xlk.rdReq = some (ch, a) ∧ s.crossUp ch requester = true) ∧
    (∃ (ch p : Chan) (a : Nat) (r : Option Word) (s : State), (s.chan ch).live = true ∧ p ≠ ch ∧ (s.chan ch).xlk.rdReq = some (p, a) ∧ kget none (s.chan p).xlk.rdRep ch.idx = some r) ∧
    (∃ (ch p : Chan) (a : Nat) (s : State), (s.chan ch).live = true) ∧
    (∃ (ch : Chan) (s : State), (s.chan ch).live = true ∧ (s.chan ch).xlk.rdReq ≠ none) ∧
    (∃ (ch : Chan) (off : Nat) (row : RegRow) (s : State), (s.chan ch).live = true ∧ 0x40 ≤ off ∧ off < 0x100 ∧ off % 4 = 0 ∧ findRow mailboxRows (0x70000000 + off) = some row ∧ s.mlinkUp (s.chan ch) = true ∧ s.mss.on = true) ∧
    (∃ (ch : Chan) (off : Nat) (z : AccSize) (s : State), (s.chan ch).live = true ∧ (off % 4 ≠ 0 ∨ z ≠ .word)) ∧
    (∃ (ch : Chan) (s : State), (s.chan ch).live = true ∧ (s.chan ch).bus = .waiting ∧ (s.chan ch).xlk.rdReq = none) :=
  ⟨⟨.A, .B, 0x61000010, 0x40000010, (wA (fun c => { c with hrd := { c.hrd with links := 7 } }) |> wB fun c => { c with hrd := { c.hrd with links := 7 } }), (by decide), (by decide), (by decide), (by decide)⟩,
    ⟨.A, 0x61000001, .word, w0, (by decide), (by decide)⟩,
    ⟨.B, .A, 0x40000010, (wA (fun c => { c with hrd := { c.hrd with links := 7 }, xlk := { c.xlk with rdReq := some (.B, 0x40000010) } }) |> wB fun c => { c with hrd := { c.hrd with links := 7 } }), (by decide), (by decide), (by decide)⟩,
    ⟨.A, .B, 0x40000010, (some 5), (wA (fun c => { c with xlk := { c.xlk with rdReq := some (.B, 0x40000010) } }) |> wB fun c => { c with xlk := { c.xlk with rdRep := [(0, some (some 5))] } }), (by decide), (by decide), (by decide), (by decide)⟩,
    ⟨.A, .B, 0x40000010, w0, (by decide)⟩,
    ⟨.A, (wA fun c => { c with xlk := { c.xlk with rdReq := some (.B, 0x40000010) } }), (by decide), (by decide)⟩,
    ⟨.A, 0x40, ((findRow mailboxRows 0x70000040).get (by decide)), w0, (by decide), (by decide), (by decide), (by decide), (by decide), (by decide), (by decide)⟩,
    ⟨.A, 0x41, .word, w0, (by decide), (by decide)⟩,
    ⟨.A, (wA fun c => { c with bus := .waiting }), (by decide), (by decide), (by decide)⟩⟩

theorem test_wit_MpRequestsAreHonouredOrRefused :
    (∃ (ch : Chan) (what : MpRead) (s : State), s.mpReaches ch = true) ∧
    (∃ (ch : Chan) (src peer : Fin 4) (s : State), s.mpReaches ch = true ∧ (s.chan ch).voting = false ∧ (((s.chan ch).rd STW_MODE_MODE = 1 ∨ (s.chan ch).rd HRD_STAT_ROLE = 3 ∨ ∃ o, (s.chan o).live = true ∧ (s.chan o).voting = true ∧ (s.chan o).hrd.cur.absent = ch.num))) ∧
    (∃ (ch : Chan) (mask : Word) (s : State), s.mpReaches ch = true ∧ (s.chan ch).mayReset = true) ∧
    (∃ (ch : Chan) (mask : Word) (s : State), s.mpReaches ch = true ∧ (s.chan ch).mayReset = true ∧ ((∀ b < 17, mask.toNat.testBit b = true → resettable b = true))) ∧
    (∃ (ch : Chan) (s : State), s.mpReaches ch = true ∧ (s.chan ch).mayReset = true) ∧
    (∃ (ch : Chan) (i : Instr) (s : State), s.mpReaches ch = true ∧ (s.chan ch).voting = true ∧ (s.chan ch).rd STW_MODE_MODE ≠ 6 ∧ (s.chan ch).rd STW_MODE_MODE ≠ 7 ∧ (s.chan ch).spares 10 ∧ (((∃ m, i = .mpBlockEnable ch m) ∨ (∃ m, i = .mpBlockReset ch m) ∨ i = .mpChannelReset ch ∨ (∃ x y, i = .mpFolioLoad ch x y)))) ∧
    (∃ (ch : Chan) (hreq : Fin 4) (s : State), s.mpReaches ch = true ∧ ((hreq = 1 ∨ hreq = 2))) ∧
    (∃ (ch : Chan) (s : State), s.mpReaches ch = true ∧ s.mayOpen ch = true) ∧
    (∃ (ch : Chan) (s : State), s.mpReaches ch = true ∧ (s.chan ch).dbg.token = true ∧ (s.chan ch).is STW_DBG_ABSENT = false) ∧
    (∃ (ch : Chan) (s : State), s.mpReaches ch = true ∧ s.mayOpen ch = false ∧ (s.chan ch).spares 10) :=
  ⟨⟨.A, .stewardState, w0, (by decide)⟩,
    ⟨.A, 1, 2, w0, (by decide), (by decide), Or.inl (by decide)⟩,
    ⟨.A, 0x1F, w0, (by decide), (by decide)⟩,
    ⟨.A, (0x1 <<< 4), w0, (by decide), (by decide), (by decide)⟩,
    ⟨.A, w0, (by decide), (by decide)⟩,
    ⟨.A, (.mpChannelReset .A), (wA fun c => (mem c).wr STW_MODE_MODE 2), (by decide), (by decide), (by decide), (by decide), (by unfold Channel.spares; decide), Or.inr (Or.inr (Or.inl rfl))⟩,
    ⟨.A, 2, (wA mem), (by decide), (by decide)⟩,
    ⟨.A, (wA (fun c => { c with otp := { c.otp with lc := 3 }, dbg := { c.dbg with token := true } })), (by decide), (by decide)⟩,
    ⟨.A, (wA fun c => { c with dbg := { c.dbg with token := true } }), (by decide), (by decide), (by decide)⟩,
    ⟨.A, (wA fun c => { c with otp := { c.otp with lc := 3 } }), (by decide), (by decide), (by unfold Channel.spares; decide)⟩⟩

theorem test_wit_RegisterWritesFollowAccessTypes :
    (∃ (ch : Chan) (a : Nat) (v : Word) (row : RegRow) (s : State), (s.chan ch).live = true ∧ a % 4 = 0 ∧ 0x40000000 ≤ a ∧ a < 0x50000000 ∧ findRow channelRows a = some row ∧ actingReg a = false ∧ ((s.chan ch).is STW_SEAL_SEAL && changesLck ((s.chan ch).regs.word a).toNat v.toNat row.flds) = false) ∧
    (∃ (ch : Chan) (a : Nat) (v : Word) (row : RegRow) (s : State), (s.chan ch).live = true ∧ a % 4 = 0 ∧ 0x40000000 ≤ a ∧ a < 0x50000000 ∧ findRow channelRows a = some row ∧ actingReg a = false ∧ (s.chan ch).is STW_SEAL_SEAL = true ∧ changesLck ((s.chan ch).regs.word a).toNat v.toNat row.flds = true ∧ (s.chan ch).blockOn 0 = true ∧ (s.chan ch).fcc.tag = none ∧ (s.chan ch).spares 9) ∧
    (∃ (ch : Chan) (v : Word) (s : State), (s.chan ch).live = true ∧ v.getLsbD 0 = true) ∧
    (∃ (ch : Chan) (a : Nat) (v : Word) (z : AccSize) (s : State), (s.chan ch).live = true ∧ (s.chan ch).is STW_SEAL_SEAL = false ∧ inMem .sram a (AccSize.bytes z) = true) ∧
    (∃ (ch : Chan) (ag : Agent) (m : MemId) (a : Nat) (v : Word) (z : AccSize) (s : State), (s.chan ch).live = true ∧ agentTcm ag = some m ∧ inMem m a (AccSize.bytes z) = true) ∧
    (∃ (ch : Chan) (ag : Agent) (a : Nat) (v : Word) (s : State), (s.chan ch).live = true ∧ (ag = .fce0 ∨ ag = .fce1) ∧ ((0x40080000 ≤ a ∧ a < 0x40090000 ∨ 0x40060000 ≤ a ∧ a < 0x40070000))) ∧
    (∃ (ch : Chan) (ag : Agent) (a : Nat) (v : Word) (z : AccSize) (s : State), (s.chan ch).live = true ∧ ag ≠ .mp ∧ 0x40000000 ≤ a ∧ ((z ≠ .word ∨ (agentAddr ag a = none ∧ agentReadOnly ag a = false) ∨ (ag = .pair ∧ a < 0x50000000 ∧ findRow channelRows a = none ∧ ¬(0x400A8000 ≤ a ∧ a < 0x400A9000) ∧ ¬(0x400C1000 ≤ a ∧ a < 0x400C1700))))) ∧
    (∃ (ch : Chan) (a : Nat) (v : Word) (z : AccSize) (s : State), s.mss.mpRuns = true) :=
  ⟨⟨.A, STW_BLKSTAT, 0xFFFFFFFF, ((findRow channelRows STW_BLKSTAT).get (by decide)), w0, (by decide), (by decide), (by decide), (by decide), (by decide), (by decide), (by decide)⟩,
    ⟨.A, (FCC_CFG 5), 0xFFFFFFFF, ((findRow channelRows (FCC_CFG 5)).get (by decide)), (wA fun c => c.wr STW_SEAL_SEAL 1), (by decide), (by decide), (by decide), (by decide), (by decide), (by decide), (by decide), (by decide), (by decide), (by decide), (by unfold Channel.spares; decide)⟩,
    ⟨.A, 1, w0, (by decide), (by decide)⟩,
    ⟨.A, 0x20000FFC, 0x12345678, .word, w0, (by decide), (by decide), (by decide)⟩,
    ⟨.A, .fce0, .fce0, ((memRange .fce0).1), 0x12345678, .word, w0, (by decide), (by decide), (by decide)⟩,
    ⟨.A, .fce1, 0x40080000, 7, w0, (by decide), (by decide), (by decide)⟩,
    ⟨.A, .pair, 0x40000FFC, 7, .half, w0, (by decide), (by decide), (by decide), (by decide)⟩,
    ⟨.A, 0x7FFFC, 7, .word, w0, (by decide)⟩⟩

theorem test_wit_FolioSourcesAreTried :
    (∃ (ch : Chan) (v : Word) (s : State), (s.chan ch).live = true ∧ (s.chan ch).is STW_SEAL_SEAL = false ∧ (s.chan ch).fol.started = false ∧ (s.chan ch).is HRD_NEXTSRC_VALID = false ∧ v.toNat % 4 ≠ 3 ∧ (s.chan ch).mlink = true ∧ (s.mss.port (s.chan ch).me).up = true) ∧
    (∃ (ch : Chan) (v : Word) (s : State), (s.chan ch).live = true ∧ (s.chan ch).is STW_SEAL_SEAL = false ∧ (s.chan ch).fol.started = false ∧ (s.chan ch).is HRD_NEXTSRC_VALID = false ∧ v.toNat % 4 = 3 ∧ v.toNat / 16 % 4 ≠ 0 ∧ v.toNat / 16 % 4 ≠ (s.chan ch).me.num) ∧
    (∃ (ch : Chan) (v : Word) (s : State), (s.chan ch).live = true ∧ (s.chan ch).is STW_SEAL_SEAL = false ∧ (s.chan ch).fol.started = false ∧ (s.chan ch).is HRD_NEXTSRC_VALID = true ∧ (s.chan ch).rd HRD_NEXTSRC_SRC ≠ 3 ∧ (s.chan ch).mlink = true ∧ (s.mss.port (s.chan ch).me).up = true) ∧
    (∃ (ch : Chan) (v : Word) (s : State), (s.chan ch).live = true ∧ (s.chan ch).is STW_SEAL_SEAL = false ∧ (s.chan ch).fol.started = true) ∧
    (∃ (ch : Chan) (s : State), (s.chan ch).live = true ∧ (s.chan ch).fol.asked = true ∧ (s.chan ch).mlink = true ∧ (s.mss.port (s.chan ch).me).up = true ∧ s.mss.ready = true ∧ s.mss.mpRuns = true ∧ s.mss.active < 2 ∧ (s.chan ch).fol.src < 3) ∧
    (∃ (ch : Chan) (s : State), (s.chan ch).live = true ∧ (s.chan ch).fol.asked = true ∧ (s.chan ch).fol.src = 0 ∧ (s.chan ch).spares 63 ∧ (s.chan ch).rd (FOL_RES_CODE 0) = 0xFF ∧ (s.chan ch).rd (FOL_RES_CODE 1) = 0xFF) ∧
    (∃ (ch : Chan) (s : State), (s.chan ch).live = true ∧ (s.chan ch).fol.waitPeer = true ∧ (s.chan ch).fol.cur = 0) ∧
    (∃ (ch requester : Chan) (s : State), (s.chan requester).live = true ∧ (s.chan requester).fol.waitPeer = true ∧ (s.chan requester).fol.peerAsked = true ∧ s.server (s.chan requester) = some ch) ∧
    (∃ (ch : Chan) (s : State), (s.chan ch).live = true ∧ (s.chan ch).fol.waitPeer = true ∧ (s.chan ch).fol.cur = 0 ∧ (s.chan ch).fcc.tag = none ∧ (s.chan ch).spares 8) :=
  ⟨⟨.A, 1, w0, (by decide), (by decide), (by decide), (by decide), (by decide), (by decide), (by decide)⟩,
    ⟨.A, 0x23, w0, (by decide), (by decide), (by decide), (by decide), (by decide), (by decide), (by decide)⟩,
    ⟨.A, 0, (wA fun c => (c.wr HRD_NEXTSRC_VALID 1).wr HRD_NEXTSRC_SRC 2), (by decide), (by decide), (by decide), (by decide), (by decide), (by decide), (by decide)⟩,
    ⟨.A, 0, (wA (fol fun x => { x with started := true })), (by decide), (by decide), (by decide)⟩,
    ⟨.A, (wA (fol fun x => { x with asked := true, src := 2 })), (by decide), (by decide), (by decide), (by decide), (by decide), (by decide), (by decide), (by decide)⟩,
    ⟨.A, (wA fun c => fol (fun x => { x with asked := true }) ((c.wr (FOL_RES_CODE 0) 0xFF).wr (FOL_RES_CODE 1) 0xFF)), (by decide), (by decide), (by decide), (by unfold Channel.spares; decide), (by decide), (by decide)⟩,
    ⟨.A, (wA (fol fun x => { x with waitPeer := true })), (by decide), (by decide), (by decide)⟩,
    ⟨.B, .A, (wA (fun c => linked (fol (fun x => { x with waitPeer := true, peerAsked := true }) c)) |> wB fun c => linked { (c.wr FOL_STAT_RETAINED 1).wr STW_SEAL_SEAL 1 with pwr := { c.pwr with done7 := true } }), (by decide), (by decide), (by decide), (by decide)⟩,
    ⟨.A, (wA (fol fun x => { x with waitPeer := true })), (by decide), (by decide), (by decide), (by decide), (by unfold Channel.spares; decide)⟩⟩

theorem test_wit_FolioPartsAreCheckedAndApplied :
    (∃ (ch : Chan) (src : Src) (size : Nat) (bs : List Byte) (s : State), (s.chan ch).live = true ∧ (s.chan ch).fol.accepted = false ∧ (s.chan ch).fol.cur = srcNum src ∧ (s.chan ch).rd FOL_STAT_STAGE = 1 ∧ stage1 (if srcNum src = 3 then size else 4194304) bs = none) ∧
    (∃ (ch : Chan) (src : Src) (size : Nat) (bs : List Byte) (s : State), (s.chan ch).live = true ∧ (s.chan ch).fol.accepted = false ∧ (s.chan ch).fol.cur = srcNum src ∧ (s.chan ch).rd FOL_STAT_STAGE = 2) ∧
    (∃ (ch : Chan) (src : Src) (size : Nat) (bs : List Byte) (s : State), (s.chan ch).live = true ∧ (s.chan ch).fol.accepted = false ∧ (s.chan ch).fol.cur = srcNum src ∧ (s.chan ch).rd FOL_STAT_STAGE = 5 ∧ ((∀ o, o ≠ ch → (s.chan o).voting = false)) ∧ (s.chan ch).me = ch) ∧
    (∃ (ch : Chan) (size : Nat) (bs : List Byte) (e : FErr) (s : State), (s.chan ch).live = true ∧ (s.chan ch).fol.accepted = false ∧ (s.chan ch).fol.cur = 1 ∧ (s.chan ch).rd FOL_STAT_STAGE = 1 ∧ stage1 4194304 bs = some e ∧ (s.chan ch).fol.todo = [2, 3] ∧ (s.chan ch).spares 63) ∧
    (∃ (ch : Chan) (s : State), (s.chan ch).live = true ∧ (s.chan ch).fol.accepted = true) :=
  ⟨⟨.A, .slotA, 0x200, spine, (wA fun c => fol (fun x => { x with cur := 1 }) (c.wr FOL_STAT_STAGE 1)), (by decide), (by decide), (by decide), (by decide), (by decide)⟩,
    ⟨.A, .slotA, 0x200, ([]), (wA fun c => fol (fun x => { x with cur := 1, todo := [2, 3], spine := spine }) (c.wr FOL_STAT_STAGE 2)), (by decide), (by decide), (by decide), (by decide)⟩,
    ⟨.A, .slotA, 0x200, ([]), (wA fun c => fol (fun x => { x with cur := 1, todo := [2, 3], spine := spine }) (c.wr FOL_STAT_STAGE 5)), (by decide), (by decide), (by decide), (by decide), (by intro o; cases o <;> decide), (by decide)⟩,
    ⟨.A, 0, ([]), ({ code := 0x01 }), (wA fun c => fol (fun x => { x with cur := 1, todo := [2, 3] }) (c.wr FOL_STAT_STAGE 1)), (by decide), (by decide), (by decide), (by decide), (by decide), (by decide), (by unfold Channel.spares; decide)⟩,
    ⟨.A, (wA (fol fun x => { x with accepted := true, cur := 1 })), (by decide), (by decide)⟩⟩

theorem test_wit_RoundsHoldHeartbeatsAndDecide :
    (∃ (ch : Chan) (s : State), s.noTokens ∧ (s.chan ch).live = true ∧ (s.chan ch).voting = true ∧ (s.chan ch).hrd.next = none ∧ (s.chan ch).fcc.leave = false) ∧
    (∃ (ch : Chan) (h : Herd) (s : State), s.noTokens ∧ (s.chan ch).live = true ∧ (s.chan ch).voting = true ∧ (s.chan ch).hrd.next = some (h, 1) ∧ (s.chan ch).fcc.leave = false ∧ (s.chan ch).spares 48 ∧ (s.chan ch).spares 49 ∧ (s.chan ch).spares 50) ∧
    (∃ (ch : Chan) (h : Herd) (s : State), s.noTokens ∧ (s.chan ch).live = true ∧ (s.chan ch).voting = true ∧ (s.chan ch).hrd.next = some (h, 4) ∧ (s.chan ch).fcc.leave = false ∧ (∀ o, (s.chan o).hrd.cur.ret ≠ (s.chan ch).me.num)) ∧
    (∃ (ch : Chan) (s : State), s.noTokens ∧ (s.chan ch).live = true ∧ (s.chan ch).voting = true ∧ (s.chan ch).fcc.leave = true ∧ (∀ o, (s.chan o).hrd.cur.ret ≠ (s.chan ch).me.num)) ∧
    (∃ (ch : Chan) (env : Env) (s : State), (s.chan ch).live = true ∧ (s.chan ch).voting = true ∧ (s.chan ch).spares 15 ∧ (s.chan ch).spares 16) ∧
    (∃ (ch : Chan) (s : State), (s.chan ch).live = true ∧ (s.chan ch).is STW_SEAL_SEAL = true) ∧
    (∃ (ch : Chan) (pkt : BitVec 64) (off : Nat) (s : State), (s.chan ch).live = true ∧ hbGood (s.chan ch).me 1 20000 pkt off = true ∧ (s.chan ch).hearsN (pktField pkt 4 2) = true) ∧
    (∃ (ch : Chan) (pkt : BitVec 64) (off : Nat) (s : State), (s.chan ch).live = true ∧ hbGood (s.chan ch).me 2 45000 pkt off = true ∧ (s.chan ch).hearsN (pktField pkt 4 2) = true) ∧
    (∃ (ch : Chan) (pkt : BitVec 64) (off : Nat) (s : State), (s.chan ch).live = true ∧ 20000 < off) ∧
    (∃ (ch : Chan) (pkt : BitVec 64) (off : Nat) (i : Instr) (s : State), (s.chan ch).live = true ∧ (s.chan ch).hearsN (pktField pkt 4 2) = false ∧ ((i = .hb1Received ch pkt true off ∨ i = .hb2Received ch pkt true off))) ∧
    (∃ (ch : Chan) (pkt : BitVec 64) (off : Nat) (s : State), (s.chan ch).live = true) ∧
    (∃ (ch : Chan) (s : State), (s.chan ch).live = true) :=
  ⟨⟨.A, (wA full), ⟨by intro c; cases c <;> decide, by decide⟩, (by decide), (by decide), (by decide), (by decide)⟩,
    ⟨.A, ({ mode := 3 }), (wA fun c => hrd (fun x => { x with next := some ({ mode := 3 }, 1) }) (full c)), ⟨by intro c; cases c <;> decide, by decide⟩, (by decide), (by decide), (by decide), (by decide), (by unfold Channel.spares; decide), (by unfold Channel.spares; decide), (by unfold Channel.spares; decide)⟩,
    ⟨.A, ({ mode := 3 }), (wA fun c => hrd (fun x => { x with next := some ({ mode := 3 }, 4) }) (full c)), ⟨by intro c; cases c <;> decide, by decide⟩, (by decide), (by decide), (by decide), (by decide), (by intro o; cases o <;> decide)⟩,
    ⟨.A, (wA fun c => { full c with fcc := { c.fcc with leave := true } }), ⟨by intro c; cases c <;> decide, by decide⟩, (by decide), (by decide), (by decide), (by intro o; cases o <;> decide)⟩,
    ⟨.A, (⟨0, 0⟩), (wA full), (by decide), (by decide), (by unfold Channel.spares; decide), (by unfold Channel.spares; decide)⟩,
    ⟨.A, (wA fun c => c.wr STW_SEAL_SEAL 1), (by decide), (by decide)⟩,
    ⟨.A, 0xA1, 20000, (wA linked), (by decide), (by decide), (by decide)⟩,
    ⟨.A, 0xE2, 45000, (wA linked), (by decide), (by decide), (by decide)⟩,
    ⟨.A, 0, 20001, w0, (by decide), (by decide)⟩,
    ⟨.A, 0xA1, 0, (.hb1Received .A 0xA1 true 0), w0, (by decide), (by decide), (by decide)⟩,
    ⟨.A, 0, 0, w0, (by decide)⟩,
    ⟨.A, w0, (by decide)⟩⟩

theorem test_wit_ViewIsALargestJoinedSet : (∃ (l : List (Nat × BitVec 64)) (cand m : Nat), cand < 8 ∧ 0 < m ∧ m < 8 ∧ m &&& cand = m ∧ joined l m = true) :=
  ⟨([]), 7, 4, (by decide), (by decide), (by decide), (by decide), (by decide)⟩

theorem test_wit_ModeFollowsTheLevel :
    (∃ (h : Herd) (l : List FolRec) (i : ModeIn) (since : Nat), (h.mode = 2 ∨ h.mode = 3 ∨ h.mode = 4) ∧ h.stopCauses l i = [] ∧ i.keyOff = false ∧ h.hold = none ∧ i.req = 0 ∧ h.planned = false ∧ i.grant = false) ∧
    (∃ (h : Herd) (l : List FolRec) (i : ModeIn) (since : Nat), h.mode = 3 ∧ h.stopCauses l i = [] ∧ i.keyOff = false ∧ h.hold = none ∧ i.req = 0 ∧ h.planned = true ∧ i.level = 2) ∧
    (∃ (h : Herd) (l : List FolRec) (i : ModeIn) (since : Nat), h.mode = 4 ∧ expired h.simplex (simplexRounds l) = true ∧ i.req = 0) ∧
    (∃ (h : Herd) (l : List FolRec) (i : ModeIn) (since : Nat), h.mode = 5 ∧ i.req = 0) :=
  ⟨⟨({ mode := 2 }), ([]), (⟨2, 7, false, 0, false, false, 0⟩), 0, (by decide), (by decide), (by decide), (by decide), (by decide), (by decide), (by decide)⟩,
    ⟨({ mode := 3, planned := true }), ([]), (⟨2, 7, false, 0, false, false, 0⟩), 0, (by decide), (by decide), (by decide), (by decide), (by decide), (by decide), (by decide)⟩,
    ⟨({ mode := 4, simplex := some 0 }), ([]), (⟨0, 1, false, 0, false, false, 0⟩), 0, (by decide), (by decide), (by decide)⟩,
    ⟨({ mode := 5 }), ([]), (⟨2, 7, false, 0, false, false, 0⟩), 0, (by decide), (by decide)⟩⟩

theorem test_wit_ModeTimersAndRequests :
    (∃ (ch : Chan) (s : State), (s.chan ch).live = true ∧ (s.chan ch).voting = true ∧ (s.chan ch).hrd.cur.mode = 4) ∧
    (∃ (ch : Chan) (s : State), (s.chan ch).live = true ∧ (s.chan ch).voting = true ∧ (s.chan ch).hrd.cur.idegRun ≠ none) ∧
    (∃ (ch : Chan) (s : State), (s.chan ch).live = true ∧ (s.chan ch).voting = true ∧ votesValid (s.chan ch).hrd.cur.votes = true) ∧
    (∃ (ch : Chan) (s : State), (s.chan ch).live = true ∧ (s.chan ch).voting = true ∧ (s.chan ch).hrd.cur.mode = 1) ∧
    (∃ (ch : Chan) (s : State), (s.chan ch).live = true ∧ (s.chan ch).voting = true ∧ (s.chan ch).hrd.cur.mode = 5 ∧ (s.chan ch).hrd.cur.brake = 1) ∧
    (∃ (ch : Chan) (s : State), (s.chan ch).live = true ∧ (s.chan ch).voting = true ∧ (s.chan ch).hrd.cur.mode = 5 ∧ (s.chan ch).hrd.cur.stationary = false ∧ 2 * (s.chan ch).hrd.decel < decelOf (s.chan ch).fol.recs) ∧
    (∃ (ch : Chan) (s : State), (s.chan ch).live = true ∧ (s.chan ch).voting = true ∧ (s.chan ch).hrd.speed < 20 ∧ (s.chan ch).reactDeclared 3 = false) ∧
    (∃ (ch : Chan) (i : Instr) (req : Nat) (s : State), ((i = .modeReqLeaveService ch ∧ req = 2 ∨ i = .modeReqSafeStop ch ∧ req = 5 ∨ i = .modeReqPark ch ∧ req = 7 ∨ i = .modeReqService ch ∧ req = 6 ∧ (s.chan ch).lockstep = true)) ∧ (s.chan ch).live = true ∧ (s.chan ch).voting = true) ∧
    (∃ (ch : Chan) (i : Instr) (s : State), ((i = .modeReqLeaveService ch ∨ i = .modeReqSafeStop ch ∨ i = .modeReqPark ch ∨ i = .modeReqService ch ∧ (s.chan ch).lockstep = true)) ∧ (s.chan ch).live = true ∧ (s.chan ch).voting = false) ∧
    (∃ (ch : Chan) (s : State), (s.chan ch).live = true ∧ (s.chan ch).lockstep = false ∧ (s.chan ch).voting = false ∧ (s.chan ch).localActive 3 = true ∧ (s.chan ch).rd STW_MODE_MODE = 1) :=
  ⟨⟨.A, (wA fun c => cur (fun h => { h with mode := 4, simplex := some 3 }) (full c)), (by decide), (by decide), (by decide)⟩,
    ⟨.A, (wA fun c => cur (fun h => { h with ideg := true, idegRun := some 3 }) (full c)), (by decide), (by decide), (by decide)⟩,
    ⟨.A, (wA full), (by decide), (by decide), (by decide)⟩,
    ⟨.A, (wA mem), (by decide), (by decide), (by decide)⟩,
    ⟨.A, (wA fun c => cur (fun h => { h with mode := 5, brake := 1 }) (full c)), (by decide), (by decide), (by decide), (by decide)⟩,
    ⟨.A, (wA fun c => fol (fun x => { x with recs := [⟨0x0900, 0, 0, [5, 0, 0, 100]⟩] }) (cur (fun h => { h with mode := 5, brake := 1 }) (full c))), (by decide), (by decide), (by decide), (by decide), (by decide)⟩,
    ⟨.A, (wA fun c => hrd (fun h => { h with speed := 19 }) (full c)), (by decide), (by decide), (by decide), (by decide)⟩,
    ⟨.A, (.modeReqService .A), 6, (wA full), (by decide), (by decide), (by decide)⟩,
    ⟨.A, (.modeReqPark .A), w0, (by decide), (by decide), (by decide)⟩,
    ⟨.A, (wA fun c => ((((c.wr CMP_STAT_SPLIT 1).wrWord (SIN_CFG 0 0) 0).wrWord (SIN_CFG 0 1) 0x300).wr SIN_LOCAL_STATE 2)), (by decide), (by decide), (by decide), (by decide), (by decide)⟩⟩

theorem test_wit_ChannelsJoinAndForm :
    (∃ (ch : Chan) (rec : JoinRec) (s : State), (s.chan ch).live = true ∧ (s.chan ch).voting = true ∧ rec.from_ ≠ (s.chan ch).me ∧ (s.chan ch).hears rec.from_ = true) ∧
    (∃ (ch from_ : Chan) (rec : JoinRec) (gen round : Word) (tb : BitVec 48) (i : Instr) (s : State), (s.chan ch).live = true ∧ ((i = .joinRecord ch ⟨rec, false⟩ ∨ i = .admissionReply ch from_ gen round ⟨tb, false⟩))) ∧
    (∃ (ch from_ : Chan) (gen round : Word) (tb : BitVec 48) (s : State), (s.chan ch).live = true ∧ (s.chan from_).voting = true ∧ (s.chan from_).hrd.next = none ∧ (s.chan ch).role = 4 ∧ (s.chan ch).hrd.asking = true ∧ (s.chan ch).voting = false ∧ (s.chan ch).hears from_ = true ∧ (s.chan from_).hrd.cur.view.testBit ((s.chan ch).me.num - 1) = true) ∧
    (∃ (ch : Chan) (s : State), (s.chan ch).live = true ∧ (s.chan ch).role = 4 ∧ (s.chan ch).pwr.done7 = true ∧ (s.chan ch).fcc.stayOut = false ∧ (s.chan ch).cmp.swept = false ∧ (s.chan ch).lockstep = true ∧ (s.chan ch).hrd.direct = [] ∧ (s.chan ch).hrd.relayed = [] ∧ s.hashOwner (s.chan ch).me = (s.chan ch).me ∧ (s.chan ch).spares 15) ∧
    (∃ (ch : Chan) (s : State), (s.chan ch).live = true ∧ (s.chan ch).voting = true ∧ (s.chan ch).hrd.cur.shadow ≠ 0 ∧ (s.chan ch).hrd.cur.shNeed ≤ (s.chan ch).hrd.cur.shCycles) ∧
    (∃ (ch : Chan) (s : State), (s.chan ch).live = true ∧ (s.chan ch).voting = true) :=
  ⟨⟨.A, (⟨.B, 0, 0, 0, false⟩), (wA fun c => linked (full c)), (by decide), (by decide), (by decide), (by decide)⟩,
    ⟨.A, .B, (⟨.B, 0, 0, 0, false⟩), 5, 7, 99, (.admissionReply .A .B 5 7 ⟨99, false⟩), w0, (by decide), (by decide)⟩,
    ⟨.A, .B, 5, 7, 99, (wA (fun c => linked (hrd (fun h => { h with asking := true }) (c.wr HRD_STAT_ROLE 4))) |> wB fun c => full c), (by decide), (by decide), (by decide), (by decide), (by decide), (by decide), (by decide), (by decide)⟩,
    ⟨.A, (wA fun c => { c.wr HRD_STAT_ROLE 4 with pwr := { c.pwr with done7 := true } }), (by decide), (by decide), (by decide), (by decide), (by decide), (by decide), (by decide), (by decide), (by decide), (by unfold Channel.spares; decide)⟩,
    ⟨.A, (wA fun c => cur (fun h => { h with shadow := 2, shNeed := 3, shCycles := 3 }) (full c)), (by decide), (by decide), (by decide), (by decide)⟩,
    ⟨.A, (wA full), (by decide), (by decide)⟩⟩

theorem test_wit_PlacementSwitchesAndJobs :
    (∃ (ch : Chan) (s : State), (s.chan ch).live = true ∧ (s.chan ch).voting = true ∧ (s.chan ch).hrd.dropAt = 0 ∧ (s.chan ch).hrd.round % 10 = 0) ∧
    (∃ (ch : Chan) (s : State), (s.chan ch).live = true ∧ (s.chan ch).hrd.round % 10 = 0 ∧ (s.chan ch).hrd.dropAt ≠ 0 ∧ (s.chan ch).hrd.dropAt ≤ (s.chan ch).hrd.round) ∧
    (∃ (ch : Chan) (task : Fin 256) (o : PObj) (s : State), (s.chan ch).live = true ∧ (s.chan ch).taskDecl task = some o ∧ (s.chan ch).addrOf true task ≠ 0 ∧ (kget noPlace (s.chan ch).hrd.cur.tasks task).copy = true ∧ (kget noPlace (s.chan ch).hrd.cur.tasks task).b1 ≠ 0) ∧
    (∃ (ch : Chan) (task : Fin 256) (o : PObj) (s : State), (s.chan ch).live = true ∧ (s.chan ch).taskDecl task = some o ∧ o.id = task ∧ (s.chan ch).addrOf true task = 0 ∧ kget 0 (s.chan ch).hrd.lastAddr task ≠ 0 ∧ (kget noPlace (s.chan ch).hrd.cur.tasks task).moved = true) ∧
    (∃ (ch : Chan) (task : Fin 256) (bytes : List Byte) (o : PObj) (s : State), (s.chan ch).live = true ∧ (s.chan ch).taskDecl task = some o ∧ (s.chan ch).addrOf true task ≠ 0 ∧ bytes.length = o.size ∧ (kget {} (s.chan ch).hrd.jobs task).awaiting = true ∧ (s.chan ch).hrd.links &&& ownLinks (s.chan ch).me ≠ 0) ∧
    (∃ (ch : Chan) (task : Fin 256) (bytes : List Byte) (o : PObj) (s : State), (s.chan ch).live = true ∧ (s.chan ch).taskDecl task = some o ∧ (s.chan ch).addrOf true task = 0 ∧ bytes.length = o.size ∧ (kget noPlace (s.chan ch).hrd.cur.tasks task).b1 ≠ 0 ∧ (kget noPlace (s.chan ch).hrd.cur.tasks task).copy = true ∧ (kget noPlace (s.chan ch).hrd.cur.tasks task).atB2.testBit ch.idx = true ∧ (s.chan ch).hrd.links &&& ownLinks (s.chan ch).me ≠ 0) ∧
    (∃ (ch : Chan) (home : Fin 256) (off : Nat) (v : Word) (i : Instr) (s : State), (s.chan ch).live = true ∧ (s.chan ch).homeHas home off = true ∧ (s.chan ch).hrd.links &&& ownLinks (s.chan ch).me ≠ 0 ∧ ((i = .dataHomeWrite ch home off v ∨ i = .dataHomeUpdateReceived ch home off ⟨v, true⟩))) ∧
    (∃ (ch : Chan) (task : Fin 256) (s : State), (s.chan ch).live = true ∧ (s.chan ch).runs task = true ∧ (kget {} (s.chan ch).hrd.jobs task).awaiting = false) ∧
    (∃ (ch : Chan) (task : Fin 256) (s : State), (s.chan ch).live = true ∧ (s.chan ch).runs task = true ∧ (kget {} (s.chan ch).hrd.jobs task).awaiting = true) ∧
    (∃ (ch : Chan) (task : Fin 256) (crc : Word) (o : PObj) (t0 : Nat) (later : List Nat) (s : State), (s.chan ch).live = true ∧ (s.chan ch).isShadow = false ∧ (s.chan ch).taskDecl task = some o ∧ o.id = task ∧ (kget {} (s.chan ch).hrd.jobs task).starts = t0 :: later) :=
  ⟨⟨.A, (wA full), (by decide), (by decide), (by decide), (by decide)⟩,
    ⟨.A, (wA fun c => hrd (fun h => { h with dropAt := 10, round := 10 }) (full c)), (by decide), (by decide), (by decide), (by decide)⟩,
    ⟨.A, 5, (⟨5, 0, 2, true, 0, 0, 10, 16, 100⟩), (wA fun c => cur (fun h => { h with tasks := [(5, { copy := true, b1 := 10 })] }) (placed (linked (full c)))), (by decide), (by decide), (by decide), (by decide), (by decide)⟩,
    ⟨.A, 5, (⟨5, 0, 2, true, 0, 0, 10, 16, 100⟩), (wA fun c => cur (fun h => { h with tasks := [(5, { moved := true })] }) (hrd (fun h => { h with lastAddr := [(5, 0x20000100)] }) ((placed (linked (full c))).wrWord (addrReg true 5) 0))), (by decide), (by decide), (by decide), (by decide), (by decide), (by decide)⟩,
    ⟨.A, 5, (List.replicate 16 7), (⟨5, 0, 2, true, 0, 0, 10, 16, 100⟩), (wA fun c => hrd (fun h => { h with jobs := [(5, { awaiting := true })] }) (placed (linked (full c)))), (by decide), (by decide), (by decide), (by decide), (by decide), (by decide)⟩,
    ⟨.A, 5, (List.replicate 16 7), (⟨5, 0, 2, true, 0, 0, 10, 16, 100⟩), (wA fun c => cur (fun h => { h with tasks := [(5, { copy := true, b1 := 10, atB2 := 1 })] }) ((placed (linked (full c))).wrWord (addrReg true 5) 0)), (by decide), (by decide), (by decide), (by decide), (by decide), (by decide), (by decide), (by decide)⟩,
    ⟨.A, 6, 12, 0xDEADBEEF, (.dataHomeWrite .A 6 12 0xDEADBEEF), (wA fun c => (placed (linked (full c)))), (by decide), (by decide), (by decide), (by decide)⟩,
    ⟨.A, 5, (wA fun c => placed (full c)), (by decide), (by decide), (by decide)⟩,
    ⟨.A, 5, (wA fun c => hrd (fun h => { h with jobs := [(5, { awaiting := true })] }) (placed (full c))), (by decide), (by decide), (by decide)⟩,
    ⟨.A, 5, 77, (⟨5, 0, 2, true, 0, 0, 10, 16, 100⟩), 0, ([]), (wA fun c => hrd (fun h => { h with jobs := [(5, { starts := [0] })] }) (placed (full c))), (by decide), (by decide), (by decide), (by decide), (by decide)⟩⟩

theorem test_wit_AbsencesAreRequestedAndScheduled :
    (∃ (ch : Chan) (i : Instr) (req : Nat) (s : State), ((i = .hreqUpdateRotation ch ∧ req = 1 ∨ i = .hreqProofTest ch ∧ req = 2 ∨ i = .hreqAbort ch ∧ req = 3)) ∧ (s.chan ch).live = true ∧ (s.chan ch).voting = true) ∧
    (∃ (ch : Chan) (i : Instr) (s : State), ((i = .hreqUpdateRotation ch ∨ i = .hreqProofTest ch ∨ i = .hreqAbort ch ∨ i = .repairRequest ch)) ∧ (s.chan ch).live = true ∧ (s.chan ch).voting = false) ∧
    (∃ (ch : Chan) (s : State), (s.chan ch).live = true ∧ (s.chan ch).voting = true ∧ (s.chan ch).health ≠ 0) ∧
    (∃ (ch : Chan) (s : State), (s.chan ch).live = true ∧ (((s.chan ch).hrd.hreq ≠ 0 ∨ (s.chan ch).hrd.repair = true))) ∧
    (∃ (ch : Chan) (s : State), (s.chan ch).live = true ∧ (s.chan ch).voting = true ∧ (s.chan ch).hrd.cur.gap ≠ none) ∧
    (∃ (ch : Chan) (s : State), (s.chan ch).live = true ∧ (s.chan ch).voting = true ∧ (s.chan ch).hrd.cur.hold ≠ none) ∧
    (∃ (ch : Chan) (s : State), (s.chan ch).live = true ∧ (s.chan ch).voting = true) ∧
    (∃ (ch : Chan) (s : State), (s.chan ch).live = true ∧ (s.chan ch).voting = true ∧ (s.chan ch).hrd.cur.overdue = false ∧ (s.chan ch).blockOn 3 = true ∧ (s.chan ch).fcc.tag = none ∧ (s.chan ch).spares 17) ∧
    (∃ (ch : Chan) (s : State), (s.chan ch).live = true ∧ (s.chan ch).voting = true ∧ (s.chan ch).hrd.cur.commitPend = true ∧ s.served ch = true ∧ s.mss.trial = none) :=
  ⟨⟨.A, (.hreqProofTest .A), 2, (wA full), (by decide), (by decide), (by decide)⟩,
    ⟨.A, (.repairRequest .A), w0, (by decide), (by decide), (by decide)⟩,
    ⟨.A, (wA fun c => (full c).wr (FCC_SEV_SRC 0) 2), (by decide), (by decide), (by decide)⟩,
    ⟨.A, (wA fun c => hrd (fun h => { h with hreq := 1 }) (full c)), (by decide), (by decide)⟩,
    ⟨.A, (wA fun c => cur (fun h => { h with rotKind := 1, gap := some 5 }) (full c)), (by decide), (by decide), (by decide)⟩,
    ⟨.A, (wA fun c => cur (fun h => { h with hold := some 5 }) (full c)), (by decide), (by decide), (by decide)⟩,
    ⟨.A, (wA full), (by decide), (by decide)⟩,
    ⟨.A, (wA full), (by decide), (by decide), (by decide), (by decide), (by decide), (by unfold Channel.spares; decide)⟩,
    ⟨.A, (wA fun c => cur (fun h => { h with commitPend := true }) (full c)), (by decide), (by decide), (by decide), (by decide), (by decide)⟩⟩

theorem test_wit_ComparatorAndDigestsStopTheChannel :
    (∃ (ch : Chan) (group : Fin 64) (pc : Word) (s : State), (s.chan ch).live = true ∧ (s.chan ch).is CMP_STAT_SPLIT = false) ∧
    (∃ (ch : Chan) (kind : SelfKind) (pc : Word) (s : State), (s.chan ch).live = true ∧ (s.chan ch).is CMP_STAT_SPLIT = false) ∧
    (∃ (ch : Chan) (s : State), (s.chan ch).failSilent = true ∧ (s.chan ch).pwr.off = false) ∧
    (∃ (ch : Chan) (s : State), (s.chan ch).live = true ∧ (s.chan ch).is CMP_STAT_SPLIT = false ∧ (s.chan ch).rd STW_DBG_HALTED % 2 = 0) ∧
    (∃ (ch : Chan) (lead trail : List Word) (stall : Nat) (s : State), (s.chan ch).live = true ∧ (s.chan ch).is CMP_STAT_DIGBUSY = true ∧ crc32c (wordBytes lead) = crc32c (wordBytes trail)) ∧
    (∃ (ch : Chan) (lead trail : List Word) (stall : Nat) (s : State), (s.chan ch).live = true ∧ (s.chan ch).is CMP_STAT_DIGBUSY = true ∧ crc32c (wordBytes lead) ≠ crc32c (wordBytes trail) ∧ (s.chan ch).blockOn 2 = true ∧ (s.chan ch).fcc.tag = none ∧ (s.chan ch).spares 2) ∧
    (∃ (ch : Chan) (v : Word) (s : State), (s.chan ch).live = true ∧ (s.chan ch).is STW_SEAL_SEAL = false ∧ (s.chan ch).is CMP_STAT_SWEEPRUN = true ∧ v.toNat / 2 ^ 31 = 1 ∧ (s.chan ch).hasRoom = true ∧ (s.chan ch).cmp.step < (s.chan ch).lastStep ∧ (s.chan ch).cmp.step < 128 ∧ v.toNat / 2 ^ 10 % 4 = 0 ∧ v.toNat / 2 ^ 8 % 2 = (s.chan ch).cmp.step / 64 ∧ v.toNat % 64 = (s.chan ch).cmp.step % 64) ∧
    (∃ (ch : Chan) (s : State), (s.chan ch).live = true ∧ (s.chan ch).is CMP_STAT_SWEEPRUN = true ∧ (s.chan ch).voted = false ∧ (s.chan ch).hasRoom = true ∧ (s.chan ch).fcc.tag = none ∧ (((s.chan ch).severe 1 = true ∨ (s.chan ch).severeN 1 ≤ kget 0 (s.chan ch).fcc.runs 1 + 1))) :=
  ⟨⟨.A, 63, 0x100, w0, (by decide), (by decide)⟩,
    ⟨.A, (.checker 1), 0x100, w0, (by decide), (by decide)⟩,
    ⟨.A, (wA fun c => { c with failSilent := true }), (by decide), (by decide)⟩,
    ⟨.A, w0, (by decide), (by decide), (by decide)⟩,
    ⟨.A, ([1, 2]), ([1, 2]), 40, (wA fun c => c.wr CMP_STAT_DIGBUSY 1), (by decide), (by decide), (by decide)⟩,
    ⟨.A, ([1, 2]), ([1, 3]), 40, (wA fun c => c.wr CMP_STAT_DIGBUSY 1), (by decide), (by decide), (by decide), (by decide), (by decide), (by unfold Channel.spares; decide)⟩,
    ⟨.A, 0x80000000, (wA fun c => c.wr CMP_STAT_SWEEPRUN 1), (by decide), (by decide), (by decide), (by decide), (by decide), (by decide), (by decide), (by decide), (by decide), (by decide)⟩,
    ⟨.A, (wA fun c => c.wr CMP_STAT_SWEEPRUN 1), (by decide), (by decide), (by decide), (by decide), (by decide), (by decide)⟩⟩

theorem test_wit_CoreAccessesAndMemoryErrors :
    (∃ (ch : Chan) (m : MemId) (a : Nat) (z : AccSize) (s : State), (s.chan ch).live = true ∧ inMem m a (AccSize.bytes z) = true) ∧
    (∃ (ch : Chan) (m : MemId) (a : Nat) (z : AccSize) (v : Word) (s : State), (s.chan ch).live = true ∧ inMem m a (AccSize.bytes z) = true ∧ ((m = .sram → (s.chan ch).is STW_SEAL_SEAL = false))) ∧
    (∃ (ch : Chan) (m : MemId) (a : Nat) (z : AccSize) (s : State), (s.chan ch).live = true ∧ inMem m a (AccSize.bytes z) = true ∧ (s.chan ch).spares 3) ∧
    (∃ (ch : Chan) (m : MemId) (a : Nat) (op : MemOp) (ecc : Ecc) (s : State), (s.chan ch).live = true ∧ ((inMem m a (MemOp.bytes op) = false ∨ (m = .sram ∧ (s.chan ch).is STW_SEAL_SEAL = true ∧ (∃ z v, op = .store z v) ∧ 0x20200000 - (s.chan ch).fol.retained < a + MemOp.bytes op ∧ a < 0x20200000)))) ∧
    (∃ (ch : Chan) (m : MemId) (a : Nat) (z : AccSize) (s : State), (s.chan ch).live = true ∧ inMem m a (AccSize.bytes z) = true ∧ (s.chan ch).sparesNow 4) ∧
    (∃ (ch : Chan) (m : MemId) (a : Nat) (s : State), (s.chan ch).live = true ∧ inMem m a 1 = true ∧ (s.chan ch).spares 3) ∧
    (∃ (ch : Chan) (m : MemId) (a : Nat) (s : State), (s.chan ch).live = true ∧ inMem m a 1 = true ∧ (s.chan ch).sparesNow 4) :=
  ⟨⟨.A, .sram, 0x201FFFFC, .word, w0, (by decide), (by decide)⟩,
    ⟨.A, .sram, 0x20000000, .half, 0xABCD, w0, (by decide), (by decide), (by decide)⟩,
    ⟨.A, .dtcm, ((memRange .dtcm).1), .byte, w0, (by decide), (by decide), (by unfold Channel.spares; decide)⟩,
    ⟨.A, .sram, 0x201FFFFD, (.load .word), .clean, w0, (by decide), Or.inl (by decide)⟩,
    ⟨.A, .sram, 0x20000000, .word, w0, (by decide), (by decide), (by unfold Channel.sparesNow; decide)⟩,
    ⟨.A, .itcm, ((memRange .itcm).1), w0, (by decide), (by decide), (by unfold Channel.spares; decide)⟩,
    ⟨.A, .nete, ((memRange .nete).1), w0, (by decide), (by decide), (by unfold Channel.sparesNow; decide)⟩⟩

theorem test_wit_CarrierValleysAndAlignment :
    (∃ (ch : Chan) (v : SValley) (s : State), (s.chan ch).live = true ∧ (s.chan ch).f0.fawnStep = false ∧ (s.chan ch).spares 20) ∧
    (∃ (ch : Chan) (v : SValley) (s : State), (s.chan ch).live = false ∧ (s.chan ch).pwr.off = false) ∧
    (∃ (ch : Chan) (v : SValley) (s : State), (s.chan ch).live = true ∧ (s.chan ch).f0.pend = some v) ∧
    (∃ (ch : Chan) (codeU codeV delay : Nat) (s : State), (s.chan ch).live = true ∧ (s.chan ch).pump = 0) ∧
    (∃ (ch : Chan) (b : Bridge) (s : State), (s.chan ch).pwr.off = false ∧ (s.chan ch).causes b = 0 ∧ (match b with | .S => (s.chan ch).xlk.used | .P => (s.chan ch).f1.issued) = true) ∧
    (∃ (ch : Chan) (b : Bridge) (s : State), (s.chan ch).pwr.off = false ∧ (s.chan ch).causes b ≠ 0) ∧
    (∃ (ch : Chan) (sumU sumV : Nat) (s : State), (s.chan ch).live = true ∧ ((((rdiv sumU 256).toNat : Int) - 8192).natAbs ≤ (s.chan ch).parF 0 26 16 16 ∧ (((rdiv sumV 256).toNat : Int) - 8192).natAbs ≤ (s.chan ch).parF 0 26 16 16)) ∧
    (∃ (ch : Chan) (b : Bridge) (sumU sumV : Nat) (s : State), (s.chan ch).live = true ∧ (s.chan ch).parF 0 26 16 16 < (((rdiv sumU 256).toNat : Int) - 8192).natAbs ∧ (s.chan ch).fcc.tag = none ∧ (s.chan ch).blockOn (match b with | .S => 4 | .P => 5) = true ∧ (s.chan ch).spares 19) ∧
    (∃ (ch from_ : Chan) (tb : BitVec 48) (latency : Nat) (s : State), (s.chan ch).live = true ∧ from_ ≠ (s.chan ch).me ∧ (s.chan ch).rd HRD_STAT_REF = from_.num ∧ (s.chan ch).is STW_MODE_FAWN = false ∧ (s.chan ch).hears from_ = true ∧ (s.chan ch).is (FCE_STAT_FAWN10 0) = false ∧ (s.chan ch).f0.fawnStep = false ∧ 5 * (tbDiff (tb + BitVec.ofNat 48 latency) (s.chan ch).tb).natAbs ≤ 40) ∧
    (∃ (ch from_ : Chan) (tb : BitVec 48) (latency : Nat) (s : State), (s.chan ch).live = true ∧ ((s.chan ch).rd HRD_STAT_REF ≠ from_.num ∨ (s.chan ch).hears from_ = false)) ∧
    (∃ (ch from_ : Chan) (tb : BitVec 48) (latency : Nat) (s : State), (s.chan ch).live = true) ∧
    (∃ (ch from_ : Chan) (tb : BitVec 48) (latency : Nat) (s : State), (s.chan ch).live = true ∧ from_ ≠ (s.chan ch).me ∧ (s.chan ch).rd HRD_STAT_REF = from_.num ∧ (s.chan ch).hears from_ = true ∧ (s.chan ch).is STW_MODE_FAWN = true) ∧
    (∃ (ch from_ : Chan) (tb : BitVec 48) (latency : Nat) (s : State), (s.chan ch).live = true ∧ from_ ≠ (s.chan ch).me ∧ (s.chan ch).rd HRD_STAT_REF = from_.num ∧ (s.chan ch).is STW_MODE_FAWN = false ∧ (s.chan ch).f0.lateMarks = 2 ∧ (s.chan ch).hears from_ = true ∧ (s.chan ch).is (FCE_STAT_FAWN10 0) = false ∧ (s.chan ch).f0.fawnStep = false ∧ 40 < 5 * (tbDiff (tb + BitVec.ofNat 48 latency) (s.chan ch).tb).natAbs ∧ (s.chan ch).blockOn 4 = true ∧ (s.chan ch).fcc.tag = none ∧ (s.chan ch).spares 18) ∧
    (∃ (ch : Chan) (s : State), (s.chan ch).live = true ∧ (s.chan ch).f0.rotorLock = true ∧ (s.chan ch).is (FCE_STAT_ALIGNED 0) = false) :=
  ⟨⟨.A, (⟨8192, 8192, 0, 0⟩), (wA run5), (by decide), (by decide), (by unfold Channel.spares; decide)⟩,
    ⟨.A, (⟨8192, 8192, 0, 0⟩), (wA fun c => { run5 c with failSilent := true }), (by decide), (by decide)⟩,
    ⟨.A, (⟨8192, 8192, 0, 0⟩), (wA fun c => { run5 c with f0 := { c.f0 with pend := some ⟨8192, 8192, 0, 0⟩ } }), (by decide), (by decide)⟩,
    ⟨.A, 8192, 8192, 0, (wA run5), (by decide), (by decide)⟩,
    ⟨.A, .S, (wA fun c => { c.wr (causeFld .S) 0 with xlk := { c.xlk with used := true } }), (by decide), (by decide), (by decide)⟩,
    ⟨.A, .P, w0, (by decide), (by decide)⟩,
    ⟨.A, 2097152, 2097152, w0, (by decide), (by decide)⟩,
    ⟨.A, .P, 0, 2097152, w0, (by decide), (by decide), (by decide), (by decide), (by unfold Channel.spares; decide)⟩,
    ⟨.A, .B, 8, 0, (wA fun c => linked (c.wr HRD_STAT_REF 2)), (by decide), (by decide), (by decide), (by decide), (by decide), (by decide), (by decide), (by decide)⟩,
    ⟨.A, .B, 8, 0, (wA fun c => c.wr HRD_STAT_REF 3), (by decide), (by decide)⟩,
    ⟨.A, .B, 8, 0, w0, (by decide)⟩,
    ⟨.A, .B, 8, 0, (wA fun c => linked ((c.wr HRD_STAT_REF 2).wr STW_MODE_FAWN 1)), (by decide), (by decide), (by decide), (by decide), (by decide)⟩,
    ⟨.A, .B, 9, 0, (wA fun c => linked { c.wr HRD_STAT_REF 2 with f0 := { c.f0 with lateMarks := 2 } }), (by decide), (by decide), (by decide), (by decide), (by decide), (by decide), (by decide), (by decide), (by decide), (by decide), (by decide), (by unfold Channel.spares; decide)⟩,
    ⟨.A, (wA fun c => { c with f0 := { c.f0 with rotorLock := true } }), (by decide), (by decide), (by decide)⟩⟩

theorem test_wit_PumpStartsAndSolenoidsTick :
    (∃ (ch : Chan) (v : Word) (s : State), (s.chan ch).live = true) ∧
    (∃ (ch : Chan) (v : Word) (s : State), (s.chan ch).live = true ∧ (s.chan ch).pump = 0 ∧ (s.chan ch).pumpMay = true ∧ (s.chan ch).f1.conf < (s.chan ch).pconf ∧ 0 < (s.chan ch).parF 1 1 16 16 ∧ v.toInt ≠ 0) ∧
    (∃ (ch : Chan) (dir : Fin 6) (s : State), (s.chan ch).live = true ∧ (s.chan ch).pump = 1) ∧
    (∃ (ch : Chan) (s : State), (s.chan ch).live = true ∧ (s.chan ch).pump = 2) ∧
    (∃ (ch : Chan) (s : State), (s.chan ch).live = true ∧ (s.chan ch).pump = 3) ∧
    (∃ (ch : Chan) (s : State), (s.chan ch).live = true ∧ (s.chan ch).pump = 4 ∧ (s.chan ch).rd FCE_PUMP_ATTEMPT < 3) ∧
    (∃ (ch : Chan) (s : State), (s.chan ch).live = true ∧ (s.chan ch).pump = 4 ∧ (s.chan ch).rd FCE_PUMP_ATTEMPT = 3 ∧ (s.chan ch).blockOn 5 = true ∧ (s.chan ch).fcc.tag = none ∧ (s.chan ch).spares 24) ∧
    (∃ (ch : Chan) (s : State), (s.chan ch).live = true ∧ (s.chan ch).pump = 6 ∧ (s.chan ch).pumpMay = true ∧ (s.chan ch).f1.conf < (s.chan ch).pconf ∧ ((s.chan ch).causes .P).testBit 1 = false ∧ ((s.chan ch).causes .P).testBit 3 = false ∧ (s.chan ch).f1.again = false ∧ (s.chan ch).rd FCE_PUMP_ATTEMPT < 3) ∧
    (∃ (ch : Chan) (s : State), (s.chan ch).live = true ∧ (s.chan ch).pump = 7 ∧ (s.chan ch).f1.stopLate = false ∧ (s.chan ch).blockOn 5 = true ∧ (s.chan ch).fcc.tag = none ∧ (s.chan ch).spares 25) ∧
    (∃ (ch : Chan) (n : Fin 4) (ma : Nat) (s : State), (s.chan ch).live = true) ∧
    (∃ (ch : Chan) (n : Fin 4) (v : Word) (s : State), (s.chan ch).live = true) ∧
    (∃ (ch : Chan) (s : State), (s.chan ch).live = true ∧ (s.chan ch).spares 26) :=
  ⟨⟨.A, 0x10000, w0, (by decide)⟩,
    ⟨.A, 0x10000, (wA fun c => ((c.wr (FCE_STAT_OFSOK 1) 2).wrWord (FCE_PAR 1 1) 0x03E80004).wrWord (FCE_PAR 1 11) 0x00500000), (by decide), (by decide), (by decide), (by decide), (by decide), (by decide)⟩,
    ⟨.A, 5, (wA fun c => c.wr FCE_PUMP_STATE 1), (by decide), (by decide)⟩,
    ⟨.A, (wA fun c => c.wr FCE_PUMP_STATE 2), (by decide), (by decide)⟩,
    ⟨.A, (wA fun c => c.wr FCE_PUMP_STATE 3), (by decide), (by decide)⟩,
    ⟨.A, (wA fun c => (c.wr FCE_PUMP_STATE 4).wr FCE_PUMP_ATTEMPT 2), (by decide), (by decide), (by decide)⟩,
    ⟨.A, (wA fun c => (c.wr FCE_PUMP_STATE 4).wr FCE_PUMP_ATTEMPT 3), (by decide), (by decide), (by decide), (by decide), (by decide), (by unfold Channel.spares; decide)⟩,
    ⟨.A, (wA fun c => (((((c.wr FCE_PUMP_STATE 6).wr FCE_PUMP_ATTEMPT 2).wr (FCE_STAT_OFSOK 1) 2).wrWord (FCE_PAR 1 1) 0x03E80004).wrWord (FCE_PAR 1 11) 0x00500000).wr (causeFld .P) 0), (by decide), (by decide), (by decide), (by decide), (by decide), (by decide), (by decide), (by decide)⟩,
    ⟨.A, (wA fun c => c.wr FCE_PUMP_STATE 7), (by decide), (by decide), (by decide), (by decide), (by decide), (by unfold Channel.spares; decide)⟩,
    ⟨.A, 3, 1200, w0, (by decide)⟩,
    ⟨.A, 0, 0x12345678, w0, (by decide)⟩,
    ⟨.A, w0, (by decide), (by unfold Channel.spares; decide)⟩⟩

theorem test_wit_SetsAreComputedInTime :
    (∃ (ch j : Chan) (p : BitVec 176) (off : Nat) (s : State), (s.chan ch).live = true ∧ Chan.ofNum (spOrigin p) = some j ∧ j ≠ (s.chan ch).me ∧ (s.chan ch).hears j = true ∧ off ≤ 440 ∧ pk p 0 4 = 1) ∧
    (∃ (ch j : Chan) (p : BitVec 176) (off : Nat) (s : State), (s.chan ch).live = true ∧ Chan.ofNum (spOrigin p) = some j ∧ (((s.chan ch).hears j = false ∨ 440 < off))) ∧
    (∃ (ch : Chan) (p : BitVec 176) (off : Nat) (s : State), (s.chan ch).live = true) ∧
    (∃ (ch k : Chan) (accepted : Nat) (p : BitVec 176) (s : State), (s.chan ch).live = true ∧ ((s.chan ch).f0.set k).pkt = some p ∧ (s.chan ch).computes ((s.chan ch).maskAt ((s.chan ch).t0Of k)) k = true ∧ ((s.chan ch).f0.set k).agreed = true ∧ spSV p = true ∧ accepted ≤ cdlOf ((s.chan ch).half 0) ∧ (s.chan ch).spares 21 ∧ (s.chan ch).spares 22 ∧ (s.chan ch).spares 23) ∧
    (∃ (ch k : Chan) (accepted : Nat) (p : BitVec 176) (s : State), (s.chan ch).live = true ∧ ((s.chan ch).f0.set k).pkt = some p ∧ (s.chan ch).computes ((s.chan ch).maskAt ((s.chan ch).t0Of k)) k = true ∧ ((s.chan ch).f0.set k).agreed = true ∧ spSV p = true ∧ cdlOf ((s.chan ch).half 0) < accepted) ∧
    (∃ (ch k : Chan) (s : State), (s.chan ch).live = true) ∧
    (∃ (ch k : Chan) (s : State), (s.chan ch).live = true ∧ ((s.chan ch).f0.set k).pkt ≠ none) :=
  ⟨⟨.A, .B, 0x21, 440, (wA fun c => linked (run5 c)), (by decide), (by decide), (by decide), (by decide), (by decide), (by decide)⟩,
    ⟨.A, .B, 0x21, 440, (wA run5), (by decide), (by decide), (by decide)⟩,
    ⟨.A, 0, 0, (wA run5), (by decide)⟩,
    ⟨.A, .B, 1640, ((0x21 + 2 ^ 112)), (wA fun c => (setB (run5 (mem c)) (0x21 + 2 ^ 112))), (by decide), (by decide), (by decide), (by decide), (by decide), (by decide), (by unfold Channel.spares; decide), (by unfold Channel.spares; decide), (by unfold Channel.spares; decide)⟩,
    ⟨.A, .B, 1641, ((0x21 + 2 ^ 112)), (wA fun c => (setB (run5 (mem c)) (0x21 + 2 ^ 112))), (by decide), (by decide), (by decide), (by decide), (by decide), (by decide)⟩,
    ⟨.A, .B, (wA run5), (by decide)⟩,
    ⟨.A, .B, (wA fun c => (setB (run5 (mem c)) 0x21)), (by decide), (by decide)⟩⟩

theorem test_wit_VotesAreByMajority :
    (∃ (solo : Bool) (a b c : Option (BitVec 240)) (v : BitVec 240), (ballot solo a b c).use = some v) ∧
    (∃ (solo : Bool) (x y : BitVec 240), x ≠ y) ∧
    (∃ (solo : Bool) (x y : BitVec 240), x ≠ y) ∧
    (∃ (l m : List Nat) (prev : Nat), l.Perm m) ∧
    (∃ (x y z prev : Nat), x ∈ [1, 2, 3, 4] ∧ y ∈ [1, 2, 3, 4] ∧ z ∈ [1, 2, 3, 4]) ∧
    (∃ (x prev : Nat), x ∈ [1, 2, 3, 4]) :=
  ⟨⟨false, (some 5), (some 5), none, 5, (by decide)⟩,
    ⟨false, 5, 6, (by decide)⟩,
    ⟨true, 5, 6, (by decide)⟩,
    ⟨([1, 2]), ([2, 1]), 0, (by decide)⟩,
    ⟨1, 2, 2, 0, (by decide), (by decide), (by decide)⟩,
    ⟨4, 3, (by decide)⟩⟩

theorem test_wit_VotesUseOrHold :
    (∃ (ch o : Chan) (p : BitVec 256) (off : Nat) (s : State), (s.chan ch).live = true ∧ trKind p = 2 ∧ trSet p = (s.chan ch).me.num ∧ Chan.ofNum (trOrigin p) = some o ∧ off ≤ vdlOf ((s.chan ch).half 0) ∧ trPseq p = (s.chan ch).pseqOf (s.chan ch).me ∧ inMask ((s.chan ch).maskAt ((s.chan ch).t0Of (s.chan ch).me)) o = true ∧ (s.chan ch).triplet o = none ∧ ((o ≠ (s.chan ch).me → (s.chan ch).hears o = true))) ∧
    (∃ (ch : Chan) (p : BitVec 256) (off : Nat) (s : State), (s.chan ch).live = true ∧ trKind p = 2 ∧ trSet p ≠ (s.chan ch).me.num) ∧
    (∃ (ch : Chan) (a b c : BitVec 256) (s : State), (s.chan ch).live = true ∧ (s.chan ch).maskAt ((s.chan ch).t0Of (s.chan ch).me) = 7 ∧ (s.chan ch).unused .S = false ∧ (s.chan ch).triplet .A = some a ∧ (s.chan ch).triplet .B = some b ∧ (s.chan ch).triplet .C = some c ∧ trBody a = trBody b ∧ trBody b = trBody c ∧ (s.chan ch).role ≠ 2) ∧
    (∃ (ch : Chan) (a b c : BitVec 256) (s : State), (s.chan ch).live = true ∧ (s.chan ch).maskAt ((s.chan ch).t0Of (s.chan ch).me) = 7 ∧ (s.chan ch).unused .S = false ∧ (s.chan ch).triplet .A = some a ∧ (s.chan ch).triplet .B = some b ∧ (s.chan ch).triplet .C = some c ∧ trBody a ≠ trBody b ∧ trBody b ≠ trBody c ∧ trBody a ≠ trBody c ∧ (s.chan ch).role ≠ 2 ∧ (s.chan ch).rd XLK_STAT_HOLDRUN < 3 ∧ (s.chan ch).blockOn 6 = true ∧ (s.chan ch).fcc.tag = none ∧ (s.chan ch).spares 28) ∧
    (∃ (ch k : Chan) (p : BitVec 256) (s : State), (s.chan ch).live = true ∧ trSet p = k.num ∧ ((trKind p = 3 ∨ trKind p = 4)) ∧ trOrigin p ≠ (s.chan ch).me.num ∧ (s.chan ch).role ≠ 2 ∧ ((k ≠ ch → (s.chan ch).hears k = true)) ∧ ((s.chan ch).f0.set k).due = some (trPseq p)) ∧
    (∃ (ch k : Chan) (p : BitVec 256) (s : State), (s.chan ch).live = true ∧ (((k ≠ ch ∧ (s.chan ch).hears k = false) ∨ ((s.chan ch).f0.set k).due ≠ some (trPseq p) ∨ trSet p ≠ k.num))) ∧
    (∃ (ch : Chan) (mask : BitVec 3) (tb : BitVec 48) (s : State), (s.chan ch).live = true) :=
  ⟨⟨.A, .B, 0x62, 1880, (wA fun c => linked (run5 (mem c))), (by decide), (by decide), (by decide), (by decide), (by decide), (by decide), (by decide), (by decide), (by decide)⟩,
    ⟨.A, 0xA2, 0, (wA run5), (by decide), (by decide), (by decide)⟩,
    ⟨.A, 0x52, 0x62, 0x72, (wA (trips 0x52 0x62 0x72)), (by decide), (by decide), (by decide), (by decide), (by decide), (by decide), (by decide), (by decide), (by decide)⟩,
    ⟨.A, 0x52, 0x10062, 0x20072, (wA (trips 0x52 0x10062 0x20072)), (by decide), (by decide), (by decide), (by decide), (by decide), (by decide), (by decide), (by decide), (by decide), (by decide), (by decide), (by decide), (by decide), (by unfold Channel.spares; decide)⟩,
    ⟨.A, .B, 0xA3, (wA fun c => linked { run5 c with f0 := { c.f0 with setB := { c.f0.setB with due := some (trPseq 0xA3) } } }), (by decide), (by decide), (by decide), (by decide), (by decide), (by decide), (by decide)⟩,
    ⟨.A, .B, 0xA3, (wA run5), (by decide), (by decide)⟩,
    ⟨.A, 3, 0x100, w0, (by decide)⟩⟩

theorem test_wit_BridgeStateFollowsCausesAndSpeed : (∃ (ch : Chan) (b : Bridge) (omega : Nat) (probe : Bool) (s : State), (s.chan ch).live = true) :=
  ⟨.A, .S, 0x10000, true, w0, (by decide)⟩

theorem test_wit_ChopperAndLinkVoltageEvents :
    (∃ (ch : Chan) (link v0 : Nat) (s : State), (s.chan ch).pwr.off = false ∧ (s.chan ch).chopMay = true ∧ (s.chan ch).chon ≤ link) ∧
    (∃ (ch : Chan) (link v0 : Nat) (s : State), (((s.chan ch).enc.pins = false ∨ (s.chan ch).chopMay = false ∨ link < (s.chan ch).chon))) ∧
    (∃ (ch : Chan) (s : State), (s.chan ch).pwr.off = false) ∧
    (∃ (ch : Chan) (v0 v1 : Nat) (slope : Int) (s : State), (s.chan ch).pwr.off = false ∧ (s.chan ch).pow.chk = some (v0, slope) ∧ 0 ≤ (s.chan ch).chkMargin v0 slope ((s.chan ch).rd (GDR_LL_VALUE 4) % 2 ^ 8) v1) ∧
    (∃ (ch : Chan) (v0 v1 : Nat) (slope : Int) (s : State), (s.chan ch).pwr.off = false ∧ (s.chan ch).pow.chk = some (v0, slope) ∧ (s.chan ch).rd GDR_CHOP_RUN < 15 ∧ (s.chan ch).chkMargin v0 slope ((s.chan ch).rd (GDR_LL_VALUE 4) % 2 ^ 8) v1 < 0 ∧ (s.chan ch).rd (GDR_LL_VALUE 4) / 2 ^ 8 % 16 = (s.chan ch).rd GDR_CHOP_RUN + 1 ∧ (s.chan ch).blockOn 7 = true ∧ (s.chan ch).resetting = false ∧ (s.chan ch).fcc.tag = none ∧ (s.chan ch).spares 31) ∧
    (∃ (ch : Chan) (s : State), (s.chan ch).pwr.off = false ∧ (s.chan ch).spares 32) ∧
    (∃ (ch : Chan) (s : State), (s.chan ch).pwr.off = false ∧ (s.chan ch).spares 33) ∧
    (∃ (ch : Chan) (s : State), (s.chan ch).pwr.off = false ∧ (s.chan ch).spares 34) ∧
    (∃ (ch : Chan) (s : State), (s.chan ch).pwr.off = false) ∧
    (∃ (ch : Chan) (s : State), (s.chan ch).pwr.off = false ∧ (s.chan ch).is GDR_LINK_OV2 = true ∧ (s.chan ch).pump ≠ 5) ∧
    (∃ (ch : Chan) (s : State), (s.chan ch).pwr.off = false) ∧
    (∃ (ch : Chan) (i : Instr) (s : State), ((i = .dieToDieLoss ch ∨ i = .digitalDieSilent ch)) ∧ (s.chan ch).pwr.off = false) :=
  ⟨⟨.A, 54000, 50000, (wA fun c => { (c.wr GDR_STAT_INRST 0).wr (GDR_LL_VALUE 2) 540 with enc := { c.enc with pins := true } }), (by decide), (by decide), (by decide)⟩,
    ⟨.A, 53999, 50000, (wA fun c => { (c.wr GDR_STAT_INRST 0).wr (GDR_LL_VALUE 2) 540 with enc := { c.enc with pins := true } }), (by decide)⟩,
    ⟨.A, w0, (by decide)⟩,
    ⟨.A, 50000, 49000, 0, (wA fun c => chk c 0x0F28), (by decide), (by decide), (by decide)⟩,
    ⟨.A, 50000, 50001, 0, (wA fun c => chk c 0x0128), (by decide), (by decide), (by decide), (by decide), (by decide), (by decide), (by decide), (by decide), (by unfold Channel.spares; decide)⟩,
    ⟨.A, w0, (by decide), (by unfold Channel.spares; decide)⟩,
    ⟨.A, w0, (by decide), (by unfold Channel.spares; decide)⟩,
    ⟨.A, w0, (by decide), (by unfold Channel.spares; decide)⟩,
    ⟨.A, w0, (by decide)⟩,
    ⟨.A, (wA fun c => c.wr GDR_LINK_OV2 1), (by decide), (by decide), (by decide)⟩,
    ⟨.A, w0, (by decide)⟩,
    ⟨.A, (.digitalDieSilent .A), w0, (by decide), (by decide)⟩⟩

theorem test_wit_GateDriveLatchesAreSet :
    (∃ (ch : Chan) (leg : Fin 6) (s : State), (s.chan ch).pwr.off = false ∧ (s.chan ch).spares 42) ∧
    (∃ (ch : Chan) (latches : BitVec 17) (sol : BitVec 4) (same : Bool) (s : State), (s.chan ch).pwr.off = false ∧ ((∀ n, 35 ≤ n → n ≤ 38 → (s.chan ch).spares n))) ∧
    (∃ (ch : Chan) (sol : BitVec 4) (same : Bool) (s : State), (s.chan ch).pwr.off = false ∧ (s.chan ch).spares 39 ∧ (s.chan ch).bit GDR_FLT_LATCH 17 = false) ∧
    (∃ (ch : Chan) (sol : BitVec 4) (same : Bool) (s : State), (s.chan ch).pwr.off = false ∧ (s.chan ch).spares 40) ∧
    (∃ (ch : Chan) (sol : BitVec 4) (same : Bool) (s : State), (s.chan ch).pwr.off = false ∧ (s.chan ch).spares 41) ∧
    (∃ (ch : Chan) (s : State), (s.chan ch).pwr.off = false) :=
  ⟨⟨.A, 5, w0, (by decide), (by unfold Channel.spares; decide)⟩,
    ⟨.A, 0x1FFFF, 0xF, false, w0, (by decide), (by intro n h k; have : n = 35 ∨ n = 36 ∨ n = 37 ∨ n = 38 := (by omega); rcases this with rfl | rfl | rfl | rfl <;> (unfold Channel.spares; decide))⟩,
    ⟨.A, 0, false, w0, (by decide), (by unfold Channel.spares; decide), (by decide)⟩,
    ⟨.A, 0, true, w0, (by decide), (by unfold Channel.spares; decide)⟩,
    ⟨.A, 1, false, w0, (by decide), (by unfold Channel.spares; decide)⟩,
    ⟨.A, w0, (by decide)⟩⟩

theorem test_wit_GateDriveResetsAndSelfTest :
    (∃ (ch : Chan) (s : State), (s.chan ch).live = true ∧ (s.chan ch).bit STW_BLKSTAT_BLK 7 = true) ∧
    (∃ (ch : Chan) (s : State), (s.chan ch).pwr.off = false ∧ (s.chan ch).is GDR_STAT_PEND = true ∧ (s.chan ch).is GDR_STAT_INRST = false) ∧
    (∃ (ch : Chan) (s : State), (s.chan ch).pwr.off = false ∧ (s.chan ch).is GDR_STAT_INRST = true ∧ (s.chan ch).gdrHeld = false ∧ (s.chan ch).pump ≠ 5) ∧
    (∃ (ch : Chan) (s : State), (s.chan ch).pwr.off = false ∧ (s.chan ch).pow.gdeno = true) ∧
    (∃ (ch : Chan) (s : State), (s.chan ch).pwr.off = false ∧ (s.chan ch).pow.gdeno = false ∧ (s.chan ch).spares 43) ∧
    (∃ (ch : Chan) (low : Nat) (present : BitVec 20) (s : State), (s.chan ch).pwr.off = false ∧ (s.chan ch).pow.gden = false ∧ 2000 ≤ low ∧ (s.chan ch).pump ≠ 5) ∧
    (∃ (ch : Chan) (low : Nat) (present : BitVec 20) (s : State), (s.chan ch).pwr.off = false ∧ (s.chan ch).pow.gden = false ∧ low < 1900 ∧ (s.chan ch).pump ≠ 5) ∧
    (∃ (ch : Chan) (s : State), (s.chan ch).live = true) ∧
    (∃ (ch : Chan) (s : State), (s.chan ch).pwr.off = false) ∧
    (∃ (ch : Chan) (chop : Option (Nat × Nat)) (s : State), (s.chan ch).live = true ∧ (s.chan ch).rd PWR_BOOT_STEP = 7 ∧ ((∀ x, chop = some x → x.1 < 20000)) ∧ (s.chan ch).offsetsOk = true ∧ (s.chan ch).lockstep = true ∧ ((∀ n, 35 ≤ n → n ≤ 39 → (s.chan ch).spares n)) ∧ s.a.logq.length ≤ 40 ∧ s.b.logq.length ≤ 40 ∧ s.c.logq.length ≤ 40) ∧
    (∃ (ch : Chan) (failed : BitVec 18) (chop : Option (Nat × Nat)) (s : State), (s.chan ch).live = true ∧ (s.chan ch).rd PWR_BOOT_STEP = 7 ∧ ((∀ x, chop = some x → x.1 < 20000)) ∧ (s.chan ch).offsetsOk = true ∧ ((∀ n, 35 ≤ n → n ≤ 39 → (s.chan ch).spares n)) ∧ failed ≠ 0) ∧
    (∃ (ch : Chan) (chop : Option (Nat × Nat)) (s : State), (s.chan ch).live = true ∧ (s.chan ch).rd PWR_BOOT_STEP = 7 ∧ ((∀ x, chop = some x → x.1 < 20000)) ∧ (s.chan ch).offsetsOk = false ∧ ((∀ n, 35 ≤ n → n ≤ 39 → (s.chan ch).spares n))) :=
  ⟨⟨.A, (wA fun c => c.setBit STW_BLKSTAT_BLK 7 true), (by decide), (by decide)⟩,
    ⟨.A, (wA fun c => (c.wr GDR_STAT_PEND 1).wr GDR_STAT_INRST 0), (by decide), (by decide), (by decide)⟩,
    ⟨.A, (wA fun c => c.wr GDR_STAT_INRST 1), (by decide), (by decide), (by decide), (by decide)⟩,
    ⟨.A, (wA fun c => { c with pow := { c.pow with gdeno := true } }), (by decide), (by decide)⟩,
    ⟨.A, w0, (by decide), (by decide), (by unfold Channel.spares; decide)⟩,
    ⟨.A, 2000, 0, (wA fun c => { c with pow := { c.pow with gden := false } }), (by decide), (by decide), (by decide), (by decide)⟩,
    ⟨.A, 1899, 0, (wA fun c => { c with pow := { c.pow with gden := false } }), (by decide), (by decide), (by decide), (by decide)⟩,
    ⟨.A, w0, (by decide)⟩,
    ⟨.A, w0, (by decide)⟩,
    ⟨.A, (some (19999, 30000)), (wA fun c => (c.wr PWR_BOOT_STEP 7).wr (FCE_STAT_OFSOK 0) 3), (by decide), (by decide), (by intro x h; cases h; decide), (by decide), (by decide), (by intro n h k; have : n = 35 ∨ n = 36 ∨ n = 37 ∨ n = 38 ∨ n = 39 := (by omega); rcases this with rfl | rfl | rfl | rfl | rfl <;> (unfold Channel.spares; decide)), (by decide), (by decide), (by decide)⟩,
    ⟨.A, 0x20001, none, (wA fun c => (c.wr PWR_BOOT_STEP 7).wr (FCE_STAT_OFSOK 0) 3), (by decide), (by decide), (by intro x h; cases h), (by decide), (by intro n h k; have : n = 35 ∨ n = 36 ∨ n = 37 ∨ n = 38 ∨ n = 39 := (by omega); rcases this with rfl | rfl | rfl | rfl | rfl <;> (unfold Channel.spares; decide)), (by decide)⟩,
    ⟨.A, none, (wA fun c => c.wr PWR_BOOT_STEP 7), (by decide), (by decide), (by intro x h; cases h), (by decide), (by intro n h k; have : n = 35 ∨ n = 36 ∨ n = 37 ∨ n = 38 ∨ n = 39 := (by omega); rcases this with rfl | rfl | rfl | rfl | rfl <;> (unfold Channel.spares; decide))⟩⟩

theorem test_wit_EncoderInputsAreCounted :
    (∃ (ch : Chan) (n : Fin 6) (levels : BitVec 3) (since : Nat) (s : State), (s.chan ch).resetting = false ∧ (s.chan ch).pwr.off = false ∧ ((s.chan ch).encOn n = false ∨ (s.chan ch).ucfg n 1 16 16 ≤ since)) ∧
    (∃ (ch : Chan) (n : Fin 6) (levels : BitVec 3) (since : Nat) (s : State), (s.chan ch).resetting = false ∧ (s.chan ch).pwr.off = false ∧ (s.chan ch).encOn n = true ∧ since < (s.chan ch).ucfg n 1 16 16 ∧ ((s.chan ch).unit n).erun + 1 ≤ (s.chan ch).ucfg n 4 8 8) ∧
    (∃ (ch : Chan) (n : Fin 6) (levels : BitVec 3) (since : Nat) (s : State), (s.chan ch).resetting = false ∧ (s.chan ch).pwr.off = false ∧ (s.chan ch).encOn n = true ∧ since < (s.chan ch).ucfg n 1 16 16 ∧ (s.chan ch).ucfg n 4 8 8 < ((s.chan ch).unit n).erun + 1 ∧ (s.chan ch).is (ENC_USTAT_UFAULT n) = false ∧ (s.chan ch).blockOn 8 = true ∧ (s.chan ch).fcc.tag = none ∧ (s.chan ch).spares 44) ∧
    (∃ (ch : Chan) (n : Fin 6) (cycles : Nat) (d : Int) (s : State), (s.chan ch).resetting = false ∧ (s.chan ch).pwr.off = false ∧ (s.chan ch).encOn n = true ∧ (s.chan ch).ucfg n 1 8 1 = 0 ∧ (s.chan ch).ucfg n 1 6 1 = 0 ∧ (s.chan ch).is (ENC_USTAT_IDXSEEN n) = false ∧ settledCount ((s.chan ch).ucfg n 1 4 2) ((s.chan ch).unit n).stored ((s.chan ch).unit n).lvl = some d) ∧
    (∃ (ch : Chan) (n : Fin 6) (cycles : Nat) (s : State), (s.chan ch).resetting = false ∧ (s.chan ch).pwr.off = false ∧ (s.chan ch).encOn n = true ∧ (s.chan ch).ucfg n 1 6 1 = 0 ∧ (s.chan ch).is (ENC_USTAT_IDXSEEN n) = false ∧ settledCount ((s.chan ch).ucfg n 1 4 2) ((s.chan ch).unit n).stored ((s.chan ch).unit n).lvl = none ∧ ((s.chan ch).unit n).qrun + 1 ≤ (s.chan ch).ucfg n 4 0 8) ∧
    (∃ (ch : Chan) (n : Fin 9) (q : Bool) (s : State), (s.chan ch).resetting = false ∧ (s.chan ch).pwr.off = false) :=
  ⟨⟨.A, 0, 1, 100, (wA fun c => c.wrWord (ENC_UCFG 0 1) 0x00640000), (by decide), (by decide), (by decide)⟩,
    ⟨.A, 0, 1, 99, (wA fun c => (c.wrWord (ENC_UCFG 0 1) 0x00640000).wrWord (ENC_UCFG 0 4) 0x0300), (by decide), (by decide), (by decide), (by decide), (by decide)⟩,
    ⟨.A, 0, 1, 99, (wA fun c => c.wrWord (ENC_UCFG 0 1) 0x00640000), (by decide), (by decide), (by decide), (by decide), (by decide), (by decide), (by decide), (by decide), (by unfold Channel.spares; decide)⟩,
    ⟨.A, 0, 40, 1, (wA fun c => { c.wrWord (ENC_UCFG 0 1) 0x00640000 with enc := { c.enc with u0 := { c.enc.u0 with lvl := 1 } } }), (by decide), (by decide), (by decide), (by decide), (by decide), (by decide), (by decide)⟩,
    ⟨.A, 0, 40, (wA fun c => { (c.wrWord (ENC_UCFG 0 1) 0x00640000).wrWord (ENC_UCFG 0 4) 3 with enc := { c.enc with u0 := { c.enc.u0 with lvl := 3 } } }), (by decide), (by decide), (by decide), (by decide), (by decide), (by decide), (by decide)⟩,
    ⟨.A, 8, true, w0, (by decide), (by decide)⟩⟩

theorem test_wit_EncoderObserversAndSentFrames :
    (∃ (ch : Chan) (n : Fin 6) (s : State), (s.chan ch).resetting = false ∧ (s.chan ch).pwr.off = false ∧ (s.chan ch).encOn n = true ∧ (s.chan ch).rd (ENC_USTAT_STATE n) = 2) ∧
    (∃ (ch : Chan) (n : Fin 6) (s : State), (s.chan ch).resetting = false ∧ (s.chan ch).pwr.off = false ∧ (s.chan ch).encOn n = true ∧ (s.chan ch).rd (ENC_USTAT_STATE n) ≠ 0) ∧
    (∃ (ch : Chan) (n : Fin 6) (s : State), (s.chan ch).resetting = false ∧ (s.chan ch).pwr.off = false ∧ (s.chan ch).ucfg n 6 0 1 = 1) ∧
    (∃ (ch : Chan) (n : Fin 6) (v : Word) (s : State), (s.chan ch).live = true ∧ (s.chan ch).encOn n = true) ∧
    (∃ (ch : Chan) (m : Fin 3) (f : SentFrame) (s : State), (s.chan ch).resetting = false ∧ (s.chan ch).pwr.off = false ∧ (s.chan ch).sentOn m = true ∧ 5 * ((f.cal - 56 * 40 * (s.chan ch).scfg m 1 16 16) + (56 * 40 * (s.chan ch).scfg m 1 16 16 - f.cal)) ≤ 56 * 40 * (s.chan ch).scfg m 1 16 16 ∧ ((∀ p, ((s.chan ch).rx m).prev = some p → 64 * ((f.cal - p) + (p - f.cal)) ≤ p)) ∧ f.pulses.length = (s.chan ch).scfg m 1 4 3 + 2 ∧ (∀ p ∈ f.pulses, 12 ≤ sentTicks f p.1 ∧ sentTicks f p.1 ≤ 27 ∧ 4 * f.cal ≤ 56 * p.2) ∧ (((s.chan ch).scfg m 1 8 1 = 1 → ∃ p, f.pause = some p ∧ 12 * f.cal ≤ 56 * p ∧ 56 * p ≤ 768 * f.cal)) ∧ sentCrc ((s.chan ch).scfg m 1 7 1 == 1) (sentData f) = (sentNibbles f).getLastD 0) ∧
    (∃ (ch : Chan) (m : Fin 3) (f : SentFrame) (g : Fld) (s : State), (s.chan ch).resetting = false ∧ (s.chan ch).pwr.off = false ∧ (s.chan ch).sentOn m = true ∧ ((sentCalOk f ((s.chan ch).scfg m 1 16 16) ((s.chan ch).rx m).prev = false ∧ g = ENC_SERR_CAL m ∨ sentCalOk f ((s.chan ch).scfg m 1 16 16) ((s.chan ch).rx m).prev = true ∧ sentFormOk f ((s.chan ch).scfg m 1 4 3) ((s.chan ch).scfg m 1 8 1 == 1) = false ∧ g = ENC_SERR_FORM m ∨ sentCalOk f ((s.chan ch).scfg m 1 16 16) ((s.chan ch).rx m).prev = true ∧ sentFormOk f ((s.chan ch).scfg m 1 4 3) ((s.chan ch).scfg m 1 8 1 == 1) = true ∧ sentCrc ((s.chan ch).scfg m 1 7 1 == 1) (sentData f) ≠ (sentNibbles f).getLastD 0 ∧ g = ENC_SERR_CRC m)) ∧ ((s.chan ch).rx m).err + 1 ≤ (s.chan ch).scfg m 2 16 8) ∧
    (∃ (ch : Chan) (m : Fin 3) (s : State), (s.chan ch).resetting = false ∧ (s.chan ch).pwr.off = false ∧ (s.chan ch).sentOn m = true ∧ (s.chan ch).spares 45) :=
  ⟨⟨.A, 0, (wA fun c => (c.wrWord (ENC_UCFG 0 1) 0x00640000).wr (ENC_USTAT_STATE 0) 2), (by decide), (by decide), (by decide), (by decide)⟩,
    ⟨.A, 5, (wA fun c => (c.wrWord (ENC_UCFG 5 1) 0x00640000).wr (ENC_USTAT_STATE 5) 1), (by decide), (by decide), (by decide), (by decide)⟩,
    ⟨.A, 0, (wA fun c => c.wrWord (ENC_UCFG 0 6) 1), (by decide), (by decide), (by decide)⟩,
    ⟨.A, 0, 0xFFFFFFFF, (wA fun c => c.wrWord (ENC_UCFG 0 1) 0x00640000), (by decide), (by decide)⟩,
    ⟨.A, 0, (snt 224000 (sentCrc false [1, 2, 3, 4, 5, 6])), (wA fun c => (c.wrWord (ENC_SCFG 0 1) 0x00640060).wrWord (ENC_SCFG 0 2) 0x030000), (by decide), (by decide), (by decide), (by decide), (by intro p h; cases h), (by decide), (by decide), (by decide), (by decide)⟩,
    ⟨.A, 0, (snt 300000 0), (ENC_SERR_CAL 0), (wA fun c => (c.wrWord (ENC_SCFG 0 1) 0x00640060).wrWord (ENC_SCFG 0 2) 0x030000), (by decide), (by decide), (by decide), (by decide), (by decide)⟩,
    ⟨.A, 0, (wA fun c => (c.wrWord (ENC_SCFG 0 1) 0x00640060).wrWord (ENC_SCFG 0 2) 0x030000), (by decide), (by decide), (by decide), (by unfold Channel.spares; decide)⟩⟩

theorem test_wit_SafetyPairsAreWatched :
    (∃ (ch : Chan) (raw : BitVec 12) (s : State), (s.chan ch).live = true ∧ (s.chan ch).blockOn 9 = true) ∧
    (∃ (ch : Chan) (p : Fin 6) (s : State), (s.chan ch).live = true ∧ (s.chan ch).blockOn 9 = true ∧ (s.chan ch).pairState p = 3 ∧ (s.chan ch).fcc.tag = none ∧ (s.chan ch).spares 46) ∧
    (∃ (ch : Chan) (p : Fin 6) (s : State), (s.chan ch).live = true ∧ (s.chan ch).blockOn 9 = true ∧ (s.chan ch).pairState p = 4 ∧ (s.chan ch).decoded p = some 2 ∧ (s.chan ch).sin.failed.testBit p = false) ∧
    (∃ (ch : Chan) (p : Fin 6) (s : State), (s.chan ch).live = true ∧ (s.chan ch).blockOn 9 = true ∧ (s.chan ch).pairState p = 4 ∧ (s.chan ch).decoded p = some 2 ∧ (s.chan ch).sin.failed.testBit p = true) ∧
    (∃ (ch : Chan) (w : Nat) (s : State), (s.chan ch).live = true ∧ (s.chan ch).blockOn 9 = true ∧ (s.chan ch).tpw = some w) ∧
    (∃ (ch : Chan) (w : Nat) (s : State), (s.chan ch).live = true ∧ (s.chan ch).blockOn 9 = true ∧ (s.chan ch).tpw = some w) ∧
    (∃ (ch : Chan) (b : Bool) (raw : BitVec 12) (s : State), (s.chan ch).live = true ∧ (s.chan ch).blockOn 9 = true ∧ (s.chan ch).is (if b then SIN_LEVEL_TPB else SIN_LEVEL_TPA) = false ∧ (s.chan ch).failing b raw.toNat = []) ∧
    (∃ (ch : Chan) (b : Bool) (raw : BitVec 12) (p : Fin 6) (s : State), (s.chan ch).live = true ∧ (s.chan ch).blockOn 9 = true ∧ (s.chan ch).is (if b then SIN_LEVEL_TPB else SIN_LEVEL_TPA) = false ∧ (s.chan ch).failing b raw.toNat = [(p : Nat)] ∧ (s.chan ch).fcc.tag = none ∧ (s.chan ch).spares 47) ∧
    (∃ (ch : Chan) (pkt : BitVec 64) (off : Nat) (i : Instr) (s : State), (s.chan ch).live = true ∧ ((i = .sb1Received ch pkt false off ∨ i = .sb2Received ch pkt false off))) ∧
    (∃ (ch o : Chan) (pkt : BitVec 64) (off : Nat) (s : State), (s.chan ch).live = true ∧ o ≠ (s.chan ch).me ∧ (s.chan ch).hears o = true ∧ Chan.ofNum (pktField pkt 6 2) = some o ∧ Chan.ofNum (pktField pkt 4 2) = some o ∧ pktField pkt 0 4 = 5 ∧ off ≤ 20000) ∧
    (∃ (ch o q : Chan) (pkt : BitVec 64) (off : Nat) (s : State), (s.chan ch).live = true ∧ o ≠ (s.chan ch).me ∧ q ≠ (s.chan ch).me ∧ q ≠ o ∧ (s.chan ch).hears q = true ∧ Chan.ofNum (pktField pkt 6 2) = some o ∧ Chan.ofNum (pktField pkt 4 2) = some q ∧ pktField pkt 0 4 = 6 ∧ off ≤ 45000) :=
  ⟨⟨.A, 0xFFF, w0, (by decide), (by decide)⟩,
    ⟨.A, 0, (wA fun c => (c.wrWord (SIN_CFG 0 1) 0x300).wr SIN_LOCAL_STATE 3), (by decide), (by decide), (by decide), (by decide), (by unfold Channel.spares; decide)⟩,
    ⟨.A, 0, (wA fun c => { (c.wrWord (SIN_CFG 0 1) 0x300).wr SIN_LOCAL_STATE 4 with sin := { c.sin with valid := 3 } }), (by decide), (by decide), (by decide), (by decide), (by decide)⟩,
    ⟨.A, 0, (wA fun c => { (c.wrWord (SIN_CFG 0 1) 0x300).wr SIN_LOCAL_STATE 4 with sin := { c.sin with valid := 3, failed := 1 } }), (by decide), (by decide), (by decide), (by decide), (by decide)⟩,
    ⟨.A, 4, (wA fun c => ((c.wrWord (SIN_CFG 0 1) 0x1300).wrWord (SIN_CFG 0 2) 0x40000).wr SIN_LOCAL_STATE 2), (by decide), (by decide), (by decide)⟩,
    ⟨.A, 4, (wA fun c => ((c.wrWord (SIN_CFG 0 1) 0x1300).wrWord (SIN_CFG 0 2) 0x40000).wr SIN_LOCAL_STATE 2), (by decide), (by decide), (by decide)⟩,
    ⟨.A, true, 0xFFF, (wA fun c => c.wr SIN_LEVEL_TPB 0), (by decide), (by decide), (by decide), (by decide)⟩,
    ⟨.A, false, 1, 0, (wA fun c => (((c.wr SIN_LEVEL_TPA 0).wrWord (SIN_CFG 0 1) 0x1300).wrWord (SIN_CFG 0 2) 0x40000).wr SIN_LOCAL_STATE 2), (by decide), (by decide), (by decide), (by decide), (by decide), (by unfold Channel.spares; decide)⟩,
    ⟨.A, 0xA5, 0, (.sb1Received .A 0xA5 false 0), w0, (by decide), (by decide)⟩,
    ⟨.A, .B, 0xA5, 20000, (wA linked), (by decide), (by decide), (by decide), (by decide), (by decide), (by decide), (by decide)⟩,
    ⟨.A, .B, .C, 0xB6, 45000, (wA linked), (by decide), (by decide), (by decide), (by decide), (by decide), (by decide), (by decide), (by decide), (by decide)⟩⟩

theorem test_wit_TetherPortsAndForwarding :
    (∃ (ch : Chan) (port : Fin 2) (s : State), (s.chan ch).live = true ∧ (s.chan ch).tteOn = true ∧ (s.chan ch).portUp port = true ∧ (s.chan ch).fcc.tag = none ∧ (s.chan ch).spares 51) ∧
    (∃ (ch : Chan) (port : Fin 2) (s : State), (s.chan ch).live = true ∧ (s.chan ch).tteOn = true) ∧
    (∃ (ch : Chan) (f : Frame) (ttx : Int) (s : State), (s.chan ch).live = true ∧ (s.chan ch).tteOn = true ∧ (s.chan ch).portUp f.port = true ∧ (s.chan ch).ownFrame f = true) ∧
    (∃ (ch : Chan) (f : Frame) (ttx : Int) (s : State), (s.chan ch).live = true ∧ (s.chan ch).tteOn = true ∧ (s.chan ch).portUp f.port = true ∧ (s.chan ch).portUp (f.port + 1 : Fin 2) = true ∧ (s.chan ch).ownFrame f = false ∧ f.kind < 7 ∧ f.etype = (s.chan ch).etypeOwn ∧ f.hops ≠ 0 ∧ f.fcsOk = true) ∧
    (∃ (ch : Chan) (f : Frame) (ttx : Int) (s : State), (s.chan ch).live = true ∧ (s.chan ch).tteOn = true ∧ (s.chan ch).portUp f.port = true ∧ (s.chan ch).portUp (f.port + 1 : Fin 2) = true ∧ (s.chan ch).ownFrame f = false ∧ f.kind < 7 ∧ f.etype = (s.chan ch).etypeOwn ∧ f.hops = 0) :=
  ⟨⟨.A, 1, (wA (node 4)), (by decide), (by decide), (by decide), (by decide), (by unfold Channel.spares; decide)⟩,
    ⟨.A, 0, w0, (by decide), (by decide)⟩,
    ⟨.A, ({ frm 1 6 [] 0 0 with src := 4 }), 99, (wA (node 4)), (by decide), (by decide), (by decide), (by decide)⟩,
    ⟨.A, (frm 1 6 [1, 2] 0 0), 99, (wA (node 4)), (by decide), (by decide), (by decide), (by decide), (by decide), (by decide), (by decide), (by decide), (by decide)⟩,
    ⟨.A, ({ frm 1 6 [1, 2] 0 0 with hops := 0 }), 99, (wA (node 4)), (by decide), (by decide), (by decide), (by decide), (by decide), (by decide), (by decide), (by decide)⟩⟩

theorem test_wit_TetherStreamsAreSent :
    (∃ (ch : Chan) (id : Fin 128) (s : State), (s.chan ch).live = true ∧ (s.chan ch).maySend = true ∧ (s.chan ch).isTx id = true ∧ (s.chan ch).tte.enumFlag = false ∧ (s.chan ch).hasSlot id = true ∧ (((s.chan ch).isStatus id = true ∨ kget false (s.chan ch).tte.commit id = true))) ∧
    (∃ (ch : Chan) (id : Fin 128) (s : State), (s.chan ch).isStatus id = false ∧ kget false (s.chan ch).tte.commit id = false) ∧
    (∃ (ch : Chan) (id : Fin 128) (nth : Nat) (fold : Bool) (w : SlotWait) (ofs : Nat) (ports : List Nat) (s : State), (s.chan ch).live = true ∧ (s.chan ch).hasSlots = true ∧ (s.chan ch).isTx id = true ∧ (s.chan ch).tte.enumFlag = false ∧ (s.chan ch).slotOf id nth fold = some (ofs, ports) ∧ (ports.any fun p => (s.chan ch).portUp p && decide (waitOn w p ≤ (s.chan ch).halfWindow)) = true ∧ (s.chan ch).guardBlocks = false) ∧
    (∃ (ch : Chan) (id : Fin 128) (nth : Nat) (fold : Bool) (w : SlotWait) (ofs : Nat) (ports : List Nat) (s : State), (s.chan ch).live = true ∧ (s.chan ch).hasSlots = true ∧ (s.chan ch).isTx id = true ∧ (s.chan ch).tte.enumFlag = false ∧ (s.chan ch).slotOf id nth fold = some (ofs, ports) ∧ (ports.any fun p => (s.chan ch).portUp p) = true ∧ (s.chan ch).guardBlocks = false) ∧
    (∃ (ch : Chan) (id : Fin 128) (nth : Nat) (fold : Bool) (w : SlotWait) (ofs : Nat) (ports : List Nat) (s : State), (s.chan ch).live = true ∧ (s.chan ch).hasSlots = true ∧ (s.chan ch).isTx id = true ∧ (s.chan ch).tte.enumFlag = false ∧ (s.chan ch).slotOf id nth fold = some (ofs, ports) ∧ (ports.any fun p => (s.chan ch).portUp p) = true ∧ (s.chan ch).guardBlocks = true ∧ (s.chan ch).fcc.tag = none ∧ (s.chan ch).spares 53) ∧
    (∃ (ch : Chan) (port : Fin 4) (v : Word) (s : State), (s.chan ch).live = true ∧ (s.chan ch).tteOn = true ∧ (s.chan ch).isTx ((s.chan ch).rd (TTE_PSEL_CTX port)) = true ∧ bitsOf v.toNat 8 11 ≤ (s.chan ch).bufLen ((s.chan ch).rd (TTE_PSEL_CTX port))) ∧
    (∃ (ch : Chan) (port : Fin 4) (v : Word) (s : State), (s.chan ch).live = true ∧ (s.chan ch).tteOn = true) :=
  ⟨⟨.A, 5, (wA fun c => { node 4 c with tte := { (node 4 c).tte with commit := [(5, true)] } }), (by decide), (by decide), (by decide), (by decide), (by decide), (by decide)⟩,
    ⟨.A, 5, (wA (node 4)), (by decide), (by decide)⟩,
    ⟨.A, 5, 0, false, (⟨0, 0⟩), 10, ([0, 1]), (wA (node 4)), (by decide), (by decide), (by decide), (by decide), (by decide), (by decide), (by decide)⟩,
    ⟨.A, 5, 0, false, (⟨0, 0⟩), 10, ([0, 1]), (wA (node 4)), (by decide), (by decide), (by decide), (by decide), (by decide), (by decide), (by decide)⟩,
    ⟨.A, 5, 0, false, (⟨0, 0⟩), 10, ([0, 1]), (wA fun c => { node 4 c with ntc := { e := none } }), (by decide), (by decide), (by decide), (by decide), (by decide), (by decide), (by decide), (by decide), (by unfold Channel.spares; decide)⟩,
    ⟨.A, 0, 0x4000, (wA fun c => (node 4 c).wr (TTE_PSEL_CTX 0) 5), (by decide), (by decide), (by decide), (by decide)⟩,
    ⟨.A, 3, 6, (wA (node 4)), (by decide), (by decide)⟩⟩

theorem test_wit_TetherStreamsAreReceived :
    (∃ (ch : Chan) (f : Frame) (o : Nat) (s : State), (s.chan ch).live = true ∧ (s.chan ch).goodFrame f 1 ∧ (s.chan ch).isRx f.stream = true ∧ (s.chan ch).joined = true ∧ (s.chan ch).roleT ≠ 0 ∧ f.stream < 128 ∧ ((bitsOf ((s.chan ch).ctx f.stream 3) 8 6 = 0 ∨ bitsOf ((s.chan ch).ctx f.stream 3) 8 6 = f.src)) ∧ (s.chan ch).unreliable f.src = false ∧ o ∈ (s.chan ch).dueOfs f.stream f.fcopy ∧ (s.chan ch).inWindow f o = true ∧ f.codeOk ((s.chan ch).ctx f.stream 2) = true ∧ (((s.chan ch).rd (TTE_CTXSTAT_STATE f.stream) ≠ 1 ∨ (1 ≤ (f.seq + 65536 - (s.chan ch).rd (TTE_CTXSTAT_SEQ f.stream)) % 65536 ∧ (f.seq + 65536 - (s.chan ch).rd (TTE_CTXSTAT_SEQ f.stream)) % 65536 ≤ 32767)))) ∧
    (∃ (ch : Chan) (f : Frame) (o : Nat) (s : State), (s.chan ch).live = true ∧ (s.chan ch).goodFrame f 1 ∧ (s.chan ch).isRx f.stream = true ∧ (s.chan ch).joined = true ∧ (s.chan ch).roleT ≠ 0 ∧ f.stream < 128 ∧ ((bitsOf ((s.chan ch).ctx f.stream 3) 8 6 = 0 ∨ bitsOf ((s.chan ch).ctx f.stream 3) 8 6 = f.src)) ∧ (s.chan ch).unreliable f.src = false ∧ o ∈ (s.chan ch).dueOfs f.stream f.fcopy ∧ (s.chan ch).inWindow f o = true ∧ f.codeOk ((s.chan ch).ctx f.stream 2) = false) ∧
    (∃ (ch : Chan) (f : Frame) (s : State), (s.chan ch).live = true ∧ (s.chan ch).goodFrame f 1 ∧ (s.chan ch).isRx f.stream = true ∧ (s.chan ch).joined = true ∧ (s.chan ch).roleT ≠ 0 ∧ f.stream < 128 ∧ ((bitsOf ((s.chan ch).ctx f.stream 3) 8 6 = 0 ∨ bitsOf ((s.chan ch).ctx f.stream 3) 8 6 = f.src)) ∧ (s.chan ch).unreliable f.src = false ∧ 0 < f.src ∧ f.src < 63 ∧ ((s.chan ch).dueOfs f.stream f.fcopy).any (fun o => (s.chan ch).inWindow f o) = false ∧ kget 0 (s.chan ch).tte.rej f.src = 2 ∧ (s.chan ch).fcc.tag = none ∧ (s.chan ch).spares 54) ∧
    (∃ (ch : Chan) (id : Fin 128) (s : State), (s.chan ch).live = true ∧ (s.chan ch).tteOn = true ∧ (s.chan ch).isRx id = true ∧ (s.chan ch).joined = true ∧ (s.chan ch).dueOfs id false ≠ [] ∧ kget false (s.chan ch).tte.got id = false ∧ (s.chan ch).spares 50) :=
  ⟨⟨.A, (frm 1 6 [1, 2] 0 (30 * 40 * 65536)), 30, (wA (node 4)), (by decide), (by unfold Channel.goodFrame; decide), (by decide), (by decide), (by decide), (by decide), (by decide), (by decide), (by decide), (by decide), (by decide), (by decide)⟩,
    ⟨.A, (frm 1 6 [1, 2] 1 (30 * 40 * 65536)), 30, (wA (node 4)), (by decide), (by unfold Channel.goodFrame; decide), (by decide), (by decide), (by decide), (by decide), (by decide), (by decide), (by decide), (by decide), (by decide)⟩,
    ⟨.A, (frm 1 6 [1, 2] 0 (10 ^ 14)), (wA fun c => { node 4 c with tte := { (node 4 c).tte with rej := [(2, 2)] } }), (by decide), (by unfold Channel.goodFrame; decide), (by decide), (by decide), (by decide), (by decide), (by decide), (by decide), (by decide), (by decide), (by decide), (by decide), (by decide), (by unfold Channel.spares; decide)⟩,
    ⟨.A, 6, (wA (node 4)), (by decide), (by decide), (by decide), (by decide), (by decide), (by decide), (by unfold Channel.spares; decide)⟩⟩

theorem test_wit_TetherCyclesAndClaims :
    (∃ (ch : Chan) (w : SlotWait) (s : State), (s.chan ch).live = true ∧ (s.chan ch).tteOn = true ∧ (s.chan ch).roleT = 4 ∧ (s.chan ch).joined = true ∧ (s.chan ch).spares 50 ∧ (s.chan ch).spares 53) ∧
    (∃ (ch : Chan) (p : Fin 2) (w : SlotWait) (s : State), (s.chan ch).live = true ∧ (s.chan ch).tteOn = true ∧ (s.chan ch).roleT = 3 ∧ (s.chan ch).joined = true ∧ (s.chan ch).portUp p = true ∧ (s.chan ch).tte.enumFlag = false) ∧
    (∃ (ch : Chan) (f : Frame) (w : SlotWait) (s : State), (s.chan ch).live = true ∧ (s.chan ch).goodFrame f 0 ∧ (((s.chan ch).roleT = 1 ∨ (s.chan ch).roleT = 4)) ∧ f.codeOk 0xFFFFFFFF = true ∧ f.num 16 2 = (s.chan ch).ringWord 1 0 14 ∧ (s.chan ch).tte.framed = false ∧ (s.chan ch).spares 53 ∧ (s.chan ch).spares 55 ∧ (s.chan ch).spares 56) ∧
    (∃ (ch : Chan) (f : Frame) (w : SlotWait) (s : State), (s.chan ch).live = true ∧ (s.chan ch).goodFrame f 0 ∧ (s.chan ch).roleT = 3 ∧ f.codeOk 0xFFFFFFFF = true ∧ f.num 16 2 = (s.chan ch).ringWord 1 0 14 ∧ f.num 18 1 ≠ 0 ∧ f.num 18 1 < (s.chan ch).addrT ∧ (s.chan ch).spares 53 ∧ (s.chan ch).spares 55 ∧ (s.chan ch).spares 56) ∧
    (∃ (ch : Chan) (f : Frame) (slot : Fin 16) (ofs len : Nat) (s : State), (s.chan ch).live = true ∧ (s.chan ch).goodFrame f 2 ∧ (s.chan ch).roleT = 3 ∧ ((s.chan ch).claimSlots.find? fun x => x.1 == (slot : Nat)) = some ((slot : Nat), ofs, len) ∧ (((s.chan ch).joined = false ∨ ((s.chan ch).unreliable f.src = false ∧ (s.chan ch).inWindow f ofs = true))) ∧ f.codeOk 0xFFFFFFFF = true ∧ f.num 6 1 ≤ 1 ∧ kget 0 (s.chan ch).tte.grants slot = 0 ∧ kget none (s.chan ch).tte.claims slot = none) ∧
    (∃ (ch : Chan) (w : Nat) (wt : SlotWait) (p : Fin 2) (s : State), (s.chan ch).live = true ∧ (s.chan ch).maySend = true ∧ (s.chan ch).tte.enumFlag = false ∧ (s.chan ch).rd TTE_CLAIM_STATE = 3 ∧ (s.chan ch).claimDue = some w ∧ (s.chan ch).guardBlocks = false ∧ ((s.chan ch).claimSlots.any fun x => kget 0 (s.chan ch).tte.grants x.1 == 0) = true ∧ (s.chan ch).portUp p = true ∧ waitOn wt p ≤ (s.chan ch).halfWindow) :=
  ⟨⟨.A, (⟨0, 0⟩), (wA (node 4)), (by decide), (by decide), (by decide), (by decide), (by unfold Channel.spares; decide), (by unfold Channel.spares; decide)⟩,
    ⟨.A, 1, (⟨0, 0⟩), (wA (node 3)), (by decide), (by decide), (by decide), (by decide), (by decide), (by decide)⟩,
    ⟨.A, (frm 0 0 (List.replicate 64 0) 0xFFFFFFFF 0), (⟨0, 0⟩), (wA fun c => { node 4 c with tte := { (node 4 c).tte with framed := false } }), (by decide), (by unfold Channel.goodFrame; decide), (by decide), (by decide), (by decide), (by decide), (by unfold Channel.spares; decide), (by unfold Channel.spares; decide), (by unfold Channel.spares; decide)⟩,
    ⟨.A, (frm 0 0 (List.replicate 18 0 ++ [2] ++ List.replicate 45 0) 0xFFFFFFFF 0), (⟨0, 0⟩), (wA (node 3)), (by decide), (by unfold Channel.goodFrame; decide), (by decide), (by decide), (by decide), (by decide), (by decide), (by unfold Channel.spares; decide), (by unfold Channel.spares; decide), (by unfold Channel.spares; decide)⟩,
    ⟨.A, (frm 2 0 (List.replicate 8 0) 0xFFFFFFFF (40 * 40 * 65536)), 0, 40, 16, (wA (node 3)), (by decide), (by unfold Channel.goodFrame; decide), (by decide), (by decide), (by decide), (by decide), (by decide), (by decide), (by decide)⟩,
    ⟨.A, 0, (⟨0, 0⟩), 0, (wA fun c => ((node 4 c).wr TTE_STAT_ADDR 0).wr TTE_CLAIM_STATE 3), (by decide), (by decide), (by decide), (by decide), (by decide), (by decide), (by decide), (by decide), (by decide)⟩⟩

theorem test_wit_TetherStartsAndEnumerates :
    (∃ (ch : Chan) (s : State), (s.chan ch).live = true ∧ (s.chan ch).tteOn = true ∧ (s.chan ch).roleT = 1 ∧ (s.chan ch).leadCap = true) ∧
    (∃ (ch : Chan) (f : Frame) (s : State), (s.chan ch).live = true ∧ (s.chan ch).goodFrame f 4 ∧ (s.chan ch).roleT = 2 ∧ f.codeOk 0xFFFFFFFF = true) ∧
    (∃ (ch : Chan) (w : SlotWait) (s : State), (s.chan ch).live = true ∧ (s.chan ch).tteOn = true ∧ (s.chan ch).roleT = 2 ∧ (s.chan ch).joined = true) ∧
    (∃ (ch : Chan) (w : SlotWait) (s : State), (s.chan ch).live = true ∧ (s.chan ch).tteOn = true ∧ (s.chan ch).roleT = 2 ∧ (s.chan ch).joined = false) ∧
    (∃ (ch : Chan) (s : State), (s.chan ch).live = true ∧ (s.chan ch).tteOn = true ∧ (s.chan ch).roleT = 4 ∧ (s.chan ch).tte.framed = false ∧ (s.chan ch).tte.missing = 2 ∧ (s.chan ch).fcc.tag = none ∧ (s.chan ch).spares 52) ∧
    (∃ (ch : Chan) (f : Frame) (s : State), (s.chan ch).live = true ∧ (s.chan ch).goodFrame f 3 ∧ (s.chan ch).roleT ≠ 0 ∧ (s.chan ch).roleT ≠ 3 ∧ (s.chan ch).joined = false ∧ f.codeOk 0xFFFFFFFF = true ∧ f.num 1 1 = 0 ∧ f.num 0 1 < 62 ∧ (s.chan ch).addrT = 0 ∧ (s.chan ch).enumerated = true) ∧
    (∃ (ch : Chan) (w : SlotWait) (s : State), (s.chan ch).live = true ∧ (s.chan ch).tteOn = true ∧ (s.chan ch).roleT = 3 ∧ (s.chan ch).tte.enumFlag = true ∧ (s.chan ch).tte.enumPass = 1 ∧ 2 ≤ (s.chan ch).tte.enumAge ∧ (s.chan ch).portUp 0 = true ∧ (s.chan ch).addrT ≠ 0) :=
  ⟨⟨.A, (wA fun c => (node 1 c).wrWord (TTE_RING 1) 0x40000), (by decide), (by decide), (by decide), (by decide)⟩,
    ⟨.A, (frm 4 0 (List.replicate 8 0) 0xFFFFFFFF 0), (wA (node 2)), (by decide), (by unfold Channel.goodFrame; decide), (by decide), (by decide)⟩,
    ⟨.A, (⟨0, 0⟩), (wA (node 2)), (by decide), (by decide), (by decide), (by decide)⟩,
    ⟨.A, (⟨0, 0⟩), (wA fun c => (node 2 c).wr NTC_STAT_JOINED 0), (by decide), (by decide), (by decide), (by decide)⟩,
    ⟨.A, (wA fun c => { node 4 c with tte := { (node 4 c).tte with framed := false, missing := 2 } }), (by decide), (by decide), (by decide), (by decide), (by decide), (by decide), (by unfold Channel.spares; decide)⟩,
    ⟨.A, (frm 3 0 (List.replicate 8 0) 0xFFFFFFFF 0), (wA fun c => ((node 1 c).wr NTC_STAT_JOINED 0).wr TTE_STAT_ADDR 0), (by decide), (by unfold Channel.goodFrame; decide), (by decide), (by decide), (by decide), (by decide), (by decide), (by decide), (by decide), (by decide)⟩,
    ⟨.A, (⟨0, 0⟩), (wA fun c => { node 3 c with tte := { (node 3 c).tte with enumFlag := true, enumPass := 1, enumAge := 2 } }), (by decide), (by decide), (by decide), (by decide), (by decide), (by decide), (by decide), (by decide)⟩⟩

theorem test_wit_NetworkTimeIsReadAndMeasured :
    (∃ (ch : Chan) (s : State), (s.chan ch).live = true ∧ (s.chan ch).ntcOn = true) ∧
    (∃ (ch : Chan) (port : Fin 2) (t1 : Int) (s : State), (s.chan ch).live = true ∧ (s.chan ch).tteOn = true ∧ (s.chan ch).ntcOn = true) ∧
    (∃ (ch : Chan) (f : Frame) (t3 : Int) (s : State), (s.chan ch).live = true ∧ (s.chan ch).goodFrame f 5 ∧ f.codeOk 0xFFFFFFFF = true) ∧
    (∃ (ch : Chan) (f : Frame) (seq : Nat) (t1 : Int) (s : State), (s.chan ch).live = true ∧ (s.chan ch).goodFrame f 6 ∧ f.codeOk 0xFFFFFFFF = true ∧ (s.chan ch).ntcOn = true ∧ ((s.chan ch).ntc.ld f.port).wait = some (seq, t1) ∧ f.num 0 2 = seq ∧ f.trx - t1 ≤ 50000 * 65536 ∧ ((s.chan ch).ntc.ld f.port).valid = false ∧ 0 ≤ rdiv (f.trx - t1 - toSigned 64 (f.num 8 8)) 8192 ∧ rdiv (f.trx - t1 - toSigned 64 (f.num 8 8)) 8192 ≤ 8000) ∧
    (∃ (ch : Chan) (port : Fin 2) (s : State), (s.chan ch).live = true ∧ (s.chan ch).ntcOn = true ∧ ((s.chan ch).ntc.ld port).wait.isSome = true ∧ ((s.chan ch).ntc.ld port).disc = 7 ∧ (s.chan ch).fcc.tag = none ∧ (s.chan ch).spares 57) ∧
    (∃ (ch : Chan) (port : Fin 2) (s : State), (s.chan ch).live = true ∧ (s.chan ch).ntcOn = true ∧ ((s.chan ch).ntc.ld port).wait.isSome = true ∧ ((s.chan ch).ntc.ld port).disc < 7) ∧
    (∃ (ch : Chan) (m : Fin 8) (s : State), (s.chan ch).live = true ∧ (s.chan ch).ntcOn = true ∧ (s.chan ch).joined = true ∧ ((recsFor (s.chan ch).fol.recs 0x0504 (s.chan ch).me).any fun r => bitsOf (r.w 1) 0 3 == m && r.w 1 == (s.chan ch).rd (NTC_MKCFG1_VALUE m)) = true ∧ (((s.chan ch).rd (NTC_MKCFG2_VALUE m)).testBit 8 || bitsOf ((s.chan ch).rd (NTC_MKCFG2_VALUE m)) 0 8 == (s.chan ch).rd TTE_ROLL_ROW) = true ∧ kget 0 (s.chan ch).ntc.fired m ≠ (s.chan ch).tte.cyc + 1) ∧
    (∃ (ch : Chan) (m : Fin 8) (s : State), kget 0 (s.chan ch).ntc.fired m = (s.chan ch).tte.cyc + 1) :=
  ⟨⟨.A, w0, (by decide), (by decide)⟩,
    ⟨.A, 0, 99, w0, (by decide), (by decide), (by decide)⟩,
    ⟨.A, (frm 5 0 (List.replicate 8 0) 0xFFFFFFFF 0), 99, (wA (node 4)), (by decide), (by unfold Channel.goodFrame; decide), (by decide)⟩,
    ⟨.A, (frm 6 0 (List.replicate 16 0) 0xFFFFFFFF (100 * 65536)), 0, 0, (wA fun c => { node 4 c with ntc := { (node 4 c).ntc with ld0 := { wait := some (0, 0) } } }), (by decide), (by unfold Channel.goodFrame; decide), (by decide), (by decide), (by decide), (by decide), (by decide), (by decide), (by decide), (by decide)⟩,
    ⟨.A, 1, (wA fun c => { c with ntc := { c.ntc with ld1 := { wait := some (0, 0), disc := 7 } } }), (by decide), (by decide), (by decide), (by decide), (by decide), (by unfold Channel.spares; decide)⟩,
    ⟨.A, 1, (wA fun c => { c with ntc := { c.ntc with ld1 := { wait := some (0, 0), disc := 6 } } }), (by decide), (by decide), (by decide), (by decide)⟩,
    ⟨.A, 0, (wA (node 4)), (by decide), (by decide), (by decide), (by decide), (by decide), (by decide)⟩,
    ⟨.A, 0, (wA fun c => { node 4 c with ntc := { fired := [(0, 1)] } }), (by decide)⟩⟩

theorem test_wit_IsobusAddressesAndMessages :
    (∃ (ch : Chan) (f : CanFrame) (n : Fin 2) (r : FolRec) (s : State), (s.chan ch).live = true ∧ (s.chan ch).canRx = true ∧ f.pgn = 0xEE00 ∧ (∀ k : Fin 2, ((s.chan ch).cfRec k).any (fun x => cfName x == leNat (f.data.take 8)) = false) ∧ (s.chan ch).funcOf f.sa = some (n : Nat) ∧ (s.chan ch).cfRec n = some r ∧ cfName r ≤ leNat (f.data.take 8)) ∧
    (∃ (ch : Chan) (f : CanFrame) (n : Fin 2) (r : FolRec) (s : State), (s.chan ch).live = true ∧ (s.chan ch).canRx = true ∧ f.pgn = 0xEE00 ∧ (∀ k : Fin 2, ((s.chan ch).cfRec k).any (fun x => cfName x == leNat (f.data.take 8)) = false) ∧ (s.chan ch).funcOf f.sa = some (n : Nat) ∧ (s.chan ch).cfRec n = some r ∧ leNat (f.data.take 8) < cfName r ∧ cfSelf r = false ∧ (s.chan ch).fcc.tag = none ∧ (s.chan ch).spares 58) ∧
    (∃ (ch : Chan) (f : CanFrame) (r : FolRec) (s : State), (s.chan ch).live = true ∧ (s.chan ch).canRx = true ∧ f.pgn = 0xEE00 ∧ (s.chan ch).cfRec 0 = some r ∧ cfName r = leNat (f.data.take 8) ∧ f.sa < 254 ∧ (s.chan ch).saOf 0 ≠ f.sa) ∧
    (∃ (ch : Chan) (n : Fin 2) (s : State), (s.chan ch).live = true ∧ (s.chan ch).canOn = true ∧ (s.chan ch).can.hold n = true ∧ (s.chan ch).claimState n = 1) ∧
    (∃ (ch : Chan) (i : Instr) (f : CanFrame) (s : State), (s.chan ch).live = true ∧ (s.chan ch).canRx = true ∧ (((i = .guidanceCommandReceived ch f ∧ f.pgn = 0xAC00 ∧ (f.da = 255 ∨ (s.chan ch).funcOf f.da = some 0)) ∨ (i = .speedMessageReceived ch f ∧ (f.pgn = 0xFE48 ∨ f.pgn = 0xFE49) ∧ f.da = 255) ∨ (i = .canFrameReceived ch f ∧ (s.chan ch).canForMe f = true ∧ [0xAC00, 0xFE48, 0xFE49, 0xFEE6, 0xEA00, 0xEC00, 0xEB00, 0xEE00].contains f.pgn = false)))) ∧
    (∃ (ch : Chan) (f : CanFrame) (n : Nat) (s : State), (s.chan ch).live = true ∧ (s.chan ch).canRx = true ∧ f.pgn = 0xFEE6 ∧ (s.chan ch).canForMe f = true ∧ timeOf f.data = some n ∧ (s.chan ch).can.rxq.length < 16) ∧
    (∃ (ch : Chan) (s : State), (s.chan ch).live = true ∧ (s.chan ch).canOn = true) ∧
    (∃ (ch : Chan) (f : CanFrame) (n : Fin 2) (r : FolRec) (s : State), (s.chan ch).live = true ∧ (s.chan ch).speaks = true ∧ f.pgn = 0xEA00 ∧ f.da ≠ 255 ∧ leNat (f.data.take 3) = 0xEE00 ∧ (s.chan ch).funcOf f.da = some (n : Nat) ∧ (s.chan ch).cfRec n = some r) :=
  ⟨⟨.A, (⟨0xEE00, 0x26, 255, leBytes 8 6⟩), 0, (⟨0x0600, 0, 0, [0x2600, 5, 0]⟩), (wA bus), (by decide), (by decide), (by decide), (by decide), (by decide), (by decide), (by decide)⟩,
    ⟨.A, (⟨0xEE00, 0x26, 255, leBytes 8 4⟩), 0, (⟨0x0600, 0, 0, [0x2600, 5, 0]⟩), (wA bus), (by decide), (by decide), (by decide), (by decide), (by decide), (by decide), (by decide), (by decide), (by decide), (by unfold Channel.spares; decide)⟩,
    ⟨.A, (⟨0xEE00, 0x27, 255, leBytes 8 5⟩), (⟨0x0600, 0, 0, [0x2600, 5, 0]⟩), (wA bus), (by decide), (by decide), (by decide), (by decide), (by decide), (by decide), (by decide)⟩,
    ⟨.A, 0, (wA fun c => { (bus c).wr (CAN_CLAIM_STATE 0) 1 with can := { (bus c).can with hold0 := true } }), (by decide), (by decide), (by decide), (by decide)⟩,
    ⟨.A, (.guidanceCommandReceived .A ⟨0xAC00, 0x80, 255, leBytes 8 1⟩), (⟨0xAC00, 0x80, 255, leBytes 8 1⟩), (wA bus), (by decide), (by decide), (by decide)⟩,
    ⟨.A, (⟨0xFEE6, 0x80, 255, [0, 0, 0, 1, 1, 0, 255, 255]⟩), 0, (wA bus), (by decide), (by decide), (by decide), (by decide), (by decide), (by decide)⟩,
    ⟨.A, (wA fun c => { bus c with can := { (bus c).can with rxq := [⟨0xAC00, 0x80, 1, []⟩] } }), (by decide), (by decide)⟩,
    ⟨.A, (⟨0xEA00, 0x80, 0x26, [0, 0xEE, 0]⟩), 0, (⟨0x0600, 0, 0, [0x2600, 5, 0]⟩), (wA bus), (by decide), (by decide), (by decide), (by decide), (by decide), (by decide), (by decide)⟩⟩

theorem test_wit_IsobusSessionsCarryMessages :
    (∃ (ch : Chan) (f : CanFrame) (s : State), (s.chan ch).live = true ∧ (s.chan ch).speaks = true ∧ f.pgn = 0xEC00 ∧ f.data.head? = some 16 ∧ ((s.chan ch).funcOf f.da).isSome = true ∧ (f.data.getD 1 0).toNat + 256 * (f.data.getD 2 0).toNat ≤ (s.chan ch).rxBuf ∧ ((s.chan ch).can.dropSession f.sa f.da).rx.length < 4) ∧
    (∃ (ch : Chan) (f : CanFrame) (s : State), (s.chan ch).live = true ∧ (s.chan ch).speaks = true ∧ f.pgn = 0xEC00 ∧ f.data.head? = some 16 ∧ ((s.chan ch).funcOf f.da).isSome = true ∧ (s.chan ch).rxBuf < (f.data.getD 1 0).toNat + 256 * (f.data.getD 2 0).toNat) ∧
    (∃ (ch : Chan) (f : CanFrame) (s : State), (s.chan ch).live = true ∧ (s.chan ch).canRx = true ∧ f.pgn = 0xEC00 ∧ f.data.head? = some 32 ∧ f.da = 255) ∧
    (∃ (ch : Chan) (f : CanFrame) (r : RxSession) (s : State), (s.chan ch).live = true ∧ (s.chan ch).canRx = true ∧ f.pgn = 0xEB00 ∧ (s.chan ch).can.session f.sa f.da = some r ∧ r.bam = true ∧ (f.data.getD 0 0).toNat = r.next) ∧
    (∃ (ch : Chan) (sa da : Nat) (r : RxSession) (s : State), (s.chan ch).live = true ∧ (s.chan ch).canRx = true ∧ (s.chan ch).can.session sa da = some r) ∧
    (∃ (ch : Chan) (f : CanFrame) (n : Fin 2) (x : TxSession) (s : State), (s.chan ch).live = true ∧ (s.chan ch).speaks = true ∧ f.pgn = 0xEC00 ∧ (s.chan ch).funcOf f.da = some (n : Nat) ∧ (s.chan ch).can.tx n = some x ∧ x.da = f.sa ∧ x.pgn = tpPgnOf f ∧ (f.data.getD 0 0).toNat = 17 ∧ (f.data.getD 1 0).toNat = 1 ∧ 1 ≤ (f.data.getD 2 0).toNat ∧ (f.data.getD 2 0).toNat ≤ packetsOf x.data.length) ∧
    (∃ (ch : Chan) (f : CanFrame) (n : Fin 2) (x : TxSession) (s : State), (s.chan ch).live = true ∧ (s.chan ch).canRx = true ∧ f.pgn = 0xEC00 ∧ (s.chan ch).funcOf f.da = some (n : Nat) ∧ (s.chan ch).can.tx n = some x ∧ x.da = f.sa ∧ x.pgn = tpPgnOf f ∧ (f.data.getD 0 0).toNat = 19) :=
  ⟨⟨.A, (⟨0xEC00, 0x80, 0x26, [16, 0xF9, 0x06, 255, 255, 0, 0xEF, 0]⟩), (wA bus), (by decide), (by decide), (by decide), (by decide), (by decide), (by decide), (by decide)⟩,
    ⟨.A, (⟨0xEC00, 0x80, 0x26, [16, 0xFA, 0x06, 255, 255, 0, 0xEF, 0]⟩), (wA bus), (by decide), (by decide), (by decide), (by decide), (by decide), (by decide)⟩,
    ⟨.A, (⟨0xEC00, 0x80, 255, [32, 20, 0, 3, 255, 0, 0xEF, 0]⟩), (wA bus), (by decide), (by decide), (by decide), (by decide), (by decide)⟩,
    ⟨.A, (⟨0xEB00, 0x80, 255, [2, 1, 2, 3, 4, 5, 6, 7]⟩), (⟨0x80, 255, 0xEF00, 20, 3, true, 2, List.replicate 7 9, 255, 0⟩), (wA (rxs ⟨0x80, 255, 0xEF00, 20, 3, true, 2, List.replicate 7 9, 255, 0⟩)), (by decide), (by decide), (by decide), (by decide), (by decide), (by decide)⟩,
    ⟨.A, 0x80, 0x26, (⟨0x80, 0x26, 0xEF00, 20, 3, false, 1, [], 255, 0⟩), (wA (rxs ⟨0x80, 0x26, 0xEF00, 20, 3, false, 1, [], 255, 0⟩)), (by decide), (by decide), (by decide)⟩,
    ⟨.A, (⟨0xEC00, 0x80, 0x26, [17, 1, 1, 255, 255, 0, 0, 0]⟩), 0, (⟨0x80, 0, List.replicate 20 7, 1⟩), (wA fun c => { bus c with can := { (bus c).can with tx0 := some ⟨0x80, 0, List.replicate 20 7, 1⟩ } }), (by decide), (by decide), (by decide), (by decide), (by decide), (by decide), (by decide), (by decide), (by decide), (by decide), (by decide)⟩,
    ⟨.A, (⟨0xEC00, 0x80, 0x26, [19, 20, 0, 3, 255, 0, 0, 0]⟩), 0, (⟨0x80, 0, List.replicate 20 7, 1⟩), (wA fun c => { bus c with can := { (bus c).can with tx0 := some ⟨0x80, 0, List.replicate 20 7, 1⟩ } }), (by decide), (by decide), (by decide), (by decide), (by decide), (by decide), (by decide), (by decide)⟩⟩

theorem test_wit_IsobusVoiceTransmits :
    (∃ (ch : Chan) (n : Fin 2) (v : Word) (s : State), (s.chan ch).live = true ∧ (s.chan ch).canOn = true ∧ (s.chan ch).voice = true ∧ v.toNat.testBit 31 = true ∧ v.toNat / 2 ^ 27 % 2 = n ∧ v.toNat % 2 ^ 11 ≤ 8 ∧ (s.chan ch).can.tx n = none ∧ (s.chan ch).funcOf ((s.chan ch).saOf n) = some (n : Nat) ∧ ((s.mss.is LOG_STAT_DEAD = false ∨ (s.chan ch).rd CAN_TXPGN_PGN ≠ 0xFECA))) ∧
    (∃ (ch : Chan) (v : Word) (s : State), (s.chan ch).live = true ∧ (s.chan ch).canOn = true ∧ (s.chan ch).voice = false ∧ v.toNat.testBit 31 = true) ∧
    (∃ (ch : Chan) (n : Fin 2) (f : CanFrame) (s : State), (s.chan ch).live = true ∧ (s.chan ch).speaks = true ∧ (s.chan ch).nextFrame n = some f ∧ (s.chan ch).can.pend n = some f ∧ (s.chan ch).can.tx n = none) ∧
    (∃ (ch : Chan) (n : Fin 2) (x : TxSession) (s : State), (s.chan ch).live = true ∧ (s.chan ch).speaks = true ∧ (s.chan ch).can.tx n = some x ∧ x.da = 255 ∧ x.next ≤ packetsOf x.data.length) ∧
    (∃ (ch : Chan) (s : State), (s.chan ch).live = true ∧ (s.chan ch).speaks = true ∧ (s.chan ch).claimState 0 = 2) ∧
    (∃ (ch : Chan) (s : State), (s.chan ch).live = true ∧ (s.chan ch).canRx = true ∧ (s.chan ch).voice = true ∧ (s.chan ch).can.on = false) ∧
    (∃ (ch : Chan) (s : State), (s.chan ch).live = true ∧ (s.chan ch).canOn = true ∧ (s.chan ch).voice = true ∧ (s.chan ch).fcc.tag = none ∧ (s.chan ch).spares 59) ∧
    (∃ (ch : Chan) (s : State), (s.chan ch).live = true ∧ (s.chan ch).canRx = true ∧ (s.chan ch).is CAN_ISTAT_RESTRICT = false ∧ (s.chan ch).fcc.tag = none ∧ (s.chan ch).spares 60) ∧
    (∃ (ch : Chan) (s : State), (s.chan ch).is CAN_ISTAT_RESTRICT = true) ∧
    (∃ (ch : Chan) (s : State), (s.chan ch).live = true ∧ (s.chan ch).canOn = true) :=
  ⟨⟨.A, 0, 0x80000008, (wA bus), (by decide), (by decide), (by decide), (by decide), (by decide), (by decide), (by decide), (by decide), (by decide)⟩,
    ⟨.A, 0x80000008, (wA fun c => (bus c).wr CAN_ISTAT_VOICE 0), (by decide), (by decide), (by decide), (by decide)⟩,
    ⟨.A, 0, (⟨0xAD00, 0x26, 255, [1]⟩), (wA fun c => { bus c with can := { (bus c).can with queue := [⟨0xAD00, 0x26, 255, [1]⟩], pend0 := some ⟨0xAD00, 0x26, 255, [1]⟩ } }), (by decide), (by decide), (by decide), (by decide), (by decide)⟩,
    ⟨.A, 0, (⟨255, 0xEF00, List.replicate 20 7, 3⟩), (wA fun c => { bus c with can := { (bus c).can with tx0 := some ⟨255, 0xEF00, List.replicate 20 7, 3⟩ } }), (by decide), (by decide), (by decide), (by decide), (by decide)⟩,
    ⟨.A, (wA bus), (by decide), (by decide), (by decide)⟩,
    ⟨.A, (wA fun c => { bus c with can := { (bus c).can with on := false } }), (by decide), (by decide), (by decide), (by decide)⟩,
    ⟨.A, (wA bus), (by decide), (by decide), (by decide), (by decide), (by unfold Channel.spares; decide)⟩,
    ⟨.A, (wA fun c => (bus c).wr CAN_ISTAT_RESTRICT 0), (by decide), (by decide), (by decide), (by decide), (by unfold Channel.spares; decide)⟩,
    ⟨.A, (wA fun c => (bus c).wr CAN_ISTAT_RESTRICT 1), (by decide)⟩,
    ⟨.A, (wA bus), (by decide), (by decide)⟩⟩

theorem test_wit_FaultEventsRunsAndRecovery :
    (∃ (ch : Chan) (i : Instr) (src : Fin 64) (s : State), ((i = .faultEvent ch src ∨ (i = .tempCd ch ∧ src = 6) ∨ (i = .cpWdog ch ∧ src = 61) ∨ (i = .d2dErr ch ∧ src = 14))) ∧ (s.chan ch).live = true ∧ (s.chan ch).blockOn (blockOf src) = true ∧ (s.chan ch).fcc.tag = none ∧ (s.chan ch).spares src) ∧
    (∃ (ch : Chan) (src : Fin 64) (s : State), (s.chan ch).live = true) ∧
    (∃ (ch : Chan) (src : Fin 64) (s : State), (s.chan ch).live = true ∧ (s.chan ch).srcBit FCC_ACT_SRC src = true ∧ (s.chan ch).severe src = false ∧ (s.chan ch).spares 63 ∧ src ≠ 63) :=
  ⟨⟨.A, (.faultEvent .A 2), 2, w0, (by decide), (by decide), (by decide), (by decide), (by unfold Channel.spares; decide)⟩,
    ⟨.A, 2, w0, (by decide)⟩,
    ⟨.A, 2, (wA fun c => c.setBit (FCC_ACT_SRC 0) 2 true), (by decide), (by decide), (by decide), (by unfold Channel.spares; decide), (by decide)⟩⟩

theorem test_wit_ErrorPinAndInjection :
    (∃ (ch : Chan) (hold : Bool) (s : State), (s.chan ch).live = true) ∧
    (∃ (ch : Chan) (s : State), (s.chan ch).live = true) ∧
    (∃ (ch : Chan) (v : Word) (latency : Nat) (s : State), (s.chan ch).live = true ∧ (s.chan ch).is STW_SEAL_SEAL = false ∧ (s.chan ch).is FCC_INJ_START = false ∧ v.toNat / 2 ^ 31 = 1 ∧ (s.chan ch).hasRoom = true ∧ v.toNat / 2 ^ 16 % 2 = 0 ∧ (s.chan ch).blockOn (blockOf (v.toNat % 64)) = true) ∧
    (∃ (ch : Chan) (s : State), (s.chan ch).live = true ∧ (s.chan ch).fcc.fccInj = true) ∧
    (∃ (ch : Chan) (high : Bool) (s : State), (s.chan ch).live = true ∧ (s.chan ch).fcc.fccInj = true ∧ (s.chan ch).fcc.released = true ∧ (s.chan ch).spares ((s.chan ch).rd FCC_INJ_SRC) ∧ (s.chan ch).blockOn (blockOf ((s.chan ch).rd FCC_INJ_SRC)) = true) :=
  ⟨⟨.A, true, w0, (by decide)⟩,
    ⟨.A, (wA fun c => { c with fcc := { c.fcc with pulse := true } }), (by decide)⟩,
    ⟨.A, 0x80000002, 20, w0, (by decide), (by decide), (by decide), (by decide), (by decide), (by decide), (by decide)⟩,
    ⟨.A, (wA fun c => { c with fcc := { c.fcc with fccInj := true } }), (by decide), (by decide)⟩,
    ⟨.A, true, (wA fun c => { (c.wr FCC_INJ_START 1).wr FCC_INJ_SRC 2 with fcc := { c.fcc with fccInj := true, released := true, tag := some 2 } }), (by decide), (by decide), (by decide), (by unfold Channel.spares; decide), (by decide)⟩⟩

theorem test_wit_EngineWatchdogsAndClockFailure :
    (∃ (ch : Chan) (eng : Fin 4) (s : State), (s.chan ch).live = true ∧ eng ≠ 0) ∧
    (∃ (ch : Chan) (eng : Fin 4) (s : State), (s.chan ch).live = true ∧ eng ≠ 0 ∧ (s.chan ch).fcc.engines.getLsbD eng = true ∧ (s.chan ch).bit STW_DBG_HALTED (eng + 1) = false ∧ 2000000 ≤ (s.chan ch).sinceKick eng ∧ (s.chan ch).blockOn (engineBlock eng) = true ∧ (s.chan ch).fcc.tag = none ∧ (s.chan ch).spares 11) ∧
    (∃ (ch : Chan) (arrives : Bool) (s : State), (s.chan ch).live = true) :=
  ⟨⟨.A, 1, w0, (by decide), (by decide)⟩,
    ⟨.A, 1, (wA fun c => { c with tb := 3000000, fcc := { c.fcc with engines := 15 } }), (by decide), (by decide), (by decide), (by decide), (by decide), (by decide), (by decide), (by unfold Channel.spares; decide)⟩,
    ⟨.A, true, w0, (by decide)⟩⟩

theorem test_wit_BlockAndChannelResetsRun :
    (∃ (ch : Chan) (v : Word) (s : State), (s.chan ch).live = true ∧ (((s.chan ch).voting = false ∨ (s.chan ch).rd STW_MODE_MODE = 6 ∨ (s.chan ch).rd STW_MODE_MODE = 7)) ∧ ((∀ b < 17, v.toNat.testBit b = true → resettable b = true))) ∧
    (∃ (ch : Chan) (v : Word) (s : State), (s.chan ch).live = true ∧ ((s.chan ch).voting = true ∧ (s.chan ch).rd STW_MODE_MODE ≠ 6 ∧ (s.chan ch).rd STW_MODE_MODE ≠ 7) ∧ (s.chan ch).spares 10) ∧
    (∃ (ch : Chan) (v : Word) (s : State), (s.chan ch).live = true ∧ v.toNat % 2 ^ 16 = 0xC3A5 ∧ (((s.chan ch).voting = false ∨ (s.chan ch).rd STW_MODE_MODE = 6 ∨ (s.chan ch).rd STW_MODE_MODE = 7))) ∧
    (∃ (ch : Chan) (blk : Fin 17) (s : State), (s.chan ch).live = true ∧ (s.chan ch).bit STW_BLKSTAT_BLK blk = true ∧ blk ≠ 7 ∧ (s.chan ch).spares 55) ∧
    (∃ (ch : Chan) (s : State), (s.chan ch).live = true ∧ (s.chan ch).bit STW_BLKSTAT_BLK 7 = true ∧ (s.chan ch).is GDR_STAT_INRST = true ∧ (s.chan ch).gdrHeld = false ∧ (s.chan ch).pump ≠ 5) ∧
    (∃ (ch : Chan) (cause : ResetCause) (s : State), (s.chan ch).pwr.off = false ∧ cause ≠ .powerOn) ∧
    (∃ (ch : Chan) (s : State), (s.chan ch).resetting = true ∧ (s.chan ch).pwr.off = false ∧ (s.chan ch).is CMP_STAT_SPLIT = false) ∧
    (∃ (ch : Chan) (s : State), (s.chan ch).resetting = true ∧ (s.chan ch).pwr.off = false ∧ (s.chan ch).is CMP_STAT_SPLIT = false ∧ (s.chan ch).hasRoom = true) ∧
    (∃ (ch : Chan) (v : Word) (s : State), (s.chan ch).live = true ∧ (s.chan ch).is CMP_STAT_SPLIT = true) ∧
    (∃ (ch : Chan) (s : State), (s.chan ch).live = true ∧ (s.chan ch).is CMP_STAT_SPLIT = true ∧ (s.chan ch).rd STW_MODE_MODE = 6 ∧ (s.chan ch).voting = false) :=
  ⟨⟨.A, 0x10, w0, (by decide), (by decide), (by decide)⟩,
    ⟨.A, 0x10, (wA full), (by decide), (by decide), (by unfold Channel.spares; decide)⟩,
    ⟨.A, 0xC3A5, w0, (by decide), (by decide), (by decide)⟩,
    ⟨.A, 2, (wA fun c => c.setBit STW_BLKSTAT_BLK 2 true), (by decide), (by decide), (by decide), (by unfold Channel.spares; decide)⟩,
    ⟨.A, (wA fun c => (c.setBit STW_BLKSTAT_BLK 7 true).wr GDR_STAT_INRST 1), (by decide), (by decide), (by decide), (by decide), (by decide)⟩,
    ⟨.A, .mp, w0, (by decide), (by decide)⟩,
    ⟨.A, (wA fun c => { c with resetting := true }), (by decide), (by decide), (by decide)⟩,
    ⟨.A, (wA fun c => { c with resetting := true }), (by decide), (by decide), (by decide), (by decide)⟩,
    ⟨.A, 0x20000101, (wA fun c => c.wr CMP_STAT_SPLIT 1), (by decide), (by decide)⟩,
    ⟨.A, (wA fun c => (c.wr CMP_STAT_SPLIT 1).wr STW_MODE_MODE 6), (by decide), (by decide), (by decide), (by decide)⟩⟩

theorem test_wit_ManagementClocksSensorsAndLoad :
    (∃ s : State, s.mss.on = true) ∧
    (∃ (v : Word) (s : State), s.mss.on = true) ∧
    (∃ (samples : SensorSet) (back : BitVec 25) (s : State), s.mss.mpRuns = true ∧ samples.length = 25) ∧
    (∃ s : State, s.mss.mpRuns = true) ∧
    (∃ (busy : Nat) (s : State), s.mss.mpRuns = true ∧ 90 < busy ∧ s.mss.sup.above3 = 2 ∧ s.mss.rd MSS_STAT_LOAD < 3) ∧
    (∃ (busy : Nat) (s : State), s.mss.mpRuns = true ∧ busy < 60 ∧ s.mss.sup.below = 9 ∧ 0 < s.mss.rd MSS_STAT_LOAD) ∧
    (∃ (busy : Nat) (s : State), s.mss.mpRuns = true ∧ 60 ≤ busy ∧ busy ≤ 70) :=
  ⟨⟨w0, (by decide)⟩,
    ⟨7, w0, (by decide)⟩,
    ⟨(List.replicate 25 3), 0, w0, (by decide), (by decide)⟩,
    ⟨w0, (by decide)⟩,
    ⟨95, (wM (fun m => { m with sup := { m.sup with above3 := 2 } }) w0), (by decide), (by decide), (by decide), (by decide)⟩,
    ⟨50, (wM (fun m => { m.wr MSS_STAT_LOAD 2 with sup := { m.sup with below := 9 } }) w0), (by decide), (by decide), (by decide), (by decide)⟩,
    ⟨65, w0, (by decide), (by decide), (by decide)⟩⟩

theorem test_wit_LogTakesRecords :
    (∃ (ch : Chan) (x : LogMsg) (rest : List LogMsg) (s : State), (s.chan ch).logq = x :: rest ∧ (s.chan ch).live = true ∧ (s.chan ch).mlink = true ∧ s.mss.on = true ∧ (s.mss.port ch).up = true ∧ s.mss.log.intake.length < 256) ∧
    (∃ (ch : Chan) (v : Word) (s : State), (s.chan ch).live = true ∧ ((s.chan ch).regs.word (MBX_MSG 0)).toNat % 2 ^ 16 < 0x8000) ∧
    (∃ (ch : Chan) (v : Word) (s : State), (s.chan ch).live = true ∧ 0x8000 ≤ ((s.chan ch).regs.word (MBX_MSG 0)).toNat % 2 ^ 16 ∧ (s.chan ch).hasRoom = true) ∧
    (∃ s : State, s.mss.mpRuns = true ∧ s.mss.is LOG_STAT_BUSY = false ∧ s.mss.is LOG_STAT_FULL = false ∧ s.mss.is LOG_STAT_DEAD = false) ∧
    (∃ s : State, s.mss.mpRuns = true ∧ s.mss.is LOG_STAT_BUSY = true) ∧
    (∃ s : State, s.mss.mpRuns = true ∧ s.mss.is LOG_STAT_BUSY = false ∧ s.mss.is LOG_STAT_FULL = true) ∧
    (∃ (r : LogRecord) (s : State), s.mss.on = true ∧ s.mss.log.now = some r ∧ s.mss.is LOG_STAT_RET0 = false ∧ s.mss.is LOG_STAT_RET1 = false) ∧
    (∃ (r : LogRecord) (s : State), s.mss.on = true ∧ s.mss.log.now = some r ∧ s.mss.is LOG_STAT_RET0 = false ∧ s.mss.is LOG_STAT_RET1 = false) :=
  ⟨⟨.A, (⟨1, 0, 0, 0, 0x8000, 1, 5⟩), ([]), (wA fun c => { c with logq := [⟨1, 0, 0, 0, 0x8000, 1, 5⟩] }), (by decide), (by decide), (by decide), (by decide), (by decide), (by decide)⟩,
    ⟨.A, 0, w0, (by decide), (by decide)⟩,
    ⟨.A, 0, (wA fun c => c.wrWord (MBX_MSG 0) 0x18000), (by decide), (by decide), (by decide)⟩,
    ⟨w0, (by decide), (by decide), (by decide), (by decide)⟩,
    ⟨(wM (fun m => m.wr LOG_STAT_BUSY 1) w0), (by decide), (by decide)⟩,
    ⟨(wM (fun m => m.wr LOG_STAT_FULL 1) w0), (by decide), (by decide), (by decide)⟩,
    ⟨(⟨0, 1, 1, 0, 0x8000, 1, 0, 0, 0, 0, 5, 0⟩), (wM (fun m => { m.wr LOG_STAT_BUSY 1 with log := { m.log with now := some ⟨0, 1, 1, 0, 0x8000, 1, 0, 0, 0, 0, 5, 0⟩ } }) w0), (by decide), (by decide), (by decide), (by decide)⟩,
    ⟨(⟨0, 1, 1, 0, 0x8000, 1, 0, 0, 0, 0, 5, 0⟩), (wM (fun m => { m.wr LOG_STAT_BUSY 1 with log := { m.log with now := some ⟨0, 1, 1, 0, 0x8000, 1, 0, 0, 0, 0, 5, 0⟩ } }) w0), (by decide), (by decide), (by decide), (by decide)⟩⟩

theorem test_wit_ManagementLinksServe :
    (∃ (ch : Chan) (s : State), (s.chan ch).live = true ∧ (s.chan ch).mlink = true ∧ (s.chan ch).blockOn 6 = true ∧ (s.chan ch).fcc.tag = none ∧ (s.chan ch).spares 13) ∧
    (∃ (ch : Chan) (s : State), (s.chan ch).live = true ∧ s.mss.on = true) ∧
    (∃ (ch : Chan) (v : Word) (s : State), s.mss.on = true ∧ (s.mss.port ch).up = true ∧ (s.chan ch).live = true ∧ (s.mss.port ch).read = none) ∧
    (∃ (ch : Chan) (v : Word) (s : State), s.mss.on = true ∧ (s.mss.port ch).up = true ∧ (s.chan ch).live = true ∧ (s.mss.port ch).read ≠ none) ∧
    (∃ (ch : Chan) (start count : Nat) (s : State), s.mss.mpRuns = true ∧ (s.mss.port ch).read = some (0, start, count) ∧ count ≤ 16) ∧
    (∃ s : State, s.mss.mpRuns = true) :=
  ⟨⟨.A, w0, (by decide), (by decide), (by decide), (by decide), (by unfold Channel.spares; decide)⟩,
    ⟨.A, (wM (pA fun p => { p with up := false }) w0), (by decide), (by decide)⟩,
    ⟨.A, 4, w0, (by decide), (by decide), (by decide), (by decide)⟩,
    ⟨.A, 4, (wM (pA fun p => { p with read := some (0, 0, 4) }) w0), (by decide), (by decide), (by decide), (by decide)⟩,
    ⟨.A, 0, 4, (wM (pA fun p => { p with read := some (0, 0, 4) }) w0), (by decide), (by decide), (by decide)⟩,
    ⟨w0, (by decide)⟩⟩

theorem test_wit_HeartbeatsGuardTheMp :
    (∃ (i : Instr) (s : State), (((i = .mssHbKick ∧ s.mss.mpRuns = true) ∨ (i = .supervisorHeartbeat ∧ s.mss.on = true ∧ s.mss.mp = true)))) ∧
    (∃ (ch : Chan) (s : State), (s.chan ch).live = true ∧ (s.chan ch).blockOn 6 = true ∧ (s.chan ch).fcc.tag = none ∧ (s.chan ch).spares 62) ∧
    (∃ (ch : Chan) (s : State), (s.chan ch).live = true) ∧
    (∃ s : State, s.mss.on = true ∧ s.mss.held = false ∧ s.mss.restart = none ∧ s.mss.voted = true) ∧
    (∃ s : State, s.mss.mpRuns = true) ∧
    (∃ (code votes : Nat) (s : State), s.mss.restart = some (code, votes) ∧ s.mss.on = true ∧ s.mss.held = false ∧ s.mss.imageGood true = true) ∧
    (∃ (code votes : Nat) (s : State), s.mss.restart = some (code, votes) ∧ s.mss.on = true ∧ s.mss.held = false ∧ s.mss.imageGood true = false) ∧
    (∃ (used : Bool) (s : State), s.mss.on = false ∧ ((s.a.pwr.up = true ∨ s.b.pwr.up = true ∨ s.c.pwr.up = true ∨ used = true)) ∧ s.noTokens ∧ s.mss.imageGood true = true) ∧
    (∃ (ok used : Bool) (s : State), s.mss.on = false ∧ ((s.a.pwr.up = true ∨ s.b.pwr.up = true ∨ s.c.pwr.up = true ∨ used = true)) ∧ s.noTokens ∧ ((ok = false ∨ s.mss.imageGood true = false))) ∧
    (∃ s : State, (∃ ch, (s.chan ch).pwr.up = true)) :=
  ⟨⟨.mssHbKick, w0, (by decide)⟩,
    ⟨.A, w0, (by decide), (by decide), (by decide), (by unfold Channel.spares; decide)⟩,
    ⟨.A, w0, (by decide)⟩,
    ⟨(wM (fun m => m.wr MSS_STAT_VOTES 3) w0), (by decide), (by decide), (by decide), (by decide)⟩,
    ⟨w0, (by decide)⟩,
    ⟨2, 0, (wM (fun m => { m with mp := false, restart := some (2, 0) }) w0), (by decide), (by decide), (by decide), (by decide)⟩,
    ⟨2, 0, (wM (fun m => { m with mp := false, restart := some (2, 0), slotA := 2 }) w0), (by decide), (by decide), (by decide), (by decide)⟩,
    ⟨true, (wM (fun m => { m with on := false }) w0), (by decide), (by decide), ⟨by intro c; cases c <;> decide, by decide⟩, (by decide)⟩,
    ⟨false, true, (wM (fun m => { m with on := false }) w0), (by decide), (by decide), ⟨by intro c; cases c <;> decide, by decide⟩, (by decide)⟩,
    ⟨w0, ⟨.A, by decide⟩⟩⟩

theorem test_wit_KeyCommandsRunAndEnd :
    (∃ (i : Instr) (n : Nat) (ch : Chan) (s : State), (((i = .keyChallenge ch ∧ n = 1) ∨ (i = .keySubmitToken ch ∧ n = 2) ∨ (i = .keyAttest ch ∧ n = 3) ∨ (i = .keyFuseRootSlot ch ∧ n = 4) ∨ (i = .keyAppendPart ch ∧ n = 5))) ∧ s.served ch = true ∧ (s.mss.port ch).keyCmd = 0 ∧ ((n = 2 ∨ n = 5 → 1 ≤ (s.mss.port ch).rd KEY_PART_LEN ∧ (s.mss.port ch).rd KEY_PART_LEN ≤ 8192 ∧ (s.mss.port ch).assembly.length + (s.mss.port ch).rd KEY_PART_LEN ≤ 40960))) ∧
    (∃ (i : Instr) (ch : Chan) (s : State), ((i = .keyChallenge ch ∨ i = .keySubmitToken ch ∨ i = .keyAttest ch ∨ i = .keyFuseRootSlot ch ∨ i = .keyAppendPart ch)) ∧ s.served ch = true ∧ (s.mss.port ch).keyCmd ≠ 0) ∧
    (∃ (i : Instr) (n : Nat) (ch : Chan) (s : State), (((i = .keySubmitToken ch ∧ n = 2) ∨ (i = .keyAppendPart ch ∧ n = 5))) ∧ s.served ch = true ∧ (s.mss.port ch).keyCmd = 0 ∧ (((s.mss.port ch).rd KEY_PART_LEN = 0 ∨ 8192 < (s.mss.port ch).rd KEY_PART_LEN))) ∧
    (∃ (ch : Chan) (s : State), s.mss.mpRuns = true ∧ s.mss.key.gen ≠ 2 ∧ (s.mss.port ch).keyCmd = 1) ∧
    (∃ (ch : Chan) (s : State), s.mss.mpRuns = true ∧ s.mss.key.gen ≠ 2 ∧ (s.mss.port ch).keyCmd = 2 ∧ tokenForm (s.mss.port ch).assembly = false) ∧
    (∃ (ch : Chan) (s : State), s.mss.mpRuns = true ∧ s.mss.key.gen ≠ 2 ∧ (s.mss.port ch).keyCmd = 5) ∧
    (∃ (ch : Chan) (n : Nat) (s : State), s.mss.mpRuns = true ∧ s.mss.key.gen ≠ 2 ∧ (s.mss.port ch).keyCmd = 4 ∧ s.mss.key.otp.lc = 1 ∧ s.mss.key.otp.emptySlot = some n) ∧
    (∃ (ch : Chan) (n : Nat) (s : State), s.mss.mpRuns = true ∧ s.mss.key.gen = 0 ∧ (s.mss.port ch).keyCmd = 3 ∧ s.mss.key.queue.head? = some ch ∧ s.mss.rd MSS_STAT_LOAD ≠ 3 ∧ s.mss.key.leaf = some n ∧ n < leafMax ∧ 0 < s.mss.rd KEY_STAT_CREDIT ∧ n % 1024 ≠ 1023) ∧
    (∃ (ch : Chan) (s : State), s.mss.mpRuns = true ∧ s.mss.key.gen = 0 ∧ (s.mss.port ch).keyCmd = 3 ∧ s.mss.key.queue.head? = some ch ∧ s.mss.rd MSS_STAT_LOAD ≠ 3 ∧ s.mss.rd KEY_STAT_CREDIT = 0) :=
  ⟨⟨(.keyChallenge .A), 1, .A, w0, (by decide), (by decide), (by decide), (by decide)⟩,
    ⟨(.keyAttest .A), .A, (wM (pA fun p => { p with keyCmd := 1 }) w0), (by decide), (by decide), (by decide)⟩,
    ⟨(.keySubmitToken .A), 2, .A, w0, (by decide), (by decide), (by decide), (by decide)⟩,
    ⟨.A, (wM (pA fun p => { p with keyCmd := 1 }) w0), (by decide), (by decide), (by decide)⟩,
    ⟨.A, (wM (pA fun p => { p with keyCmd := 2, assembly := [1, 2] }) w0), (by decide), (by decide), (by decide), (by decide)⟩,
    ⟨.A, (wM (pA fun p => { p with keyCmd := 5 }) w0), (by decide), (by decide), (by decide)⟩,
    ⟨.A, 0, (wM (pA fun p => { p with keyCmd := 4 }) w0), (by decide), (by decide), (by decide), (by decide), (by decide)⟩,
    ⟨.A, 0, (wM (fun m => { pA (fun p => { p with keyCmd := 3 }) m with key := { m.key with queue := [.A] } }) w0), (by decide), (by decide), (by decide), (by decide), (by decide), (by decide), (by decide), (by decide), (by decide)⟩,
    ⟨.A, (wM (fun m => { pA (fun p => { p with keyCmd := 3 }) (m.wr KEY_STAT_CREDIT 0) with key := { m.key with queue := [.A] } }) w0), (by decide), (by decide), (by decide), (by decide), (by decide), (by decide)⟩⟩

theorem test_wit_IdentitiesAndCreditsRenew :
    (∃ s : State, s.mss.on = true) ∧
    (∃ s : State, s.mss.mpRuns = true ∧ s.mss.key.gen = 1) ∧
    (∃ s : State, s.mss.mpRuns = true ∧ s.mss.key.gen = 2 ∧ s.mss.key.lcTo ≠ 5) :=
  ⟨⟨w0, (by decide)⟩,
    ⟨(wM (fun m => m.onKey fun k => { k with gen := 1 }) w0), (by decide), (by decide)⟩,
    ⟨(wM (fun m => m.onKey fun k => { k with gen := 2, lcTo := 2 }) w0), (by decide), (by decide), (by decide)⟩⟩

theorem test_wit_UpdateSessionsAreStaged :
    (∃ (ch : Chan) (s : State), s.served ch = true ∧ s.mss.rd UPD_STAT_OWNER = 0 ∧ 0 < s.mss.rd UPD_LEN_VALUE ∧ s.mss.rd UPD_LEN_VALUE % 4 = 0 ∧ s.mss.rd UPD_LEN_VALUE ≤ envMax) ∧
    (∃ (ch : Chan) (s : State), s.served ch = true ∧ s.mss.rd UPD_STAT_OWNER ≠ 0 ∧ s.mss.rd UPD_STAT_OWNER ≠ ch.num ∧ s.mss.sup.up - s.mss.upd.blockAt < 60000) ∧
    (∃ (ch : Chan) (words : Nat) (s : State), s.served ch = true ∧ s.mss.owns ch = true ∧ s.mss.rd MSS_STAT_LOAD ≠ 3 ∧ s.mss.rd UPD_STAT_STATE = 1 ∧ 1 ≤ words ∧ words ≤ 1024 ∧ s.mss.rd UPD_OFS_VALUE = s.mss.rd UPD_NEXT_VALUE ∧ s.mss.rd UPD_NEXT_VALUE + 4 * words ≤ s.mss.rd UPD_LEN_VALUE) ∧
    (∃ (ch : Chan) (words : Nat) (s : State), s.served ch = true ∧ s.mss.owns ch = true ∧ s.mss.rd MSS_STAT_LOAD ≠ 3 ∧ s.mss.rd UPD_STAT_STATE = 1 ∧ s.mss.rd UPD_OFS_VALUE ≠ s.mss.rd UPD_NEXT_VALUE) ∧
    (∃ (ch : Chan) (s : State), s.served ch = true ∧ s.mss.owns ch = true ∧ s.mss.rd UPD_STAT_STATE = 1 ∧ s.mss.rd UPD_NEXT_VALUE = s.mss.rd UPD_LEN_VALUE) ∧
    (∃ s : State, s.mss.mpRuns = true ∧ s.mss.rd UPD_STAT_STATE = 2 ∧ envForm (s.mss.rd UPD_LEN_VALUE) s.mss.upd.staged = false) ∧
    (∃ (ch : Chan) (s : State), s.served ch = true ∧ s.mss.owns ch = true ∧ s.mss.updBusy = false) :=
  ⟨⟨.A, (wM (fun m => m.wr UPD_LEN_VALUE 400) w0), (by decide), (by decide), (by decide), (by decide), (by decide)⟩,
    ⟨.B, (wM (sess 1 400 0) w0), (by decide), (by decide), (by decide), (by decide)⟩,
    ⟨.A, 2, (wM (sess 1 400 0) w0), (by decide), (by decide), (by decide), (by decide), (by decide), (by decide), (by decide), (by decide)⟩,
    ⟨.A, 2, (wM (sess 1 400 8) w0), (by decide), (by decide), (by decide), (by decide), (by decide)⟩,
    ⟨.A, (wM (sess 1 400 400) w0), (by decide), (by decide), (by decide), (by decide)⟩,
    ⟨(wM (sess 2 400 400) w0), (by decide), (by decide), (by decide)⟩,
    ⟨.A, (wM (sess 1 400 8) w0), (by decide), (by decide), (by decide)⟩⟩

theorem test_wit_SlotsAreArmedAndCommitted :
    (∃ (i : Instr) (k : Nat) (ch : Chan) (s : State), (((i = .updArmRotation ch ∧ k = 1 ∧ coCompat (folioCo (envFolio s.mss.upd.staged)) = coCompat s.mss.activeCo) ∨ (i = .updArmPowerCycle ch ∧ k = 2))) ∧ s.served ch = true ∧ s.mss.owns ch = true ∧ s.mss.rd UPD_STAT_STATE = 3 ∧ s.mss.slotA ≠ 1 ∧ s.mss.slotB ≠ 1 ∧ s.rotating = false ∧ s.commitPending = false ∧ s.mss.active ≤ 1) ∧
    (∃ (i : Instr) (k : Nat) (ch : Chan) (s : State), (((i = .updArmRotation ch ∧ k = 4) ∨ (i = .updArmPowerCycle ch ∧ k = 5))) ∧ s.served ch = true ∧ s.mss.owns ch = true ∧ s.mss.updBusy = false ∧ s.mss.slotA ≠ 1 ∧ s.mss.slotB ≠ 1 ∧ s.rotating = false ∧ s.commitPending = false ∧ s.mss.rd UPD_STAT_STATE ≠ 3) ∧
    (∃ (n : Nat) (s : State), s.mss.mpRuns = true ∧ n ≤ 1 ∧ s.mss.upd.copy = n + 1 ∧ 1 ≤ s.mss.upd.arm ∧ s.mss.upd.arm ≤ 2) ∧
    (∃ (n : Nat) (c : Channel) (s : State), s.mss.mpRuns = true ∧ s.mss.trial = some n ∧ s.herdVoice = some c ∧ c.hrd.cur.commitPend = true) ∧
    (∃ s : State, s.mss.on = true ∧ (∀ ch, (s.chan ch).voting = false)) :=
  ⟨⟨(.updArmPowerCycle .A), 2, .A, (wM (sess 3 400 400) w0), (by decide), (by decide), (by decide), (by decide), (by decide), (by decide), (by decide), (by decide), (by decide)⟩,
    ⟨(.updArmPowerCycle .A), 5, .A, (wM (sess 1 400 0) w0), (by decide), (by decide), (by decide), (by decide), (by decide), (by decide), (by decide), (by decide), (by decide)⟩,
    ⟨1, (wM (fun m => { sess 4 400 400 m with upd := { m.upd with copy := 2, arm := 1 } }) w0), (by decide), (by decide), (by decide), (by decide), (by decide)⟩,
    ⟨1, (mem (cur (fun h => { h with commitPend := true }) w0.a)), (wM (fun m => { m with slotB := 1 }) (wA fun c => mem (cur (fun h => { h with commitPend := true }) c))), (by decide), (by decide), (by decide), (by decide)⟩,
    ⟨w0, (by decide), (by intro o; cases o <;> decide)⟩⟩

theorem test_wit_SuppliesAndPowerLadder :
    (∃ (ch : Chan) (s : State), (s.chan ch).pwr.off = true ∧ (s.chan ch).rd PWR_STAT_RUNG < 2) ∧
    (∃ (ch : Chan) (s : State), (s.chan ch).pwr.off = false ∧ (s.chan ch).pow.d2dCause = false ∧ (s.chan ch).pow.fsCause = false) ∧
    (∃ (ch : Chan) (s : State), s.mss.on = true ∧ s.a.pwr.up = false ∧ s.b.pwr.up = false ∧ s.c.pwr.up = false) ∧
    (∃ (ch : Chan) (s : State), (s.chan ch).pwr.off = false ∧ (s.chan ch).rd PWR_STAT_RUNG < 2 ∧ (∃ o, o ≠ ch ∧ (s.chan o).pwr.up = true)) ∧
    (∃ (ch : Chan) (s : State), (s.chan ch).pwr.off = false ∧ (s.chan ch).pwr.up = false ∧ (∃ o, o ≠ ch ∧ (s.chan o).pwr.up = true)) ∧
    (∃ s : State, s.parked = true) ∧
    (∃ (region : Fin 4) (ch : Chan) (s : State), Chan.ofNum (region.val + 1) = some ch ∧ (s.chan ch).pwr.off = false ∧ (s.chan ch).rd PWR_STAT_RUNG = 2 ∧ 2 < (s.chan ch).deep) ∧
    (∃ (w : WakeEvt) (s : State), s.wakes w = true ∧ 2 ≤ s.rungOf w.region.val) ∧
    (∃ (ch : Chan) (s : State), s.mss.on = true ∧ s.mss.mp = true ∧ s.mss.held = false ∧ (s.mss.port ch).up = true ∧ (s.chan ch).pwr.up = true ∧ (s.chan ch).pwr.off = false ∧ 2 ≤ (s.chan ch).rd PWR_STAT_RUNG) :=
  ⟨⟨.A, (wA fun c => { c with pwr := { c.pwr with off := true, up := false } }), (by decide), (by decide)⟩,
    ⟨.A, w0, (by decide), (by decide), (by decide)⟩,
    ⟨.A, ({ w0 with a := dark w0.a, b := dark w0.b, c := dark w0.c }), (by decide), (by decide), (by decide), (by decide)⟩,
    ⟨.A, w0, (by decide), (by decide), ⟨.B, by decide⟩⟩,
    ⟨.A, (wA dark), (by decide), (by decide), ⟨.B, by decide⟩⟩,
    ⟨(wA fun c => mem (cur (fun h => { h with mode := 7 }) c)), (by decide)⟩,
    ⟨0, .A, (wA fun c => (c.wr PWR_STAT_RUNG 2).wrWord (PWR_LDR 1) 0x50000), (by decide), (by decide), (by decide), (by decide)⟩,
    ⟨(⟨1, 0, 0⟩), (wA fun c => c.wr PWR_STAT_RUNG 2), (by decide), (by decide)⟩,
    ⟨.A, (wA fun c => c.wr PWR_STAT_RUNG 2), (by decide), (by decide), (by decide), (by decide), (by decide), (by decide), (by decide)⟩⟩

theorem test_wit_BringUpAndKeySteps :
    (∃ (ch : Chan) (s : State), (s.chan ch).live = true ∧ (s.chan ch).rd PWR_BOOT_STEP = 4) ∧
    (∃ (ch : Chan) (s : State), (s.chan ch).live = true ∧ (s.chan ch).rd PWR_BOOT_STEP = 4 ∧ (s.chan ch).blockOn 0 = true ∧ (s.chan ch).fcc.tag = none ∧ (s.chan ch).spares 7) ∧
    (∃ (ch : Chan) (on : Bool) (s : State), (s.chan ch).live = true) ∧
    (∃ (ch : Chan) (s : State), (s.chan ch).live = true) ∧
    (∃ (ch : Chan) (s : State), (s.chan ch).live = true ∧ (s.chan ch).voting = true) ∧
    (∃ (ch : Chan) (s : State), (s.chan ch).live = true ∧ (s.chan ch).voting = false) ∧
    (∃ (ch : Chan) (s : State), (s.chan ch).live = true ∧ (s.chan ch).voting = true) :=
  ⟨⟨.A, (wA fun c => c.wr PWR_BOOT_STEP 4), (by decide), (by decide)⟩,
    ⟨.A, (wA fun c => c.wr PWR_BOOT_STEP 4), (by decide), (by decide), (by decide), (by decide), (by unfold Channel.spares; decide)⟩,
    ⟨.A, true, w0, (by decide)⟩,
    ⟨.A, w0, (by decide)⟩,
    ⟨.A, (wA full), (by decide), (by decide)⟩,
    ⟨.A, w0, (by decide), (by decide)⟩,
    ⟨.A, (wA full), (by decide), (by decide)⟩⟩

theorem test_wit_DebugPortsServe :
    (∃ (p : DbgPort) (op : DmiOp) (a : BitVec 7) (v : Word) (s : State), s.portUsable p = false ∧ s.portLive p = true) ∧
    (∃ (p : DbgPort) (a : BitVec 7) (v : Word) (s : State), s.portUsable p = true ∧ a ≠ 0x3C) ∧
    (∃ (p : DbgPort) (v : Word) (s : State), s.portUsable p = true ∧ (kget 0 (s.dbg p).regs 0x10).getLsbD 0 = true) ∧
    (∃ (ch : Chan) (h : Fin 5) (s : State), s.portUsable (.ch ch) = true ∧ s.hartExists (.ch ch) h = true ∧ (s.chan ch).voting = true) ∧
    (∃ (ch : Chan) (h : Fin 5) (s : State), s.portUsable (.ch ch) = true ∧ s.hartExists (.ch ch) h = true ∧ (s.chan ch).voting = false ∧ (s.chan ch).isShadow = false) ∧
    (∃ (ch : Chan) (h : Fin 5) (s : State), s.portUsable (.ch ch) = true ∧ s.hartExists (.ch ch) h = true ∧ (s.chan ch).bit STW_DBG_HALTED h = true) ∧
    (∃ (ch : Chan) (m : MemId) (a : Nat) (s : State), s.portUsable (.ch ch) = true ∧ (s.chan ch).dbg.sberr = 0 ∧ a % 4 = 0 ∧ pairMem a 4 = some m) ∧
    (∃ (ch : Chan) (a : Nat) (wr : Option Word) (z : AccSize) (s : State), s.portUsable (.ch ch) = true ∧ (s.chan ch).dbg.sberr = 0 ∧ ((z ≠ .word ∨ a % 4 ≠ 0))) :=
  ⟨⟨(.ch .A), .write, 4, 7, (wA fun c => { c with otp := { c.otp with lc := 3 } }), (by decide), (by decide)⟩,
    ⟨(.ch .A), 0x11, 0, w0, (by decide), (by decide)⟩,
    ⟨(.ch .A), 7, (wA fun c => { c with dbg := { c.dbg with regs := [(0x10, 1)] } }), (by decide), (by decide)⟩,
    ⟨.A, 0, (wA full), (by decide), (by decide), (by decide)⟩,
    ⟨.A, 2, w0, (by decide), (by decide), (by decide), (by decide)⟩,
    ⟨.A, 2, (wA fun c => c.setBit STW_DBG_HALTED 2 true), (by decide), (by decide), (by decide)⟩,
    ⟨.A, .sram, 0x20080040, w0, (by decide), (by decide), (by decide), (by decide)⟩,
    ⟨.A, 0x20080041, none, .word, w0, (by decide), (by decide), (by decide)⟩⟩

theorem test_wit_StepRunsTheFrontCommand :
    (∃ (c : Instr) (rest : List Instr) (s : State), s.pending = c :: rest) ∧
    (∃ s : State, s.pending = []) :=
  ⟨⟨(.chopperOff .A), ([]), ({ w0 with pending := [.chopperOff .A] }), (by decide)⟩,
    ⟨w0, (by decide)⟩⟩

theorem test_wit_ChannelsAreFaultContainmentRegions :
    (∃ (i : Instr) (ch : Chan) (s : State), i.localTo = some ch) ∧
    (∃ (i : Instr) (s : State), i.mssOnly = true) :=
  ⟨⟨(.chopperOff .A), .A, w0, (by decide)⟩,
    ⟨.optimeSave, w0, (by decide)⟩⟩

theorem test_wit_TimePassesOnAnEmptyQueue : (∃ s : State, s.pending = []) :=
  ⟨w0, (by decide)⟩

/-! Witnesses of the four statements over every step: a state that meets the premise, and its step. -/

theorem test_wit_PowerCycleCountsNeverMoveBack :
    ∃ s t : State, s.countsInRange ∧ step s = .next t :=
  ⟨State.reset, State.reset.tick, (by unfold State.countsInRange; decide), rfl⟩

theorem test_wit_OtpBitsAreNeverCleared : ∃ s t : State, s.fusesOrdered ∧ step s = .next t :=
  ⟨State.reset, State.reset.tick, (by unfold State.fusesOrdered; decide), rfl⟩

theorem test_wit_RecordsAreNeverRewritten : ∃ s t : State, s.mss.logOrdered ∧ step s = .next t :=
  ⟨State.reset, State.reset.tick, ⟨by decide, by intro r h; exact absurd h (fun g => by cases g)⟩, rfl⟩

theorem test_wit_MemoriesStayCanonical : ∃ s t : State, s.memWf ∧ step s = .next t :=
  ⟨State.reset, State.reset.tick,
    ⟨⟨by decide, by decide, by decide, by decide, by decide, by decide, by decide, fun _ => rfl, fun _ => rfl⟩,
      ⟨by decide, by decide, by decide, by decide, by decide, by decide, by decide, fun _ => rfl, fun _ => rfl⟩,
      ⟨by decide, by decide, by decide, by decide, by decide, by decide, by decide, fun _ => rfl, fun _ => rfl⟩,
      by intro ch; cases ch <;> decide, by decide, by decide⟩, rfl⟩

/-! The words of the table: its rows give no bits, so no word spells a command. -/

theorem test_no_word_spells_a_command : decodeTableWord 32 0 = none ∧ decodeTableWord 8 0xFF = none := by decide

/-! Commands that are not well formed, one for each check of WellFormed.lean. -/

theorem test_ill_formed :
    [Instr.registerWrite .A .pair (2 ^ 32) 0 .word, .class4RetryExhausted .A .A, .mailboxRead .A ⟨65536, .word⟩,
      .peerWindowRead .A ⟨0x40000000, .word⟩, .carrierMarker .B .B ⟨0, true⟩ 0, .folioPartReceived .A .peer 4194305 .emptySlot,
      .folioPartReceived .A .slotA 64 (.spine [0]), .peerLoadServe .C .C, .joinRecord .A ⟨⟨.A, 0, 0, 0, false⟩, true⟩,
      .admissionReply .A .A 0 0 ⟨0, true⟩,
      .dataHomeWrite .A 1 65536 0, .dataHomeUpdateReceived .A 1 65536 ⟨0, true⟩,
      .coreMemoryAccess .A .sram (2 ^ 32) (.load .word) .clean, .patrolScrub .A .sram (2 ^ 32) .clean,
      .bridgeSValley .A ⟨16384, 0, 0, 0⟩, .bridgeSValley .A ⟨0, 0, 2 ^ 31, 0⟩, .bridgePValley .A 0 16384 0,
      .setComputeDone .A .B 33, .encErrorWindowEnd .A 8 true, .sentFrame .A 0 ⟨224000, [(48000, 48001)], none⟩,
      .streamDataReceived .A ⟨0, true, 0x88B5, 1, 63, 1, 2, 1, 1, false, false, 6, 1, 1, 2, 0, [1], 0, 0⟩,
      .cycleFrameReceived ⟨.A, ⟨0, 0⟩⟩ ⟨0, true, 0x88B5, 1, 63, 1, 2, 16, 0, false, false, 0, 1, 1, 0, 0, [], 0, 0⟩,
      .canFrameReceived .A ⟨0, 0, 256, []⟩, .tpDtReceived .A ⟨0, 0, 0, List.replicate 9 0⟩, .tpTimeout .A 256 0,
      .sensorSample [0] 0, .logReadDone .A [131072] [], .loadFrame 101, .updBlock .A 8192, .wake ⟨16, 0, 0⟩,
      .debugHaltRequest .mss 1 true, .debugResume .mss 2 false, .systemBusAccess .A (2 ^ 32) none .word,
      .peerWindowReadServed .B ⟨.B, true⟩].all (fun i => !i.wf) = true := by decide

theorem test_well_formed : [Instr.chopperOff .A, .optimeSave, .tpTimeout .A 0x80 0x26].all (fun i => i.wf) = true := by decide

/-! Values from the spec's tables and worked examples, and from the standards that it names. -/

/-- The check values of the CRCs named by R23, R160 and the records, over the ASCII digits 1 to 9. -/
theorem test_crc_check_values :
    crc16 (lit9) = 0x29B1 ∧ crc32 lit9 = 0xCBF43926 ∧ crc32c lit9 = 0xE3069283 := by decide

/-- Example of 04_herd_placement.md: at GEN 7 the order is B, C, A. -/
theorem test_rotation_order : rotation 7 7 = [2, 3, 1] := by decide

/-- Example of 07_duty_vote.md: A and C agree, B is outvoted. -/
theorem test_ballot_outvotes : (ballot false (some 7) (some 8) (some 7)).use = some 7 ∧
    (ballot false (some 7) (some 8) (some 7)).odd = some .B := by decide

/-- Example of 11_steering_brake_safety_inputs.md: IDLE, FAULT, IDLE votes IDLE; ACTIVE, FAULT, ACTIVE votes ACTIVE. -/
theorem test_pair_votes : votePair [1, 4, 1] 1 = 1 ∧ votePair [2, 4, 2] 1 = 2 := by decide

/-- Example of 06_field_control.md: HALF is 5,000 at PWMS 2,000; R216: the deadlines at 20 kHz. -/
theorem test_half_and_deadlines : halfOf 2000 = 5000 ∧ deadlines 5000 = (1640, 1880) := by decide

/-- Example of 08_motor_fault_states.md: KOS of 12 mWb is 0.02598 V·s per rad in Q8.24. -/
theorem test_kos : kosOf 12000 = 435885 := by decide

/-- R341, R356, R358, R360, R370: the payload lengths that a KIND fixes. -/
theorem test_len_of_kind : [0, 1, 2, 3, 4, 5, 6].map lenOfKind = [some 64, none, some 8, some 8, some 8, some 8, some 16] := by
  decide

/-- R432: seconds since 1985-01-01 of 1985-01-02 00:00:10. -/
theorem test_time_of_date : timeOf [40, 0, 0, 1, 5, 0, 125, 125] = some 86410 := by decide

/-- R449: a firmware record, a collector message of channel 2, an injected event. -/
theorem test_life_counters : lifeOf 0 0x8003 0 0 = some (515, 1) ∧ lifeOf 2 27 2 3 = some (91, 3) ∧
    lifeOf 2 27 4 3 = some (255, 3) := by decide

/-- R406: VOTE_ODD (27) is of class B: INT until severe, INT with EPIN from the third event in 10,000 ms. -/
theorem test_vote_odd_class : defaultClass 27 = 'B' ∧ classSets 'B' = (1, 17, 3, 10000) := by decide

/-- Example of 16_management_and_log.md: the calendar set back by 3,600 s counts CALEPOCH and becomes the new time. -/
theorem test_calendar_setback :
    (fun x : Sup => (x.cal, x.calEpoch))
      (after (.calendarUpdate 1459996401) (wM (fun m => m.onSup fun x => { x with cal := 1460000001, calEpoch := 2, calSet := true })
        w0)).mss.sup = (1459996401, 3) := by decide

/-- R278: a write of GDR_FLT by firmware has no effect on the latches. -/
theorem test_flt_write_has_no_effect :
    (after (.registerWrite .A .pair GDR_FLT 0 .word) (wA fun c => c.wr GDR_FLT_LATCH 5)).a.rd GDR_FLT_LATCH = 5 := by decide

/-- R10: a byte access to a register ends in a bus error and changes nothing. -/
theorem test_byte_write_is_a_bus_error :
    (fun c : Channel => (c.bus, c.rd GDR_FLT_LATCH)) (after (.registerWrite .A .pair GDR_FLT 0 .byte) w0).a = (.error, 0) := by
  decide

end Sys2Proof.Tests
end

section
/-! PROOF. Engine watchdogs and the clock failure (R416, R21, R159, R236, R421): what a kick leaves and restarts, what
the fail-silent line brings, and that no event takes it back. -/

namespace Sys2Proof.Machine

variable {c d : Channel} {w : Bool}

/-! ### The watchdog of an engine (R416) -/

theorem Channel.kick_eq (c : Channel) {eng : Nat} (h : eng ≠ 0) : c.kick eng = c.setKick eng 0 := if_neg h

/-- Setting a watchdog's count changes neither a register nor a memory. -/
theorem Channel.sameBut_setKick (c : Channel) (l : List Nat) (eng n : Nat) : c.sameBut l (c.setKick eng n) :=
  Channel.sameBut_of_parts rfl rfl rfl rfl rfl rfl rfl

/-- A watchdog set to a count reads that count, halted or running (R416, R516). -/
theorem Channel.sinceKick_setKick (c : Channel) (eng : Nat) {n : Nat} (hn : n < 2 ^ 48) :
    (c.setKick eng n).sinceKick eng = n := by
  have hh : (c.setKick eng n).engHalted eng = c.engHalted eng := rfl
  have hk : kget 0 (c.setKick eng n).fcc.kicks eng =
      if c.engHalted eng then n else (c.tb.toNat + 2 ^ 48 - n) % 2 ^ 48 := kget_kset_self _ _ _ _
  have ht : (c.setKick eng n).tb.toNat = c.tb.toNat := rfl
  have := c.tb.isLt
  unfold Channel.sinceKick
  rw [hh, hk, ht]
  split <;> omega

/-- Events that reset nothing leave every watchdog's count. -/
theorem Channel.keptW.sinceKick (h : c.keptW w d) (eng : Nat) : d.sinceKick eng = c.sinceKick eng := by
  have hdbg : d.rd STW_DBG_HALTED = c.rd STW_DBG_HALTED := h.get STW_DBG_HALTED rfl (by cases w <;> rfl)
  have hhalt : d.engHalted eng = c.engHalted eng := by simp only [Channel.engHalted, Channel.bit, hdbg]
  have htb : d.tb = c.tb := by rw [h.2.1]
  obtain ⟨-, -, -, hkicks, -⟩ := h
  unfold Channel.sinceKick
  rw [hhalt, htb, hkicks]

theorem exec_stwKick_eq (ch : Chan) (eng : Fin 4) (s : State) :
    exec (.stwKick ch eng) s = .next (s.onLive ch fun c => c.kick eng) := rfl

/-- R416: a kick restarts the watchdog and changes no register. -/
theorem exec_stwKick_restarts (ch : Chan) (eng : Fin 4) (s : State) (hl : (s.chan ch).live = true) (he : eng ≠ 0) :
    ∃ t, exec (.stwKick ch eng) s = .next t ∧ s.onlyChan ch t ∧ (s.chan ch).sameBut [] (t.chan ch) ∧
      (t.chan ch).sinceKick eng = 0 := by
  have he' : eng.val ≠ 0 := fun h => he (Fin.ext h)
  refine ⟨_, exec_stwKick_eq ch eng s, s.onlyChan_onLive ch _, ?_⟩
  rw [State.chan_onLive _ _ _ hl, Channel.kick_eq _ he']
  exact ⟨Channel.sameBut_setKick _ _ _ _, Channel.sinceKick_setKick _ _ (by norm_num)⟩

/-- The watchdog that expires: restarted, then the event of its engine's block. -/
def Channel.watchdogExpires (c : Channel) (eng : Nat) : Channel := (c.kick eng).raiseAll [(11, engineBlock eng)]

theorem exec_coreWdog_eq (ch : Chan) (eng : Fin 4) (s : State) :
    exec (.coreWdog ch eng) s = .next (s.onLive ch fun c =>
      if c.fcc.engines.getLsbD eng && eng != 0 && !c.engHalted eng && c.kickOverdue eng then c.watchdogExpires eng
      else c) := rfl

/-- What the expiry counts and keeps, where CORE_WDOG's reactions hold no channel reset. -/
theorem Channel.watchdogExpires_spec (c : Channel) {eng : Nat} (he : eng ≠ 0) (hl : c.live = true)
    (hb : c.blockOn (engineBlock eng) = true) (ht : c.fcc.tag = none) (hs : c.spares 11) :
    c.sameButEvents [] (c.watchdogExpires eng) ∧ (c.watchdogExpires eng).srcBit FCC_STAT_SRC 11 = true ∧
      (c.watchdogExpires eng).sinceKick eng = 0 ∧
      (c.watchdogExpires eng).rd (FCC_CNT_OCC 11) = satInc 16 (c.rd (FCC_CNT_OCC 11)) := by
  unfold Channel.watchdogExpires
  rw [Channel.kick_eq c he]
  have hkept : (c.setKick eng 0).kept ((c.setKick eng 0).raiseAll [(11, engineBlock eng)]) := by
    refine Channel.keptW.raiseAll (.refl _) _ fun p hp => ?_
    rw [List.mem_singleton.1 hp]
    exact hs
  obtain ⟨hstat, -, hcount⟩ := (c.setKick eng 0).raise_counts 11 (engineBlock eng) hl hb ht hs
  obtain ⟨hocc, -⟩ := hcount (by norm_num)
  refine ⟨hkept.sameButEvents [], hstat, ?_, hocc⟩
  rw [hkept.sinceKick, Channel.sinceKick_setKick _ _ (by norm_num)]

/-- R416: 10 ms after the latest kick of a released engine that runs, CORE_WDOG is raised and the watchdog restarts. -/
theorem exec_coreWdog_raises (ch : Chan) (eng : Fin 4) (s : State) (hl : (s.chan ch).live = true) (he : eng ≠ 0)
    (hrel : (s.chan ch).fcc.engines.getLsbD eng = true) (hrun : (s.chan ch).bit STW_DBG_HALTED (eng + 1) = false)
    (hdue : 2000000 ≤ (s.chan ch).sinceKick eng) (hb : (s.chan ch).blockOn (engineBlock eng) = true)
    (ht : (s.chan ch).fcc.tag = none) (hs : (s.chan ch).spares 11) :
    ∃ t, exec (.coreWdog ch eng) s = .next t ∧ s.onlyChan ch t ∧ (s.chan ch).sameButEvents [] (t.chan ch) ∧
      (t.chan ch).srcBit FCC_STAT_SRC 11 = true ∧ (t.chan ch).sinceKick eng = 0 ∧
      (t.chan ch).rd (FCC_CNT_OCC 11) = satInc 16 ((s.chan ch).rd (FCC_CNT_OCC 11)) := by
  have he' : eng.val ≠ 0 := fun h => he (Fin.ext h)
  have hcond : ((s.chan ch).fcc.engines.getLsbD eng && eng != 0 && !(s.chan ch).engHalted eng &&
      (s.chan ch).kickOverdue eng) = true := by
    simp [hrel, he, Channel.engHalted, hrun, Channel.kickOverdue, hdue]
  refine ⟨_, exec_coreWdog_eq ch eng s, s.onlyChan_onLive ch _, ?_⟩
  rw [State.chan_onLive _ _ _ hl, if_pos hcond]
  exact (s.chan ch).watchdogExpires_spec he' hl hb ht hs

/-! ### The causes of a bridge after one of them is set (R236) -/

@[simp] theorem Channel.regs_setShort (c : Channel) (b : Bridge) (v : Bool) : (c.setShort b v).regs = c.regs := by
  cases b <;> rfl

@[simp] theorem Channel.regs_setGuard (c : Channel) (b : Bridge) (v : Bool) : (c.setGuard b v).regs = c.regs := by
  cases b <;> rfl

@[simp] theorem Channel.regs_holdOv (c : Channel) (b : Bridge) : (c.holdOv b).regs = c.regs := by cases b <;> rfl

theorem Channel.causes_congr (h : d.regs = c.regs) (b : Bridge) : d.causes b = c.causes b := by
  simp only [Channel.causes, Channel.rd, h]

/-- The state of a bridge follows its causes and changes none. -/
theorem Channel.causes_settle (c : Channel) (b b' : Bridge) : (c.settle b).causes b' = c.causes b' := by
  unfold Channel.settle
  calc _ = (if c.causes b = 0 then c.setGuard b false else c).causes b' :=
        RegMap.get_put_off _ _ _ _ (by cases b <;> cases b' <;> rfl)
    _ = c.causes b' := Channel.causes_congr (by split <;> simp) b'

/-- A cause bit that is written is the only one that changes, in the two cause fields of the one register. -/
theorem Channel.causes_setBit (c : Channel) (b b' : Bridge) {n : Nat} (hn : n < 10) (k : Nat) (v : Bool) :
    ((c.setBit (causeFld b) n v).causes b').testBit k = if b = b' ∧ n = k then v else (c.causes b').testBit k := by
  by_cases hb : b = b'
  · subst hb
    have := c.bit_setBit (causeFld b) n k v (by cases b <;> rfl) (by cases b <;> exact hn)
    simpa [Channel.bit, Channel.causes] using this
  · rw [if_neg fun h => hb h.1]
    refine c.bit_wr_off (causeFld b') (causeFld b) _ k ?_
    cases b <;> cases b' <;> simp at hb <;> rfl

theorem Channel.causes_setCause (c : Channel) (b b' : Bridge) {n : Nat} (hn : n < 10) (k : Nat) (v : Bool) :
    ((c.setCause b n v).causes b').testBit k = if b = b' ∧ n = k then v else (c.causes b').testBit k := by
  unfold Channel.setCause
  rw [Channel.causes_settle, Channel.causes_congr (Channel.regs_holdOv _ _), Channel.causes_setBit _ _ _ hn]
  refine if_congr Iff.rfl rfl (congrArg (·.testBit k) (Channel.causes_congr ?_ b'))
  split <;> simp

/-- A cause of both bridges that is set shows on both. -/
theorem Channel.causes_setCauses_self (c : Channel) (b : Bridge) {n : Nat} (hn : n < 10) :
    ((c.setCauses n true).causes b).testBit n = true := by
  unfold Channel.setCauses
  rw [Channel.causes_setCause _ _ _ hn, Channel.causes_setCause _ _ _ hn]
  cases b <;> simp

/-- Another cause stays as it is. -/
theorem Channel.causes_setCauses_ne (c : Channel) (b : Bridge) {n k : Nat} (hn : n < 10) (hk : n ≠ k) (v : Bool) :
    ((c.setCauses n v).causes b).testBit k = (c.causes b).testBit k := by
  unfold Channel.setCauses
  rw [Channel.causes_setCause _ _ _ hn, Channel.causes_setCause _ _ _ hn, if_neg fun h => hk h.2, if_neg fun h => hk h.2]

/-- The causes and the states of the bridges stand in GDR_MSTATE alone. -/
theorem Channel.sameBut_setCause (c : Channel) (b : Bridge) (n : Nat) (v : Bool) :
    c.sameBut [GDR_MSTATE] (c.setCause b n v) := by
  have hshort : ∀ x : Channel, ∀ u, x.sameBut [GDR_MSTATE] (x.setShort b u) := fun x u => by
    cases b <;> exact Channel.sameBut_of_parts rfl rfl rfl rfl rfl rfl rfl
  have hguard : ∀ x : Channel, x.sameBut [GDR_MSTATE] (x.setGuard b false) := fun x => by
    cases b <;> exact Channel.sameBut_of_parts rfl rfl rfl rfl rfl rfl rfl
  have hhold : ∀ x : Channel, x.sameBut [GDR_MSTATE] (x.holdOv b) := fun x => by
    cases b <;> exact Channel.sameBut_of_parts rfl rfl rfl rfl rfl rfl rfl
  have hset : ∀ x : Channel, x.sameBut [GDR_MSTATE] (x.settle b) := fun x =>
    (Channel.sameBut.ite _ (hguard x) (.refl _ _)).wr _ _ (by cases b <;> simp [stateFld])
  unfold Channel.setCause
  exact (((Channel.sameBut.ite _ (hshort c _) (.refl _ _)).wr _ _ (by cases b <;> simp [causeFld])).trans
    (hhold _)).trans (hset _)

theorem Channel.sameBut_setCauses (c : Channel) (n : Nat) (v : Bool) : c.sameBut [GDR_MSTATE] (c.setCauses n v) :=
  (c.sameBut_setCause .S n v).trans (Channel.sameBut_setCause _ .P n v)

/-! ### The fail-silent line (R21, R159, R236, R421) -/

/-- The channel is fail-silent and both bridges are under cause bit 5. -/
def Channel.silenced (c : Channel) : Prop :=
  c.failSilent = true ∧ (c.causes .S).testBit 5 = true ∧ (c.causes .P).testBit 5 = true

theorem Channel.keptW.failSilent (h : c.keptW w d) : d.failSilent = c.failSilent := by rw [h.2.1]

/-- What leaves the registers of CP-x leaves the channel silenced. -/
theorem Channel.silenced.of_keptPlain (h : c.silenced) (k : c.keptPlain d) : d.silenced := by
  have hc : ∀ b, d.causes b = c.causes b := fun b => k.get (causeFld b) (by cases b <;> rfl) rfl
  rwa [Channel.silenced, hc, hc, k.failSilent]

/-- Another cause, set on both bridges, leaves the channel silenced. -/
theorem Channel.silenced.setCauses (h : c.silenced) {n : Nat} (hn : n < 10) (hk : n ≠ 5) (v : Bool) :
    (c.setCauses n v).silenced := by
  obtain ⟨hf, hS, hP⟩ := h
  have kf := Channel.keptW.failSilent ((Channel.keptW.refl c).setCauses n v)
  exact ⟨kf.trans hf, (c.causes_setCauses_ne .S hn hk v).trans hS, (c.causes_setCauses_ne .P hn hk v).trans hP⟩

/-- ERR_x of a fail-silent channel is low (R421). -/
theorem Channel.errRefresh_low (h : c.failSilent = true) : c.errRefresh.is FCC_EPIN_LEVEL = false := by
  have hlow : c.errLow = true := by simp [Channel.errLow, h]
  have hrd : c.errRefresh.rd FCC_EPIN_LEVEL = 0 := by
    simpa [Channel.errRefresh, Channel.flag, hlow] using c.rd_wr FCC_EPIN_LEVEL 0 (by simp [Fld.fits])
  simp [Channel.is, hrd]

theorem Channel.not_live_of_failSilent (h : c.failSilent = true) : c.live = false := by
  simp [Channel.live, Channel.alive, h]

/-- The line as the pins show it: the channel silenced, its cores stopped, ERR_x low. -/
def Channel.silent (c : Channel) : Prop := c.silenced ∧ c.is FCC_EPIN_LEVEL = false

theorem Channel.silenced.errRefresh (h : c.silenced) : c.errRefresh.silent :=
  ⟨h.of_keptPlain (Channel.keptW.errRefresh (.refl c)), Channel.errRefresh_low h.1⟩

/-- What the line sets beside registers: the fail-silent state, and its cause as the bridges hold it (R159, R238). -/
def Channel.markSilent (c : Channel) : Channel := { c with failSilent := true, pow := { c.pow with fsCause := true } }

theorem Channel.goSilent_eq (c : Channel) : c.goSilent = (c.markSilent.setCauses 5 true).errRefresh := rfl

theorem Channel.goSilent_silent (c : Channel) : c.goSilent.silent := by
  have kf := Channel.keptW.failSilent ((Channel.keptW.refl c.markSilent).setCauses 5 true)
  rw [Channel.goSilent_eq]
  exact Channel.silenced.errRefresh
    ⟨kf, Channel.causes_setCauses_self _ .S (by norm_num), Channel.causes_setCauses_self _ .P (by norm_num)⟩

theorem Channel.sameBut_goSilent (c : Channel) : c.sameBut [GDR_MSTATE, FCC_EPIN] c.goSilent := by
  have h0 : c.sameBut [GDR_MSTATE, FCC_EPIN] c.markSilent := Channel.sameBut_of_parts rfl rfl rfl rfl rfl rfl rfl
  exact (h0.trans ((c.markSilent.sameBut_setCauses 5 true).mono (by simp))).wr FCC_EPIN_LEVEL _ (by simp)

/-- The line keeps every block as enabled as it was. -/
theorem Channel.blockOn_goSilent (c : Channel) (b : Nat) : c.goSilent.blockOn b = c.blockOn b := by
  have hen : c.goSilent.rd STW_BLKEN_BLK = c.rd STW_BLKEN_BLK := c.sameBut_goSilent.get _ (by decide)
  have hst : c.goSilent.rd STW_BLKSTAT_BLK = c.rd STW_BLKSTAT_BLK := c.sameBut_goSilent.get _ (by decide)
  simp only [Channel.blockOn, Channel.bit, hen, hst]

/-- The line itself neither resets nor unpowers the channel, and announces no injection. -/
theorem Channel.goSilent_parts (c : Channel) :
    c.goSilent.resetting = c.resetting ∧ c.goSilent.pwr = c.pwr ∧ c.goSilent.fcc.tag = c.fcc.tag := by
  have hk : c.markSilent.kept c.goSilent := ((Channel.keptW.refl c.markSilent).setCauses 5 true).errRefresh
  have hlate : c.markSilent.later c.goSilent := ((Channel.later.refl c.markSilent).setCauses 5 true).errRefresh
  obtain ⟨-, -, -, -, htag, -⟩ := hlate
  exact ⟨by rw [hk.2.1]; rfl, by rw [hk.2.1]; rfl, htag⟩

/-! ### The report of the clock failure on a silenced channel (R405, R409, R413) -/

/-- CLK_FAIL severe takes the channel out of the herd and touches neither bridge (R405, R407). -/
theorem Channel.keptW.becomeSevere_clkFail (h : c.keptW w d) : c.keptW w (d.becomeSevere 5) :=
  ((h.setSev 5 true (by norm_num)).fcc_ { d.fcc with newSev := true } rfl rfl rfl).fcc_ _ rfl rfl rfl

theorem Channel.keptW.countEvent_clkFail (h : c.keptW w d) : c.keptW w (d.countEvent 5).1 := by
  rw [Channel.countEvent_eq]
  have hcount := h.counted 5 (by norm_num)
  exact Channel.keptW.stampLast (Channel.keptW.ite _ hcount.becomeSevere_clkFail hcount) _ _ _ _

/-- The message of an event, queued or dropped, whatever LOGQ_DROP's reactions are. -/
theorem Channel.keptW.queueEvent_any (h : c.keptW w d) (src code : Nat) : c.keptW w (d.queueEvent src code).1 := by
  unfold Channel.queueEvent
  split
  · exact h
  · split
    · exact (h.pushMsg _).fcc_ _ rfl rfl rfl
    · exact h.dropMsg.logqDrop

theorem Channel.keptW.taggedEvent_any (h : c.keptW w d) (src blk : Nat) (b : Bool) :
    c.keptW w (d.taggedEvent src blk b).1 := by
  have hstamp := fun set => Channel.keptW.stampLast (h.wr FCC_INJRES_SEEN 1 rfl) src set false true
  unfold Channel.taggedEvent
  dsimp only
  generalize (if b = true then d.react src &&& rBRST else 0) = set
  split
  · exact (hstamp _).pushMsg _
  · exact (hstamp _).dropMsg.logqDrop

/-- The event of CLK_FAIL, tagged or real, leaves the bridges as they are. -/
theorem Channel.keptW.event_clkFail (h : c.keptW w d) (blk : Nat) : c.keptW w (d.event 5 blk).1 := by
  unfold Channel.event
  split
  · exact h
  · split
    · split
      · exact h.taggedEvent_any _ _ _
      · exact (Channel.keptW.ite _ (h.wr FCC_INJRES_OTHER 1 rfl) h).countEvent_clkFail.queueEvent_any _ _
    · exact h.countEvent_clkFail.queueEvent_any _ _

/-- The channel kept out of the herd with its bridges off (R415). -/
def Channel.keepOut (c : Channel) : Channel := ({ c with fcc := { c.fcc with stayOut := true } } : Channel).setCauses 9 true

theorem Channel.silenced.keepOut (h : c.silenced) : c.keepOut.silenced :=
  Channel.silenced.setCauses (c := { c with fcc := { c.fcc with stayOut := true } }) h (by norm_num) (by norm_num) true

theorem Channel.later.keepOut (h : c.later d) : c.later d.keepOut :=
  (h.fcc_ { d.fcc with stayOut := true } (fun _ _ => rfl) rfl rfl rfl).setCauses 9 true

/-- The channel once its NMIs are taken and its pulse on ERR_x runs (R413, R421). -/
def Channel.signalled (c : Channel) (l : Due) : Channel :=
  if l.any (fun p => p.2.1.testBit 4) then (c.nmis l).epin else c.nmis l

/-- The channel before the resets of its reactions: signalled, and kept out where a reset is not performed (R415). -/
def Channel.beforeResets (c : Channel) (l : Due) : Channel :=
  if (l.filter fun p => p.2.1.testBit 3).any (fun p => !(c.signalled l).crstHonoured p.1) then (c.signalled l).keepOut
  else c.signalled l

theorem Channel.keptW.signalled (h : c.keptW w d) (l : Due) : c.keptW w (d.signalled l) :=
  Channel.keptW.ite _ (h.nmis l).epin (h.nmis l)

theorem Channel.later.signalled (h : c.later d) (l : Due) : c.later (d.signalled l) :=
  Channel.later.ite _ (Channel.later.epin (Channel.later.nmis l h)) (Channel.later.nmis l h)

theorem Channel.silenced.beforeResets (h : c.silenced) (l : Due) : (c.beforeResets l).silenced := by
  have hx : (c.signalled l).silenced := h.of_keptPlain ((Channel.keptW.refl c).signalled l)
  unfold Channel.beforeResets
  split
  · exact hx.keepOut
  · exact hx

theorem Channel.later.beforeResets (h : c.later d) (l : Due) : c.later (d.beforeResets l) :=
  Channel.later.ite _ (h.signalled l).keepOut (h.signalled l)

/-- The reactions on a fail-silent channel: block resets or nothing; the channel reset is the one R159 wires. -/
theorem Channel.silenced.reactAll_eq (h : c.silenced) (l : Due) :
    c.reactAll l = (c.beforeResets l).errRefresh ∨ c.reactAll l = ((c.beforeResets l).brsts l).errRefresh := by
  have hf : (c.beforeResets l).failSilent = true := (h.beforeResets l).1
  have heq : c.reactAll l =
      match (l.filter fun p => p.2.1.testBit 3).find? (fun p => (c.beforeResets l).crstHonoured p.1) with
      | some p => if (c.beforeResets l).failSilent then (c.beforeResets l).errRefresh
        else ((c.beforeResets l).reset 1 p.1).errRefresh
      | none => ((c.beforeResets l).brsts l).errRefresh := rfl
  rw [heq]
  split
  · exact .inl (if_pos hf)
  · exact .inr rfl

/-- No reaction takes the fail-silent line back. -/
theorem Channel.silenced.reactAll (h : c.silenced) (l : Due) : (c.reactAll l).silent := by
  have hx := h.beforeResets l
  rcases h.reactAll_eq l with e | e <;> rw [e]
  · exact hx.errRefresh
  · exact (hx.of_keptPlain (Channel.keptW.brsts l (.refl _))).errRefresh

/-- No reaction on a fail-silent channel takes back what was counted. -/
theorem Channel.later.reactAll_silenced (h : c.later d) (hd : d.silenced) (l : Due) : c.later (d.reactAll l) := by
  have hx := h.beforeResets l
  rcases hd.reactAll_eq l with e | e <;> rw [e]
  · exact hx.errRefresh
  · exact (Channel.later.brsts l hx).errRefresh

theorem Channel.raise_eq (c : Channel) (src : Nat) :
    c.raise src = (c.event src (blockOf src)).1.reactAll (c.event src (blockOf src)).2 := by
  simp [Channel.raise, Channel.raiseAll, Channel.events]

theorem Channel.silenced.event_clkFail (h : c.silenced) (blk : Nat) : (c.event 5 blk).1.silenced :=
  h.of_keptPlain ((Channel.keptW.refl c).event_clkFail blk)

/-- The report leaves the channel silent, whatever its reactions are. -/
theorem Channel.silenced.raise_clkFail (h : c.silenced) : (c.raise 5).silent := by
  rw [Channel.raise_eq]
  exact (h.event_clkFail _).reactAll _

/-- A report that the collector takes is counted as source 5. -/
theorem Channel.silenced.raise_clkFail_counts (h : c.silenced) (hb : c.blockOn 0 = true) (hr : c.resetting = false)
    (ho : c.pwr.off = false) (ht : c.fcc.tag = none) : (c.raise 5).srcBit FCC_STAT_SRC 5 = true := by
  have hev := c.event_eq 5 (blockOf 5) hb hr ho ht
  have hlate : (c.counted 5).later (c.event 5 (blockOf 5)).1 := by
    rw [hev]
    exact (Channel.later.afterCount c 5 (by norm_num)).queueEvent _ _
  obtain ⟨hstat, -⟩ := c.counted_spec 5 (by norm_num)
  rw [Channel.raise_eq]
  exact (hlate.reactAll_silenced (h.event_clkFail _) _).srcStat (by norm_num) hstat

theorem exec_clkFail_eq (ch : Chan) (arrives : Bool) (s : State) :
    exec (.clkFail ch arrives) s =
      .next (s.onLive ch fun c => if arrives then c.goSilent.raise 5 else c.goSilent) := rfl

/-- The channel after a clock failure is silent, whether or not the report arrives. -/
theorem Channel.clkFail_silent (c : Channel) (arrives : Bool) :
    (if arrives then c.goSilent.raise 5 else c.goSilent).silent := by
  split
  · exact c.goSilent_silent.1.raise_clkFail
  · exact c.goSilent_silent

/-- The report of a running channel's clock failure, where STW is on and no injection is announced. -/
theorem Channel.clkFail_counts (c : Channel) (hl : c.live = true) (hb : c.blockOn 0 = true) (ht : c.fcc.tag = none) :
    (c.goSilent.raise 5).srcBit FCC_STAT_SRC 5 = true := by
  obtain ⟨hr, -, ho⟩ := Channel.live_not hl
  obtain ⟨er, ep, et⟩ := c.goSilent_parts
  exact c.goSilent_silent.1.raise_clkFail_counts ((c.blockOn_goSilent 0).trans hb) (er.trans hr) (by rw [ep, ho])
    (et.trans ht)

/-- R21, R159, R236, R421: CLK_FAIL drives the fail-silent line, and a report that arrives is counted. -/
theorem exec_clkFail_silences (ch : Chan) (arrives : Bool) (s : State) (hl : (s.chan ch).live = true) :
    ∃ t, exec (.clkFail ch arrives) s = .next t ∧ s.onlyChan ch t ∧ (t.chan ch).failSilent = true ∧
      (t.chan ch).live = false ∧ ((t.chan ch).causes .S).testBit 5 = true ∧ ((t.chan ch).causes .P).testBit 5 = true ∧
      (t.chan ch).is FCC_EPIN_LEVEL = false ∧
      (arrives = true → (s.chan ch).blockOn 0 = true → (s.chan ch).fcc.tag = none →
        (t.chan ch).srcBit FCC_STAT_SRC 5 = true) := by
  obtain ⟨⟨hf, hS, hP⟩, hlow⟩ := (s.chan ch).clkFail_silent arrives
  refine ⟨_, exec_clkFail_eq ch arrives s, s.onlyChan_onLive ch _, ?_⟩
  rw [State.chan_onLive _ _ _ hl]
  refine ⟨hf, Channel.not_live_of_failSilent hf, hS, hP, hlow, fun harr hb ht => ?_⟩
  rw [if_pos harr]
  exact (s.chan ch).clkFail_counts hl hb ht

/-- Settles O39: the three commands one by one. A kick writes no register; the watchdog's event spares the channel by
hypothesis; no reaction of CLK_FAIL's event resets a channel that is already fail-silent. -/
theorem engineWatchdogsAndClockFailure : Obligations.EngineWatchdogsAndClockFailure :=
  ⟨exec_stwKick_restarts, exec_coreWdog_raises, exec_clkFail_silences⟩

end Sys2Proof.Machine
end

section
/-! PROOF. The event log (R445): what its registers and banks keep through an operation of the management subsystem. -/

namespace Sys2Proof.Machine

variable {m n p : Mss}

/-! ### What stands, what only rises, and the record in progress -/

/-- The flags of LOG_STAT that no operation clears. -/
def latchFlds : List Fld := [LOG_STAT_FULL, LOG_STAT_DEAD, LOG_STAT_RET0, LOG_STAT_RET1]

/-- No latched flag of the log falls and no life counter runs back (R445). -/
structure Mss.latchesKept (m n : Mss) : Prop where
  flags : ∀ f ∈ latchFlds, m.is f = true → n.is f = true
  life : ∀ i < 1024, m.rd (LOG_LIFE_COUNT i) ≤ n.rd (LOG_LIFE_COUNT i)

/-- The banks, the record in progress, LOG_NEXT, LOG_FULL and BUSY stand; latches and life counters at most rise. -/
structure Mss.logKept (m n : Mss) : Prop where
  bank0 : n.log.bank0 = m.log.bank0
  bank1 : n.log.bank1 = m.log.bank1
  now : n.log.now = m.log.now
  next : n.rd LOG_NEXT_SEQ = m.rd LOG_NEXT_SEQ
  full : n.is LOG_STAT_FULL = m.is LOG_STAT_FULL
  busy : n.is LOG_STAT_BUSY = m.is LOG_STAT_BUSY
  latches : m.latchesKept n

/-- LOG_NEXT and LOG_FULL stand while the slot at LOG_NEXT may be written (R442, R443), which may end the record in
progress. -/
structure Mss.nextStands (m n : Mss) : Prop where
  next : n.rd LOG_NEXT_SEQ = m.rd LOG_NEXT_SEQ
  full : n.is LOG_STAT_FULL = m.is LOG_STAT_FULL
  bank0 : m.bankGrows m.log.bank0 m.log.bank1 n.log.bank0
  bank1 : m.bankGrows m.log.bank1 m.log.bank0 n.log.bank1
  now : n.log.now = none ∨ n.log.now = m.log.now ∧ n.is LOG_STAT_BUSY = m.is LOG_STAT_BUSY
  latches : m.latchesKept n

/-- What R445 asks of a step: the order of the log, its two banks, LOG_NEXT, the latches and the life counters. -/
structure Mss.logGrows (m n : Mss) : Prop where
  ordered : n.logOrdered
  bank0 : m.bankGrows m.log.bank0 m.log.bank1 n.log.bank0
  bank1 : m.bankGrows m.log.bank1 m.log.bank0 n.log.bank1
  next : n.rd LOG_NEXT_SEQ = m.rd LOG_NEXT_SEQ ∨ n.rd LOG_NEXT_SEQ = (m.rd LOG_NEXT_SEQ + 1) % 2 ^ 32
  latches : m.latchesKept n

theorem Mss.latchesKept.refl (m : Mss) : m.latchesKept m := ⟨fun _ _ h => h, fun _ _ => le_rfl⟩

theorem Mss.latchesKept.trans (h : m.latchesKept n) (k : n.latchesKept p) : m.latchesKept p :=
  ⟨fun f hf hm => k.flags f hf (h.flags f hf hm), fun i hi => (h.life i hi).trans (k.life i hi)⟩

theorem Mss.latchesKept.of_regs (h : n.regs = m.regs) : m.latchesKept n :=
  ⟨fun f _ hm => by rwa [Mss.is, Mss.rd, h], fun i _ => by rw [Mss.rd, Mss.rd, h]⟩

theorem Mss.logKept.refl (m : Mss) : m.logKept m := ⟨rfl, rfl, rfl, rfl, rfl, rfl, .refl m⟩

theorem Mss.logKept.trans (h : m.logKept n) (k : n.logKept p) : m.logKept p :=
  ⟨k.bank0.trans h.bank0, k.bank1.trans h.bank1, k.now.trans h.now, k.next.trans h.next, k.full.trans h.full,
    k.busy.trans h.busy, h.latches.trans k.latches⟩

/-! ### A bank in a step -/

theorem Mss.bankGrows.refl (m : Mss) (b other : KMap LogRecord) : m.bankGrows b other b :=
  ⟨fun _ => rfl, fun _ _ => rfl, .inl (by simp)⟩

/-- A write of the slot at LOG_NEXT of a log that is not full: the record in progress, the other bank's copy, the bank's
own, or an empty slot. -/
theorem Mss.bankGrows.put (b other : KMap LogRecord) {r : LogRecord} (hf : m.is LOG_STAT_FULL = false)
    (hr : r ∈ [kget LogRecord.blank b (m.rd LOG_NEXT_SEQ), kget LogRecord.blank other (m.rd LOG_NEXT_SEQ),
      LogRecord.blank] ∨ m.log.now = some r) :
    m.bankGrows b other (kset LogRecord.blank b (m.rd LOG_NEXT_SEQ) r) :=
  ⟨fun h => absurd h (by simp [hf]), fun _ hn => kget_kset_ne _ _ _ hn, by rwa [kget_kset_self]⟩

/-- Two writes of the slot at LOG_NEXT, one after the other, the second of which sees both banks after the first. -/
theorem Mss.bankGrows.trans {b b' b'' other other' : KMap LogRecord} (h : m.bankGrows b other b')
    (h' : m.bankGrows other b other') (k : n.bankGrows b' other' b'') (hnext : n.rd LOG_NEXT_SEQ = m.rd LOG_NEXT_SEQ)
    (hfull : n.is LOG_STAT_FULL = m.is LOG_STAT_FULL) (hnow : n.log.now = none ∨ n.log.now = m.log.now) :
    m.bankGrows b other b'' := by
  obtain ⟨hf, hne, hat⟩ := h
  obtain ⟨-, -, hat'⟩ := h'
  obtain ⟨kf, kne, kat⟩ := k
  rw [hnext] at kne kat
  refine ⟨fun hm => (kf (hfull.trans hm)).trans (hf hm), fun i hi => (kne i hi).trans (hne i hi), ?_⟩
  rcases kat with kat | kat
  · simp only [List.mem_cons, List.not_mem_nil, or_false] at kat hat hat' ⊢
    rcases kat with e | e | e
    · rwa [e]
    · rw [e]
      rcases hat' with (e' | e' | e') | e'
      · exact .inl (.inr (.inl e'))
      · exact .inl (.inl e')
      · exact .inl (.inr (.inr e'))
      · exact .inr e'
    · exact .inl (.inr (.inr e))
  · rcases hnow with e | e
    · rw [e] at kat; cases kat
    · exact .inr (e.symm.trans kat)

/-! ### From one relation to the next -/

theorem Mss.logKept.nextStands (h : m.logKept n) : m.nextStands n :=
  ⟨h.next, h.full, h.bank0 ▸ .refl .., h.bank1 ▸ .refl .., .inr ⟨h.now, h.busy⟩, h.latches⟩

/-- The record in progress after a write at LOG_NEXT is the one before, or none. -/
theorem Mss.nextStands.now_or (h : m.nextStands n) : n.log.now = none ∨ n.log.now = m.log.now := h.now.imp_right And.left

theorem Mss.nextStands.trans (h : m.nextStands n) (k : n.nextStands p) : m.nextStands p where
  next := k.next.trans h.next
  full := k.full.trans h.full
  bank0 := h.bank0.trans h.bank1 k.bank0 h.next h.full h.now_or
  bank1 := h.bank1.trans h.bank0 k.bank1 h.next h.full h.now_or
  now := by
    rcases k.now with e | ⟨e, eb⟩
    · exact .inl e
    · exact h.now.imp e.trans fun ⟨e', eb'⟩ => ⟨e.trans e', eb.trans eb'⟩
  latches := h.latches.trans k.latches

theorem Mss.nextStands.ordered (h : m.nextStands n) (hm : m.logOrdered) : n.logOrdered := by
  obtain ⟨hfree, hnow⟩ := hm
  refine ⟨fun hf => h.next ▸ hfree (h.full ▸ hf), fun r hr => ?_⟩
  rcases h.now with e | ⟨e, eb⟩
  · rw [e] at hr; cases hr
  · rw [h.next, h.full, eb]
    exact hnow r (e ▸ hr)

theorem Mss.nextStands.logGrows (h : m.nextStands n) (hm : m.logOrdered) : m.logGrows n :=
  ⟨h.ordered hm, h.bank0, h.bank1, .inl h.next, h.latches⟩

theorem Mss.nextStands.trans_logGrows (h : m.nextStands n) (k : n.logGrows p) : m.logGrows p :=
  ⟨k.ordered, h.bank0.trans h.bank1 k.bank0 h.next h.full h.now_or, h.bank1.trans h.bank0 k.bank1 h.next h.full h.now_or,
    h.next ▸ k.next, h.latches.trans k.latches⟩

theorem Mss.logKept.logGrows (h : m.logKept n) (hm : m.logOrdered) : m.logGrows n := h.nextStands.logGrows hm

theorem Mss.logGrows.trans_logKept (h : m.logGrows n) (k : n.logKept p) : m.logGrows p :=
  ⟨k.nextStands.ordered h.ordered, k.bank0 ▸ h.bank0, k.bank1 ▸ h.bank1, k.next ▸ h.next, h.latches.trans k.latches⟩

/-! ### Registers -/

/-- Addresses of the registers in which the log keeps its state (R460). -/
def logAddr (a : Nat) : Bool := a == LOG_STAT || a == LOG_NEXT || (LOG_LIFE 0 ≤ a && a < LOG_LIFE 1024)

/-- The fields of those registers. -/
def Fld.ofLog (f : Fld) : Prop := f ∈ LOG_NEXT_SEQ :: LOG_STAT_BUSY :: latchFlds ∨ ∃ i < 1024, f = LOG_LIFE_COUNT i

theorem Fld.ofLog.addr {f : Fld} (h : f.ofLog) : logAddr f.addr = true := by
  rcases h with h | ⟨i, hi, rfl⟩
  · revert f; decide
  · simp only [logAddr, LOG_LIFE, Bool.or_eq_true, Bool.and_eq_true, decide_eq_true_eq]
    omega

theorem latchFlds_ofLog {f : Fld} (h : f ∈ latchFlds) : f.ofLog := .inl (by simp [h])

/-- Where the fields of the log read as before, the log stands. -/
theorem Mss.logKept.of_flds (h0 : n.log.bank0 = m.log.bank0) (h1 : n.log.bank1 = m.log.bank1)
    (hn : n.log.now = m.log.now) (hf : ∀ f : Fld, f.ofLog → n.rd f = m.rd f) : m.logKept n where
  bank0 := h0
  bank1 := h1
  now := hn
  next := hf _ (.inl (by simp))
  full := by rw [Mss.is, Mss.is, hf _ (.inl (by decide))]
  busy := by rw [Mss.is, Mss.is, hf _ (.inl (by decide))]
  latches := ⟨fun f h hm => by rwa [Mss.is, hf f (latchFlds_ofLog h)], fun i hi => (hf _ (.inr ⟨i, hi, rfl⟩)).ge⟩

/-- Operations beside the registers and the banks leave the log. -/
theorem Mss.logKept.of_parts (h : m.logKept n) (hr : p.regs = n.regs) (h0 : p.log.bank0 = n.log.bank0)
    (h1 : p.log.bank1 = n.log.bank1) (hn : p.log.now = n.log.now) : m.logKept p :=
  h.trans (.of_flds h0 h1 hn fun f _ => by rw [Mss.rd, Mss.rd, hr])

/-- A write of any other register leaves the log. -/
theorem Mss.logKept.wr (h : m.logKept n) (f : Fld) (v : Nat) (hf : logAddr f.addr = false) : m.logKept (n.wr f v) :=
  h.trans (.of_flds rfl rfl rfl fun g hg => RegMap.get_put_ne _ _ fun e => by rw [← e, hg.addr] at hf; cases hf)

theorem Mss.logKept.setWord (h : m.logKept n) (a : Nat) (v : Word) (ha : logAddr a = false) :
    m.logKept { n with regs := n.regs.setWord a v } :=
  h.trans (.of_flds rfl rfl rfl fun g hg => RegMap.get_setWord_ne _ _ fun e => by rw [← e, hg.addr] at ha; cases ha)

theorem Mss.is_wr_off (m : Mss) {f g : Fld} (v : Nat) (h : (g.apartB f && f.fitsB) = true) : (m.wr f v).is g = m.is g := by
  rw [Mss.is, Mss.is, Mss.rd, Mss.rd, Mss.wr, RegMap.get_put_off _ _ _ _ h]

/-- A life counter shares no register with LOG_STAT or LOG_NEXT. -/
theorem Mss.rd_life_wr (m : Mss) (i : Nat) (f : Fld) (v : Nat) (hf : f.addr = LOG_STAT ∨ f.addr = LOG_NEXT) :
    (m.wr f v).rd (LOG_LIFE_COUNT i) = m.rd (LOG_LIFE_COUNT i) :=
  RegMap.get_put_ne _ _ (by simp only [LOG_LIFE, LOG_STAT, LOG_NEXT] at hf ⊢; omega)

/-- BUSY and LOG_NEXT share no bit with a latch. -/
theorem Mss.latchesKept.wr (h : m.latchesKept n) (f : Fld) (v : Nat) (hf : f ∈ [LOG_NEXT_SEQ, LOG_STAT_BUSY]) :
    m.latchesKept (n.wr f v) := by
  have hoff : ∀ f ∈ [LOG_NEXT_SEQ, LOG_STAT_BUSY], ∀ g ∈ latchFlds, (g.apartB f && f.fitsB) = true := by decide
  have haddr : ∀ f ∈ [LOG_NEXT_SEQ, LOG_STAT_BUSY], f.addr = LOG_STAT ∨ f.addr = LOG_NEXT := by decide
  exact h.trans ⟨fun g hg hm => by rwa [Mss.is_wr_off _ _ (hoff f hf g hg)],
    fun i _ => (Mss.rd_life_wr _ i f v (haddr f hf)).ge⟩

/-- Setting a latch clears no other. -/
theorem Mss.latchesKept.latch (h : m.latchesKept n) (f : Fld) (hf : f ∈ latchFlds) : m.latchesKept (n.wr f 1) := by
  have hoff : ∀ f ∈ latchFlds, ∀ g ∈ latchFlds, g = f ∨ (g.apartB f && f.fitsB) = true := by decide
  have hself : ∀ f ∈ latchFlds, f.fitsB = true ∧ 1 % 2 ^ f.width ≠ 0 ∧ f.addr = LOG_STAT := by decide
  obtain ⟨hfits, hone, haddr⟩ := hself f hf
  refine h.trans ⟨fun g hg hm => ?_, fun i _ => (Mss.rd_life_wr _ i f 1 (.inl haddr)).ge⟩
  rcases hoff f hf g hg with rfl | hoff
  · simpa [Mss.is, Mss.rd, Mss.wr, RegMap.get_put _ _ _ hfits] using hone
  · rwa [Mss.is_wr_off _ _ hoff]

/-- DEAD and the retirements latch beside LOG_FULL and BUSY. -/
theorem Mss.logKept.latch (h : m.logKept n) (f : Fld) (hf : f ∈ [LOG_STAT_DEAD, LOG_STAT_RET0, LOG_STAT_RET1]) :
    m.logKept (n.wr f 1) := by
  have hoff : ∀ f ∈ [LOG_STAT_DEAD, LOG_STAT_RET0, LOG_STAT_RET1], f ∈ latchFlds ∧ LOG_NEXT_SEQ.addr ≠ f.addr ∧
      (LOG_STAT_FULL.apartB f && f.fitsB) = true ∧ (LOG_STAT_BUSY.apartB f && f.fitsB) = true := by decide
  obtain ⟨hl, hnext, hfull, hbusy⟩ := hoff f hf
  exact h.trans ⟨rfl, rfl, rfl, RegMap.get_put_ne _ _ hnext, Mss.is_wr_off _ _ hfull, Mss.is_wr_off _ _ hbusy,
    (Mss.latchesKept.refl n).latch f hl⟩

/-- A life counter may rise (R449). -/
theorem Mss.logKept.raiseLife (h : m.logKept n) (idx v : Nat) (hv : n.rd (LOG_LIFE_COUNT idx) ≤ v) (hlt : v < 2 ^ 32) :
    m.logKept (n.wr (LOG_LIFE_COUNT idx) v) := by
  have hself : (n.wr (LOG_LIFE_COUNT idx) v).rd (LOG_LIFE_COUNT idx) = v :=
    (RegMap.get_put _ _ _ rfl).trans (Nat.mod_eq_of_lt hlt)
  have hne : ∀ f ∈ LOG_NEXT_SEQ :: LOG_STAT_BUSY :: latchFlds, (n.wr (LOG_LIFE_COUNT idx) v).rd f = n.rd f := by
    intro f hf
    have haddr : ∀ f ∈ LOG_NEXT_SEQ :: LOG_STAT_BUSY :: latchFlds, f.addr < 0x48011000 := by decide
    exact RegMap.get_put_ne _ _ (by have := haddr f hf; show f.addr ≠ 0x48011000 + 0x4 * idx; omega)
  refine h.trans ⟨rfl, rfl, rfl, hne _ (by simp), ?_, ?_, fun f hf hm => ?_, fun i _ => ?_⟩
  · rw [Mss.is, Mss.is, hne _ (by decide)]
  · rw [Mss.is, Mss.is, hne _ (by decide)]
  · rwa [Mss.is, hne f (by simp [hf])]
  · by_cases e : i = idx
    · subst e; rwa [hself]
    · exact (RegMap.get_put_ne _ _ (by show 0x48011000 + 0x4 * i ≠ 0x48011000 + 0x4 * idx; omega)).ge

end Sys2Proof.Machine
end

section
/-! PROOF. The operations of the management subsystem that leave the event log, one by one: what they write lies beside
it, or counts or latches in it (R446, R449). -/

namespace Sys2Proof.Machine

variable {m n p : Mss}

/-! ### The shared operations -/

theorem Mss.logKept.ite (c : Prop) [Decidable c] (h : m.logKept n) (k : m.logKept p) : m.logKept (if c then n else p) := by
  split <;> assumption

theorem Mss.logKept.foldl {α : Type} {g : Mss → α → Mss} (l : List α)
    (hg : ∀ x ∈ l, ∀ {n : Mss}, m.logKept n → m.logKept (g n x)) : ∀ {n : Mss}, m.logKept n → m.logKept (l.foldl g n) := by
  induction l with
  | nil => exact fun h => h
  | cons x xs ih => exact fun h => ih (fun y hy => hg y (.tail _ hy)) (hg x (.head _) h)

theorem Mss.logKept.sat (h : m.logKept n) (f : Fld) (hf : logAddr f.addr = false) : m.logKept (n.sat f) := h.wr f _ hf

theorem Mss.logKept.onPort (h : m.logKept n) (ch : Chan) (f : Port → Port) : m.logKept (n.onPort ch f) := by
  cases ch <;> exact h.of_parts rfl rfl rfl rfl

theorem Mss.logKept.onSup (h : m.logKept n) (f : Sup → Sup) : m.logKept (n.onSup f) := h.of_parts rfl rfl rfl rfl

theorem Mss.logKept.onKey (h : m.logKept n) (f : KeyStore → KeyStore) : m.logKept (n.onKey f) := h.of_parts rfl rfl rfl rfl

theorem Mss.logKept.onUpd (h : m.logKept n) (f : Upd → Upd) : m.logKept (n.onUpd f) := h.of_parts rfl rfl rfl rfl

theorem Mss.logKept.draw (h : m.logKept n) (k : Nat) : m.logKept (n.draw k).2 := h.of_parts rfl rfl rfl rfl

theorem Mss.logKept.record (h : m.logKept n) (src code data : Nat) : m.logKept (n.record src code data) :=
  h.of_parts rfl rfl rfl rfl

theorem Mss.logKept.errPulse (h : m.logKept n) : m.logKept n.errPulse := h.onSup _

theorem Mss.logKept.hear (h : m.logKept n) (c : Channel) : m.logKept (n.hear c) := h.of_parts rfl rfl rfl rfl

theorem Mss.logKept.withRung (h : m.logKept n) (r : Nat) : m.logKept { n with rung := r } := h.of_parts rfl rfl rfl rfl

theorem Mss.logKept.showPorts (h : m.logKept n) : m.logKept n.showPorts := (h.wr _ _ rfl).wr _ _ rfl

/-! ### Counters, retirements and messages (R446, R449) -/

theorem Mss.logKept.lifeAdd (h : m.logKept n) (idx k : Nat) : m.logKept (n.lifeAdd idx k) := by
  have hlt : n.rd (LOG_LIFE_COUNT idx) < 2 ^ 32 := RegMap.get_lt _ _
  have hw : m.logKept (n.wr (LOG_LIFE_COUNT idx) (min (n.rd (LOG_LIFE_COUNT idx) + k) (2 ^ 32 - 1))) :=
    h.raiseLife idx _ (by omega) (by omega)
  exact .ite _ (hw.record _ _ _) hw

theorem Mss.logKept.count (h : m.logKept n) (r : LogRecord) : m.logKept (n.count r) := by
  unfold Mss.count
  split
  · exact h.lifeAdd _ _
  · exact h

theorem Mss.logKept.retire (h : m.logKept n) (bank why : Nat) : m.logKept (n.retire bank why) := by
  have hw : m.logKept (((n.wr (if bank = 0 then LOG_STAT_RET0 else LOG_STAT_RET1) 1).errPulse).record 0x204 bank why) :=
    ((h.latch _ (by split <;> simp)).errPulse).record _ _ _
  exact .ite _ h (.ite _ (hw.latch _ (by simp)) hw)

theorem Mss.logKept.loadBody (h : m.logKept n) (x : LogMsg) : m.logKept (n.loadBody x) := by
  have hbody : ∀ i ∈ List.range 6, logAddr (LOG_BODY_VALUE (i + 1)).addr = false := by decide
  have hfold := Mss.logKept.foldl (m := m) (g := fun m i => m.wr (LOG_BODY_VALUE (i + 1)) (x.data.toNat / 2 ^ (32 * i)))
    (List.range 6) (fun i hi _ h => h.wr _ _ (hbody i hi)) h
  exact (((((hfold.wr _ _ rfl).wr _ _ rfl).wr _ _ rfl).wr _ _ rfl).wr _ _ rfl).wr _ _ rfl

theorem Mss.logKept.readDone (h : m.logKept n) (ch : Chan) (bad0 bad1 : List Nat) : m.logKept (n.readDone ch bad0 bad1) := by
  unfold Mss.readDone
  split
  · exact h
  · refine .ite _ ?_ (.ite _ (h.onPort _ _) (h.onPort _ _))
    have h0 : ∀ (c : Bool) f, m.logKept (if c then (n.onPort ch f).retire 0 2 else n.onPort ch f) :=
      fun c f => .ite _ ((h.onPort ch f).retire 0 2) (h.onPort ch f)
    exact .ite _ ((h0 _ _).retire _ _) (h0 _ _)

/-! ### Clocks, sensors and the supervisor (R432 to R435, R452 to R458) -/

theorem Mss.logKept.calendar (h : m.logKept n) (t : Nat) : m.logKept (n.calendar t) :=
  have hs := h.onSup _
  .ite _ hs (.ite _ (hs.onSup _) (.ite _ (hs.onSup _) ((hs.onSup _).record _ _ _)))

theorem Mss.logKept.sense (h : m.logKept n) {i : Nat} (hi : i < 25) (v : Nat) (back : Bool) : m.logKept (n.sense i v back) := by
  have hsens : ∀ i < 25, logAddr (MSS_SENS_VALUE i).addr = false := by decide
  have hs := fun f => (h.wr (MSS_SENS_VALUE i) v (hsens i hi)).onSup f
  exact .ite _ (.ite _ ((hs _).record _ _ _).errPulse ((hs _).record _ _ _)) (hs _)

theorem Mss.logKept.senseAll (back : BitVec 25) : ∀ (l : List Nat) (i : Nat), i + l.length ≤ 25 → ∀ {n : Mss}, m.logKept n →
    m.logKept (n.senseAll back i l)
  | [], _, _, _, h => h
  | v :: vs, i, hl, _, h => by
    rw [List.length_cons] at hl
    exact Mss.logKept.senseAll back vs (i + 1) (by omega) (h.sense (by omega) v _)

theorem Mss.logKept.envRecord (h : m.logKept n) : m.logKept n.envRecord := by
  unfold Mss.envRecord
  split
  · exact h.record _ _ _
  · exact ((h.draw 2).record _ _ _).onSup _

theorem Mss.logKept.loadFrame (h : m.logKept n) (busy : Nat) : m.logKept (n.loadFrame busy) :=
  have hs := h.onSup _
  have hw := ((Mss.logKept.ite _ (hs.onSup _) hs).wr MSS_STAT_LOAD _ rfl).wr UPD_STAT_PAUSED _ rfl
  .ite _ hw (hw.record _ _ _)

theorem Mss.logKept.mpReset (h : m.logKept n) (code : Nat) : m.logKept (n.mpReset code) := by
  have hm : m.logKept { n with mp := false, ready := false, restart := some (code, n.rd MSS_STAT_VOTES) } :=
    h.of_parts rfl rfl rfl rfl
  unfold Mss.mpReset
  exact ((hm.wr MSS_STAT_LOAD 0 rfl).wr UPD_STAT_PAUSED 0 rfl).onSup _

theorem Mss.logKept.voteReset (h : m.logKept n) : m.logKept n.voteReset := by
  have hs := ((h.sat MSS_STAT_VOTERST rfl).mpReset 1).onSup fun x => { x with votes := n.sup.votes + 1 }
  unfold Mss.voteReset
  exact .ite _ (hs.of_parts rfl rfl rfl rfl) hs

/-! ### Slots and the update path (R60, R471, R480 to R484) -/

theorem Mss.logKept.loadImage (h : m.logKept n) : m.logKept n.loadImage := by
  unfold Mss.loadImage
  split
  · exact h.of_parts rfl rfl rfl rfl
  · exact h

theorem Mss.logKept.slotRecord (h : m.logKept n) (i : Nat) (active : Bool) : m.logKept (n.slotRecord i active) :=
  h.record _ _ _

theorem Mss.logKept.mark (h : m.logKept n) (i st : Nat) : m.logKept (n.mark i st) := by
  refine .ite _ h (Mss.logKept.slotRecord ?_ i false)
  exact .ite _ (h.of_parts rfl rfl rfl rfl) (h.of_parts rfl rfl rfl rfl)

theorem Mss.logKept.activate (h : m.logKept n) (i : Nat) : m.logKept (n.activate i) := by
  refine .ite _ h (Mss.logKept.slotRecord ?_ i true)
  exact h.of_parts rfl rfl rfl rfl

theorem Mss.logKept.showKeys (h : m.logKept n) : m.logKept n.showKeys :=
  (((h.wr _ _ rfl).wr _ _ rfl).wr _ _ rfl).wr _ _ rfl

theorem Mss.logKept.wrHash (h : m.logKept n) (v : Nat → Nat) :
    m.logKept ((List.range 8).foldl (fun m i => m.wr (UPD_HASH_VALUE i) (v i)) n) := by
  have hhash : ∀ i ∈ List.range 8, logAddr (UPD_HASH_VALUE i).addr = false := by decide
  exact Mss.logKept.foldl _ (fun i hi _ h => h.wr _ _ (hhash i hi)) h

theorem Mss.logKept.noSession (h : m.logKept n) : m.logKept n.noSession := by
  have hstat := ((h.wr UPD_STAT_STATE 0 rfl).wr UPD_STAT_OWNER 0 rfl).wr UPD_NEXT_VALUE 0 rfl
  unfold Mss.noSession
  exact (((hstat.wr UPD_FOLRES_VALUE 0xFF rfl).wr UPD_FOLPOS_VALUE 0 rfl).wrHash fun _ => 0).onUpd _

theorem Mss.logKept.commit (h : m.logKept n) (i : Nat) : m.logKept (n.commit i) :=
  have hk := ((((h.mark i 2).activate i).wr KEY_ROLLBACK_VALUE _ rfl).onKey _).showKeys
  have hu := (Mss.logKept.ite _ (hk.mark (1 - i) 0) hk).onUpd _
  .ite _ (((hu.wr UPD_STAT_STATE 0 rfl).wr UPD_STAT_OWNER 0 rfl).of_parts rfl rfl rfl rfl) hu

theorem Mss.logKept.armStep (h : m.logKept n) : m.logKept n.armStep := by
  unfold Mss.armStep
  split
  · exact .ite _ h (.ite _ (((h.mark _ _).activate _).onUpd _) ((h.onUpd _).activate _))
  · exact h.onUpd _

theorem Mss.logKept.updResult (h : m.logKept n) (cmd err : Nat) : m.logKept (n.updResult cmd err) :=
  Mss.logKept.record ((h.wr _ _ rfl).wr _ _ rfl) _ _ _

theorem Mss.logKept.updOpen (h : m.logKept n) (ch : Chan) : m.logKept (n.updOpen ch) :=
  .ite _
    (.ite _ (h.updResult _ _) (Mss.logKept.updResult (((h.noSession.wr _ _ rfl).wr _ _ rfl).onUpd _) _ _))
    (.ite _ (h.updResult _ _) (.ite _ (Mss.logKept.updResult ((h.wr _ _ rfl).onUpd _) _ _) (h.updResult _ _)))

theorem Mss.logKept.updBlock (h : m.logKept n) (ch : Chan) (words : Nat) : m.logKept (n.updBlock ch words) :=
  .ite _ (h.updResult _ _) (.ite _ (h.updResult _ _) (.ite _ (h.updResult _ _) (.ite _ (h.updResult _ _)
    (Mss.logKept.updResult ((h.onUpd _).wr _ _ rfl) _ _))))

theorem Mss.logKept.updVerify (h : m.logKept n) (ch : Chan) : m.logKept (n.updVerify ch) :=
  .ite _ (h.updResult _ _) (.ite _ (h.updResult _ _) (.ite _ (h.updResult _ _)
    (((h.wr _ _ rfl).wr _ _ rfl).wr _ _ rfl)))

theorem Mss.logKept.showFolio (h : m.logKept n) (r : Option FErr) : m.logKept (n.showFolio r) := by
  cases r with
  | none => exact (h.wr _ _ rfl).wr _ _ rfl
  | some e => exact (h.wr _ _ rfl).wr _ _ rfl

theorem Mss.logKept.showHash (h : m.logKept n) (x : BitVec 256) : m.logKept (n.showHash x) := h.wrHash _

theorem Mss.logKept.verifyDone (h : m.logKept n) : m.logKept n.verifyDone := by
  have bad : ∀ {p : Mss}, m.logKept p → ∀ err, m.logKept ((p.wr UPD_STAT_STATE 1).updResult 3 err) :=
    fun k err => (k.wr _ _ rfl).updResult _ _
  refine .ite _ (bad h _) (.ite _ (bad (h.showHash _) _) (.ite _ (bad (h.showHash _) _) ?_))
  split
  · exact bad ((h.showHash _).showFolio _) _
  · exact (((h.showHash _).showFolio _).wr _ _ rfl).updResult _ _

theorem Mss.logKept.copyDone (h : m.logKept n) (ok : Bool) : m.logKept (n.copyDone ok) :=
  .ite _ (Mss.logKept.updResult ((((h.onUpd _).onUpd _).mark _ _).wr _ _ rfl) _ _)
    (Mss.logKept.updResult (((h.onUpd _).draw 17).onUpd _ |>.wr _ _ rfl) _ _)

theorem Mss.logKept.updDiscard (h : m.logKept n) (ch : Chan) : m.logKept (n.updDiscard ch) :=
  .ite _ (h.updResult _ _) (.ite _ (h.updResult _ _) (h.noSession.updResult _ _))

/-! ### Keys, life cycle and attestation (R465 to R479) -/

theorem Mss.logKept.keyResult (h : m.logKept n) (ch : Chan) (cmd err len kind slot : Nat) :
    m.logKept (n.keyResult ch cmd err len kind slot) :=
  Mss.logKept.record ((h.onPort ch _).wr KEY_STAT_BUSY _ rfl) _ _ _

theorem Mss.logKept.keyStart (h : m.logKept n) (ch : Chan) (cmd : Nat) : m.logKept (n.keyStart ch cmd) :=
  have hp := fun f => h.onPort ch f
  .ite _ (hp _) (.ite _ (h.keyResult _ _ _ _ _ _) (.ite _ ((hp _).keyResult _ _ _ _ _ _)
    (Mss.logKept.wr (.ite _ ((hp _).onKey _) (hp _)) _ _ rfl)))

theorem Mss.logKept.useChallenge (h : m.logKept n) (t : List Byte) : m.logKept (n.useChallenge t) :=
  .ite _ h (h.of_parts rfl rfl rfl rfl)

theorem Mss.logKept.fuse (h : m.logKept n) (slot : Nat) (key : List Byte) : m.logKept (n.fuse slot key) :=
  Mss.logKept.showKeys (h.onKey _)

theorem Mss.logKept.revoke (h : m.logKept n) (i : Nat) : m.logKept (n.revoke i) :=
  have hk := Mss.logKept.showKeys (h.onKey _)
  have h0 := Mss.logKept.ite _ (hk.mark 0 0) hk
  .ite _ (h0.mark 1 0) h0

theorem Mss.logKept.showId (h : m.logKept n) : m.logKept n.showId := by
  unfold Mss.showId
  split
  · exact h.wr _ _ rfl
  · exact (h.wr _ _ rfl).wr _ _ rfl

theorem Mss.logKept.reserveLeaf (h : m.logKept n) (i : Nat) : m.logKept (n.reserveLeaf i) :=
  Mss.logKept.showId (h.onKey _)

theorem Mss.logKept.putBuf (h : m.logKept n) (ch : Chan) (bs : List Byte) : m.logKept (n.putBuf ch bs) := h.onPort _ _

theorem Mss.logKept.attest (h : m.logKept n) (ch : Chan) (pend : Bool) (leaf : Nat) : m.logKept (n.attest ch pend leaf) :=
  (((h.wr KEY_STAT_CREDIT _ rfl).reserveLeaf leaf).putBuf ch _).keyResult _ _ _ _ _ _

theorem Mss.logKept.attestDone (h : m.logKept n) (ch : Chan) (pend : Bool) : m.logKept (n.attestDone ch pend) := by
  refine .ite _ h ?_
  split
  · exact Mss.logKept.keyResult (h.onKey _) _ _ _ _ _ _
  · exact .ite _ (Mss.logKept.keyResult (h.onKey _) _ _ _ _ _ _)
      (.ite _ (Mss.logKept.showId (h.onKey _)) (Mss.logKept.attest (h.onKey _) _ _ _))

theorem Mss.logKept.challengeDone (h : m.logKept n) (ch : Chan) : m.logKept (n.challengeDone ch) := by
  have hfree : m.logKept { n with free := n.free + 1 } := h.of_parts rfl rfl rfl rfl
  unfold Mss.challengeDone
  exact (hfree.onPort ch _).keyResult _ _ _ _ _ _

theorem Mss.logKept.fuseDone (h : m.logKept n) (ch : Chan) (cmd kind : Nat) (key : List Byte) (want : Option Nat) :
    m.logKept (n.fuseDone ch cmd kind key want) := by
  unfold Mss.fuseDone
  split
  · exact h.keyResult _ _ _ _ _ _
  · exact .ite _ (h.keyResult _ _ _ _ _ _) ((h.fuse _ _).keyResult _ _ _ _ _ _)

/-- The wipes of a life-cycle change, its record and its result (R468). -/
theorem Mss.logKept.lcWipe (h : m.logKept n) (a b c : Port) (u : Upd → Upd) (data : Nat) (ch : Chan) (len kind : Nat) :
    m.logKept (((({ n with portA := a, portB := b, portC := c } : Mss).noSession.onUpd u).showId.record 0x209 0 data).keyResult
      ch 2 0 len kind 0) :=
  have hp : m.logKept { n with portA := a, portB := b, portC := c } := h.of_parts rfl rfl rfl rfl
  ((hp.noSession.onUpd u).showId.record _ _ _).keyResult _ _ _ _ _ _

/-- A new identity after the fuse of a life-cycle change (R469, R475). -/
theorem Mss.logKept.lcIdentity (h : m.logKept n) (f g : KeyStore → KeyStore) :
    m.logKept (((n.onKey f).showKeys.onKey g).wr KEY_STAT_CREDIT 8) := (((h.onKey f).showKeys).onKey g).wr _ _ rfl

theorem Mss.logKept.lcChange (h : m.logKept n) (ch : Chan) (dst kind : Nat) : m.logKept (n.lcChange ch dst kind) := by
  unfold Mss.lcChange
  dsimp only
  split
  · refine Mss.logKept.lcWipe ?_ _ _ _ _ _ _ _ _
    exact (h.onKey _).showKeys
  · split
    · split
      · refine Mss.logKept.lcWipe ?_ _ _ _ _ _ _ _ _
        exact h.lcIdentity _ _
      · refine Mss.logKept.lcWipe ?_ _ _ _ _ _ _ _ _
        exact ((h.reserveLeaf _).putBuf _ _).lcIdentity _ _
    · refine Mss.logKept.lcWipe ?_ _ _ _ _ _ _ _ _
      exact h.lcIdentity _ _

end Sys2Proof.Machine
end

section
/-! PROOF. The four operations that write the event log: a record formed, a record written, the rail's failure and the
recovery at power-on (R442 to R444). -/

namespace Sys2Proof.Machine

variable {m n : Mss}

/-! ### LOG_NEXT advances (R442, R444) -/

/-- LOG_FULL after an advance is LOG_FULL before, or set at the size of a bank. -/
theorem Mss.advance_eq (m : Mss) :
    m.advance = if bankSlots ≤ m.rd LOG_NEXT_SEQ + 1 then (m.wr LOG_NEXT_SEQ (m.rd LOG_NEXT_SEQ + 1)).wr LOG_STAT_FULL 1
      else m.wr LOG_NEXT_SEQ (m.rd LOG_NEXT_SEQ + 1) := rfl

theorem Mss.advance_log (m : Mss) : m.advance.log = m.log := by
  rw [Mss.advance_eq]
  split <;> rfl

theorem Mss.advance_next (m : Mss) : m.advance.rd LOG_NEXT_SEQ = (m.rd LOG_NEXT_SEQ + 1) % 2 ^ 32 := by
  have hw : (m.wr LOG_NEXT_SEQ (m.rd LOG_NEXT_SEQ + 1)).rd LOG_NEXT_SEQ = (m.rd LOG_NEXT_SEQ + 1) % 2 ^ 32 :=
    RegMap.get_put _ _ _ rfl
  rw [Mss.advance_eq]
  split
  · exact (RegMap.get_put_ne _ _ (by decide)).trans hw
  · exact hw

theorem Mss.latchesKept.advance (h : m.latchesKept n) : m.latchesKept n.advance := by
  have hw := h.wr LOG_NEXT_SEQ (n.rd LOG_NEXT_SEQ + 1) (by simp)
  rw [Mss.advance_eq]
  split
  · exact hw.latch _ (by decide)
  · exact hw

/-- A log that an advance has not filled has a free slot at the next number. -/
theorem Mss.next_lt_of_advance (hf : m.advance.is LOG_STAT_FULL = false) : m.advance.rd LOG_NEXT_SEQ < bankSlots := by
  have hlt : ¬ bankSlots ≤ m.rd LOG_NEXT_SEQ + 1 := fun hle => by
    rw [Mss.advance_eq, if_pos hle, Mss.is, Mss.rd, Mss.wr, RegMap.get_put _ _ _ rfl] at hf
    cases hf
  rw [Mss.advance_next]
  exact (Nat.mod_le _ _).trans_lt (not_le.1 hlt)

/-- LOG_NEXT advances once no record is in progress. -/
theorem Mss.advance_logGrows (hn : m.log.now = none) : m.logGrows m.advance where
  ordered := ⟨Mss.next_lt_of_advance, fun r hr => by rw [Mss.advance_log, hn] at hr; cases hr⟩
  bank0 := by rw [Mss.advance_log]; exact .refl ..
  bank1 := by rw [Mss.advance_log]; exact .refl ..
  next := .inr m.advance_next
  latches := (Mss.latchesKept.refl m).advance

/-! ### LOG_GO: a record is formed (R442) -/

/-- A record with the number of LOG_NEXT begins on a log that is not full. -/
theorem Mss.begin_logGrows {r : LogRecord} (hm : m.logOrdered) (hf : m.is LOG_STAT_FULL = false)
    (hr : r.seq = m.rd LOG_NEXT_SEQ) : m.logGrows ((m.wr LOG_STAT_BUSY 1).onLog fun l => { l with now := some r }) where
  ordered := by
    have hnext : (m.wr LOG_STAT_BUSY 1).rd LOG_NEXT_SEQ = m.rd LOG_NEXT_SEQ := RegMap.get_put_ne _ _ (by decide)
    have hfull : (m.wr LOG_STAT_BUSY 1).is LOG_STAT_FULL = m.is LOG_STAT_FULL := Mss.is_wr_off _ _ rfl
    have hbusy : (m.wr LOG_STAT_BUSY 1).is LOG_STAT_BUSY = true := by
      rw [Mss.is, Mss.rd, Mss.wr, RegMap.get_put _ _ _ rfl]; rfl
    refine ⟨fun h => hnext.trans_lt (hm.1 (hfull ▸ h)), fun q hq => ?_⟩
    cases hq
    exact ⟨hbusy, hfull.trans hf, hr.trans hnext.symm⟩
  bank0 := .refl ..
  bank1 := .refl ..
  next := .inl (RegMap.get_put_ne _ _ (by decide))
  latches := ((Mss.latchesKept.refl m).wr LOG_STAT_BUSY 1 (by simp)).trans (.of_regs rfl)

theorem Mss.formed_seq (m : Mss) : m.formed.seq = m.rd LOG_NEXT_SEQ := rfl

/-- No record is in progress while the log is not BUSY. -/
theorem Mss.logOrdered.now_none (hm : m.logOrdered) (hb : m.is LOG_STAT_BUSY = false) : m.log.now = none := by
  rcases hn : m.log.now with _ | r
  · rfl
  · rw [(hm.2 r hn).1] at hb; cases hb

/-- LOG_GO takes the next message, counts its record and advances a full or dead log, or begins the record. -/
theorem Mss.go_logGrows (hm : m.logOrdered) : m.logGrows m.go := by
  unfold Mss.go
  split
  · exact (Mss.logKept.refl m).logGrows hm
  · rename_i hb
    have hnone := hm.now_none (by simpa using hb)
    extract_lets m1 r m2 m3
    have h1 : m.logKept m1 := by
      refine .ite _ (.refl m) ?_
      split
      · rename_i x l hl
        have hpop : l.bank0 = m.log.bank0 ∧ l.bank1 = m.log.bank1 ∧ l.now = m.log.now := by
          unfold Log.next at hl
          split at hl <;> cases hl <;> exact ⟨rfl, rfl, rfl⟩
        obtain ⟨h0, h1, hn⟩ := hpop
        exact Mss.logKept.loadBody (Mss.logKept.of_parts (p := { m with log := l }) (.refl m) rfl h0 h1 hn) x
      · exact .refl m
    have h3 : m1.logKept m3 := Mss.logKept.count (Mss.logKept.of_parts (p := m2) (.refl m1) rfl rfl rfl rfl) r
    have hk := h1.trans h3
    split
    · exact (hk.lifeAdd 1023 1).nextStands.trans_logGrows
        (Mss.advance_logGrows ((hk.lifeAdd 1023 1).now.trans hnone))
    · rename_i hfd
      refine hk.nextStands.trans_logGrows (Mss.begin_logGrows (hk.nextStands.ordered hm) ?_ ?_)
      · simp only [Bool.or_eq_true, not_or, Bool.not_eq_true] at hfd
        exact hfd.1
      · exact m1.formed_seq.trans h3.next.symm

/-! ### A record reaches the banks (R442, R443) -/

/-- The record in progress goes into either bank, or not. -/
theorem Mss.bankGrows.putNow {r : LogRecord} (hm : m.logOrdered) (hr : m.log.now = some r) (b other : KMap LogRecord)
    (c : Prop) [Decidable c] : m.bankGrows b other (if c then kset LogRecord.blank b r.seq r else b) := by
  obtain ⟨-, hfull, hseq⟩ := hm.2 r hr
  split
  · rw [hseq]
    exact .put b other hfull (.inr hr)
  · exact .refl ..

/-- The record in progress ends: each bank takes it or not. -/
theorem Mss.nextStands.putNow {r : LogRecord} (hm : m.logOrdered) (hr : m.log.now = some r) (c0 c1 : Prop) [Decidable c0]
    [Decidable c1] : m.nextStands (m.onLog fun l => { l with
      now := none, bank0 := if c0 then kset LogRecord.blank l.bank0 r.seq r else l.bank0,
      bank1 := if c1 then kset LogRecord.blank l.bank1 r.seq r else l.bank1 }) :=
  ⟨rfl, rfl, .putNow hm hr _ _ c0, .putNow hm hr _ _ c1, .inl rfl, .of_regs rfl⟩

/-- BUSY may be written once no record is in progress. -/
theorem Mss.nextStands.wrBusy (h : m.nextStands n) (hn : n.log.now = none) (v : Nat) : m.nextStands (n.wr LOG_STAT_BUSY v) :=
  h.trans ⟨RegMap.get_put_ne _ _ (by decide), Mss.is_wr_off _ _ rfl, .refl .., .refl .., .inl hn,
    (Mss.latchesKept.refl n).wr _ _ (by decide)⟩

theorem Mss.written_logGrows (hm : m.logOrdered) (fail0 fail1 : Bool) : m.logGrows (m.written fail0 fail1) := by
  unfold Mss.written
  split
  · exact (Mss.logKept.refl m).logGrows hm
  · rename_i r hr
    extract_lets put0 put1 m1 m2 m3 m4
    have h1 : m.nextStands m1 := .putNow hm hr _ _
    have k2 : m1.logKept m2 := .ite _ (.refl m1) ((Mss.logKept.refl m1).lifeAdd 1023 1)
    have hn2 : m2.log.now = none := k2.now
    have g3 : m.logGrows m3 := ((h1.trans k2.nextStands).wrBusy hn2 0).trans_logGrows (Mss.advance_logGrows hn2)
    have k4 : m3.logKept m4 := .ite _ ((Mss.logKept.refl m3).retire 0 1) (.refl m3)
    exact g3.trans_logKept (.ite _ (k4.retire 1 1) k4)

/-! ### The management rail fails (R443) -/

/-- A record in progress has reached a bank in service, or not. -/
theorem Mss.bankGrows.cut (hm : m.logOrdered) (b other : KMap LogRecord) (c : Prop) [Decidable c] :
    m.bankGrows b other (if c then b else match m.log.now with
      | some r => kset LogRecord.blank b r.seq r
      | none => b) := by
  split
  · exact .refl ..
  · split
    · rename_i r hr
      exact Mss.bankGrows.putNow hm hr b other True
    · exact .refl ..

theorem Mss.powerDown_nextStands (hm : m.logOrdered) : m.nextStands m.powerDown := by
  unfold Mss.powerDown
  split
  · exact (Mss.logKept.refl m).nextStands
  · exact ⟨rfl, rfl, .cut hm _ _ _, .cut hm _ _ _, .inl rfl, .of_regs rfl⟩

theorem Mss.powerDown_logGrows (hm : m.logOrdered) : m.logGrows m.powerDown :=
  (Mss.powerDown_nextStands hm).logGrows hm

/-! ### The recovery at power-on (R443, R492) -/

/-- Registers copied by address read as in their source, the others as before. -/
theorem word_copyRegs (src : RegMap) (a : Nat) : ∀ (l : List Nat) (r : RegMap),
    (copyRegs src l r).word a = if a ∈ l then src.word a else r.word a
  | [], r => by simp [copyRegs]
  | b :: l, r => by
    rw [copyRegs, word_copyRegs src a l]
    by_cases hb : a = b
    · subst hb; simp
    · simp [hb, RegMap.word_setWord_ne _ _ hb]

/-- The log's registers outlive the supply (R437, R449). -/
theorem get_copyRegs_mssKept (src r : RegMap) {f : Fld} (hf : f.ofLog) : (copyRegs src mssKept r).get f = src.get f := by
  have hmem : f.addr ∈ mssKept := by
    rcases hf with hf | ⟨i, hi, rfl⟩
    · have hstat : ∀ f ∈ LOG_NEXT_SEQ :: LOG_STAT_BUSY :: latchFlds,
          f.addr ∈ [LOG_NEXT, KEY_STAT, KEY_LEAF, KEY_ROLLBACK, LOG_STAT] := by decide
      exact List.mem_append_left _ (hstat f hf)
    · exact List.mem_append_right _ (List.mem_map_of_mem (List.mem_range.2 hi))
  rw [RegMap.get, word_copyRegs, if_pos hmem, RegMap.get]

/-- One bank's part of the recovery: the slot at LOG_NEXT takes a good copy of either bank, or is cleared. -/
theorem Mss.bankGrows.recover (b other : KMap LogRecord) {r : LogRecord} (hf : m.is LOG_STAT_FULL = false)
    (hr : r ∈ [kget LogRecord.blank b (m.rd LOG_NEXT_SEQ), kget LogRecord.blank other (m.rd LOG_NEXT_SEQ), LogRecord.blank])
    (c : Prop) [Decidable c] : m.bankGrows b other (if c then b else kset LogRecord.blank b (m.rd LOG_NEXT_SEQ) r) := by
  split
  · exact .refl ..
  · exact .put b other hf (.inl hr)

theorem Mss.recoverLog_logGrows (hm : m.logOrdered) (hn : m.log.now = none) : m.logGrows m.recoverLog := by
  unfold Mss.recoverLog
  extract_lets slot ok r? r m1
  split
  · exact (Mss.logKept.refl m).logGrows hm
  · rename_i hopen
    simp only [not_or, Bool.not_eq_true] at hopen
    obtain ⟨-, hfull, -⟩ := hopen
    have hr : r = kget LogRecord.blank m.log.bank0 slot ∨ r = kget LogRecord.blank m.log.bank1 slot ∨ r = LogRecord.blank := by
      simp only [r, r?]
      split
      · exact .inl rfl
      · split
        · exact .inr (.inl rfl)
        · exact .inr (.inr rfl)
    have h1 : m.nextStands m1 :=
      ⟨rfl, rfl, .recover _ _ hfull (by simpa using hr) _, .recover _ _ hfull (by simpa using by tauto) _, .inl hn, .of_regs rfl⟩
    split
    · exact h1.trans_logGrows (Mss.advance_logGrows hn)
    · exact h1.logGrows hm

/-- What the management subsystem starts from at power-on: no record is in progress, the log's registers and banks are
those that it kept. -/
theorem Mss.nextStands.of_kept (hr : ∀ f : Fld, f.ofLog → n.rd f = m.rd f) (h0 : n.log.bank0 = m.log.bank0)
    (h1 : n.log.bank1 = m.log.bank1) (hn : n.log.now = none) : m.nextStands n :=
  (Mss.logKept.of_flds (n := n.onLog fun l => { l with now := m.log.now }) h0 h1 rfl hr).nextStands.trans
    ⟨rfl, rfl, .refl .., .refl .., .inl hn, .of_regs rfl⟩

theorem Mss.powerOn_logGrows (hm : m.logOrdered) (readOk vsupM : Bool) : m.logGrows (m.powerOn readOk vsupM) := by
  unfold Mss.powerOn
  extract_lets imageOk regs key0 key upd0 m1 m2 m3 m4 m5 m6
  have hregs : ∀ f : Fld, f.ofLog → regs.get f = m.regs.get f := fun f hf => get_copyRegs_mssKept _ _ hf
  clear_value regs
  have h1 : m.nextStands m1 := .of_kept hregs rfl rfl rfl
  have k2 : (m1.wr LOG_STAT_BUSY 0).logKept m2 := Mss.logKept.showId (.showKeys (.wr (.refl _) _ _ rfl))
  have h2 : m.nextStands m2 := (h1.wrBusy rfl 0).trans k2.nextStands
  have g3 : m.logGrows m3 := h2.trans_logGrows (Mss.recoverLog_logGrows (h2.ordered hm) k2.now)
  split
  · have k4 : m3.logKept m4 := (Mss.logKept.refl m3).loadImage
    have k5 : m3.logKept m5 := .ite _ k4 (k4.commit _)
    have k6 : m3.logKept m6 := k5.armStep.record _ _ _
    clear_value m6
    exact g3.trans_logKept (k6.of_parts rfl rfl rfl rfl)
  · exact g3

end Sys2Proof.Machine
end

section
/-! PROOF. The operations of the machine that leave the event log: those of the channels and links, of keys and updates,
of the debug ports and of the mailbox. -/

namespace Sys2Proof.Machine

variable {s t u : State}

/-- The log stands through an operation of the machine. -/
def State.logKept (s t : State) : Prop := s.mss.logKept t.mss

theorem State.logKept.refl (s : State) : s.logKept s := Mss.logKept.refl _

theorem State.logKept.ite (c : Prop) [Decidable c] (h : s.logKept t) (k : s.logKept u) : s.logKept (if c then t else u) := by
  split <;> assumption

/-- An operation of the machine that leaves the management subsystem leaves its log. -/
theorem State.logKept.of_mss (h : s.logKept t) (e : u.mss = t.mss) : s.logKept u := by rwa [State.logKept, e]

theorem State.logKept.setChan (h : s.logKept t) (ch : Chan) (x : Channel) : s.logKept (t.setChan ch x) :=
  h.of_mss (State.mss_setChan t ch x)

theorem State.logKept.on (h : s.logKept t) (ch : Chan) (f : Channel → Channel) : s.logKept (t.on ch f) := h.setChan ch _

theorem State.logKept.onLive (h : s.logKept t) (ch : Chan) (f : Channel → Channel) : s.logKept (t.onLive ch f) := h.on ch _

/-- A change of the management subsystem that leaves the log. -/
theorem State.logKept.onMss {f : Mss → Mss} (h : s.logKept t) (hf : ∀ {n : Mss}, s.mss.logKept n → s.mss.logKept (f n)) :
    s.logKept (t.onMss f) := hf h

theorem State.logKept.onIf (h : s.logKept t) (c : Prop) [Decidable c] (ch : Chan) (f : Channel → Channel) :
    s.logKept (if c then t.on ch f else t) := .ite c (h.on ch f) h

theorem State.logKept.onMssIf {f : Mss → Mss} (h : s.logKept t) (c : Prop) [Decidable c]
    (hf : ∀ {n : Mss}, s.mss.logKept n → s.mss.logKept (f n)) : s.logKept (if c then t.onMss f else t) := .ite c (h.onMss hf) h

/-! ### Links, heartbeats and power -/

theorem State.logKept.showLost (h : s.logKept t) : s.logKept t.showLost := ((h.on _ _).on _ _).on _ _

theorem State.logKept.hearTx (h : s.logKept t) (ch : Chan) : s.logKept (t.hearTx ch) :=
  .ite _ h (((h.on _ _).on _ _).on _ _)

theorem State.logKept.closePorts (h : s.logKept t) (all : Bool) : s.logKept (t.closePorts all) :=
  .onMssIf (.onIf (.onIf (.onIf h _ .A _) _ .B _) _ .C _) _ fun k => k.of_parts rfl rfl rfl rfl

theorem State.logKept.resetAll (h : s.logKept t) : s.logKept t.resetAll :=
  .onIf (.onIf (.onIf h _ .A _) _ .B _) _ .C _

theorem State.logKept.ackCommit (h : s.logKept t) : s.logKept t.ackCommit := ((h.onLive _ _).onLive _ _).onLive _ _

theorem State.logKept.drain (h : s.logKept t) (ch : Chan) : s.logKept (t.drain ch) := by
  unfold State.drain
  dsimp only
  split
  · exact h
  · refine .ite _ (State.logKept.onMss (h.on ch _) fun k => ?_) h
    have kp := fun c f => (k.hear c).onPort ch f
    exact Mss.logKept.of_parts (.ite _ (kp _ _) ((kp _ _).lifeAdd _ _)) rfl rfl rfl rfl

theorem State.logKept.divergeReport (h : s.logKept t) (ch : Chan) : s.logKept (t.divergeReport ch) := by
  unfold State.divergeReport
  dsimp only
  split
  · exact .ite _ (h.onMss fun k => (k.hear _).of_parts rfl rfl rfl rfl) h
  · exact h

/-- A heartbeat reaches one channel (R455). -/
theorem State.logKept.beat (h : s.logKept t) (c : Prop) [Decidable c] (ch : Chan) (f : Channel → Channel) (g : Port → Port) :
    s.logKept (if c then (t.on ch f).onMss fun m => (m.onPort ch g).showPorts else t) :=
  .ite c ((h.on ch f).onMss fun k => (k.onPort ch g).showPorts) h

theorem State.logKept.heartbeat (h : s.logKept t) : s.logKept t.heartbeat :=
  .showLost (.beat (.beat (.beat h _ .A _ _) _ .B _ _) _ .C _ _)

theorem State.logKept.offCheck (h : s.logKept t) : s.logKept t.offCheck :=
  .ite _ (h.onMss fun k => k.of_parts rfl rfl rfl rfl) h

theorem State.logKept.wake (h : s.logKept t) (w : WakeEvt) : s.logKept (t.wake w) := by
  refine .ite _ h (.ite _ ?_ (.ite _ ?_ h))
  · refine State.logKept.onMss (((h.on _ _).on _ _).on _ _) fun k => .ite _ ?_ k
    exact (k.withRung 0).record _ _ _
  · exact State.logKept.onMss (((h.on _ _).on _ _).on _ _) fun k => .ite _ (k.record _ _ _) k

/-! ### Requests of the MP (R29) -/

theorem State.logKept.reply (h : s.logKept t) (ch : Chan) (ok : Bool) (ws : List Word) : s.logKept (t.reply ch ok ws) :=
  h.onMss fun k => k.onPort _ _

theorem State.logKept.mpAsks (h : s.logKept t) (ch : Chan) (ok : Bool) (f : Channel → Channel) :
    s.logKept (t.mpAsks ch ok f) := .ite _ ((h.on _ _).reply _ _ _) h

/-! ### Keys and the update path -/

theorem State.logKept.openPorts (h : s.logKept t) (mask : Nat) : s.logKept (t.openPorts mask) :=
  .onMssIf (.onMss (.onIf (.onIf (.onIf h _ .A _) _ .B _) _ .C _) fun k => k.onKey _) _ fun k => k.of_parts rfl rfl rfl rfl

theorem State.logKept.tokenAct (h : s.logKept t) (ch : Chan) (cmd : Nat) (tk : List Byte) :
    s.logKept (t.tokenAct ch cmd tk) := by
  have refuse : ∀ slot, s.logKept (t.onMss fun m => m.keyResult ch cmd 15 0 (tkKind tk) slot) :=
    fun slot => h.onMss fun k => k.keyResult _ _ _ _ _ _
  refine .ite _ (.ite _ (refuse _) ?_) (.ite _ (.ite _ (refuse _) ?_) (.ite _ (.ite _ (refuse _) ?_)
    (.ite _ (refuse _) (.ite _ ?_ ?_))))
  · exact h.onMss fun k => k.fuseDone _ _ _ _ _
  · exact h.onMss fun k => (k.revoke _).keyResult _ _ _ _ _ _
  · exact (h.openPorts _).onMss fun k => k.keyResult _ _ _ _ _ _
  · exact State.logKept.resetAll (h.onMss fun k => k.lcChange _ _ _)
  · exact h.onMss fun k => (k.onKey _).showId

theorem State.logKept.token (h : s.logKept t) (ch : Chan) (cmd : Nat) (tk : List Byte) : s.logKept (t.token ch cmd tk) := by
  have err : ∀ e, s.logKept (t.onMss fun m => m.keyResult ch cmd e 0 (tkKind tk) 0) :=
    fun e => h.onMss fun k => k.keyResult _ _ _ _ _ _
  refine .ite _ (err _) (.ite _ (err _) (.ite _ (err _) (.ite _ (err _) ?_)))
  exact State.logKept.tokenAct (h.onMss fun k => k.useChallenge tk) _ _ _

theorem State.logKept.fuseCmd (h : s.logKept t) (ch : Chan) : s.logKept (t.fuseCmd ch) := by
  refine .ite _ (h.onMss fun k => k.fuseDone _ _ _ _ _) (.ite _ (.ite _ (h.token _ _ _) ?_) ?_)
  · exact h.onMss fun k => k.keyResult _ _ _ _ _ _
  · exact h.onMss fun k => k.keyResult _ _ _ _ _ _

theorem State.logKept.keyDone (h : s.logKept t) (ch : Chan) : s.logKept (t.keyDone ch) := by
  refine .ite _ h ?_
  split
  · exact h.onMss fun k => k.challengeDone ch
  · exact State.logKept.token (h.onMss fun k => k.onPort _ _) _ _ _
  · exact h.onMss fun k => k.attestDone ch _
  · exact h.fuseCmd ch
  · exact h.onMss fun k => k.keyResult _ _ _ _ _ _
  · exact h

theorem State.logKept.updArm (h : s.logKept t) (ch : Chan) (cmd : Nat) : s.logKept (t.updArm ch cmd) := by
  have res : ∀ e, s.logKept (t.onMss fun m => m.updResult cmd e) := fun e => h.onMss fun k => k.updResult _ _
  refine .ite _ (res _) (.ite _ (res _) (.ite _ (res _) (.ite _ (res _) (.ite _ (res _) ?_))))
  exact h.onMss fun k => Mss.logKept.onUpd (.mark (((k.wr _ _ rfl).wr _ _ rfl).wr _ _ rfl) _ _) _

theorem State.logKept.commit (h : s.logKept t) : s.logKept t.commit := by
  unfold State.commit
  split
  · have hc : ∀ i, s.logKept (t.onMss fun m => m.commit i) := fun i => h.onMss fun k => k.commit i
    refine .ite _ (hc _).ackCommit (.ite _ (.ite _ (.ite _ (hc _) h) (.ite _ ?_ h)) h)
    exact h.onMss fun k => ((k.mark _ _).activate _).onUpd _
  · exact h

end Sys2Proof.Machine
end

section
/-! PROOF. Register accesses and the debug ports leave the event log: no field of it takes a write (R445, R460). -/

namespace Sys2Proof.Machine

variable {m n : Mss} {s t : State}

/-! ### The MP's own registers (R460) -/

/-- What an address's row says of it. -/
theorem findRow_some {a : Nat} {r : RegRow} : ∀ {l : List RegRow}, findRow l a = some r →
    r ∈ l ∧ r.base ≤ a ∧ (a - r.base) / r.stride < r.count
  | [], h => by cases h
  | q :: l, h => by
    unfold findRow at h
    split at h
    · rename_i hq
      cases h
      exact ⟨.head _, hq.1, hq.2.2⟩
    · obtain ⟨hr, h⟩ := findRow_some h
      exact ⟨.tail _ hr, h⟩

/-- The row of LOG_STAT: five read-only flags (R460). -/
def rowLogStat : RegRow := ⟨LOG_STAT, 0x4, 1, [(4, 1, .ro), (3, 1, .ro), (2, 1, .ro), (1, 1, .ro), (0, 1, .ro)]⟩

/-- The rows of the log's registers are read-only: LOG_STAT's by its flags, the others whole. -/
theorem mp_row_of_logAddr {a : Nat} {r : RegRow} (hr : findRow (mpRows ++ keyRows) a = some r) (ha : logAddr a = true) :
    a = LOG_STAT ∧ r = rowLogStat ∨ r.flds = [(0, 32, .ro)] := by
  have hrows : ∀ r ∈ mpRows ++ keyRows, r.flds = [(0, 32, .ro)] ∨ r.stride = 4 ∧ (r = rowLogStat ∨
      r.base + 4 * r.count ≤ LOG_STAT ∨ LOG_NEXT < r.base ∧ r.base + 4 * r.count ≤ LOG_LIFE 0 ∨ LOG_LIFE 1024 ≤ r.base) := by
    decide
  obtain ⟨hmem, hbase, hcount⟩ := findRow_some hr
  simp only [logAddr, Bool.or_eq_true, Bool.and_eq_true, decide_eq_true_eq, beq_iff_eq, LOG_LIFE, LOG_STAT, LOG_NEXT] at ha hrows ⊢
  rcases hrows r hmem with h | ⟨hs, rfl | h⟩
  · exact .inr h
  · simp only [rowLogStat, LOG_STAT] at hbase hcount
    exact .inl ⟨by omega, rfl⟩
  · rw [hs] at hcount
    omega

/-- A write to LOG_STAT leaves each of its flags. -/
theorem RegMap.get_write_logStat (r : RegMap) (v : Nat) {f : Fld} (hf : f.ofLog) :
    (r.setWord LOG_STAT (BitVec.ofNat 32 (writeFlds false (r.word LOG_STAT).toNat v rowLogStat.flds))).get f = r.get f := by
  by_cases ha : f.addr = LOG_STAT
  · have hflag : f ∈ LOG_STAT_BUSY :: latchFlds := by
      rcases hf with hf | ⟨i, -, rfl⟩
      · rcases List.mem_cons.1 hf with rfl | hf
        · cases ha
        · exact hf
      · simp only [LOG_LIFE, LOG_STAT] at ha; omega
    simp only [latchFlds, List.mem_cons, List.not_mem_nil, or_false] at hflag
    rcases hflag with rfl | rfl | rfl | rfl | rfl <;>
    · simp [RegMap.get, writeFlds, rowLogStat]
      omega
  · exact RegMap.get_setWord_ne _ _ ha

/-- A write to a read-only word leaves the register file as it reads. -/
theorem RegMap.get_write_ro (r : RegMap) (a v : Nat) (f : Fld) :
    (r.setWord a (BitVec.ofNat 32 (writeFlds false (r.word a).toNat v [(0, 32, .ro)]))).get f = r.get f := by
  have hw : BitVec.ofNat 32 (writeFlds false (r.word a).toNat v [(0, 32, .ro)]) = r.word a := by
    simp [writeFlds, Nat.mod_eq_of_lt (r.word a).isLt]
  rw [hw]
  by_cases ha : f.addr = a
  · rw [RegMap.get, RegMap.get, ha, RegMap.word_setWord_self]
  · exact RegMap.get_setWord_ne _ _ ha

/-- A write by the access types of a register of the MP leaves the log. -/
theorem Mss.logKept.plainWrite (h : m.logKept n) (a : Nat) (v : Word) {r : RegRow}
    (hr : findRow (mpRows ++ keyRows) a = some r) : m.logKept { n with
      regs := n.regs.setWord a (BitVec.ofNat 32 (writeFlds false (n.regs.word a).toNat v.toNat r.flds)) } := by
  by_cases ha : logAddr a = true
  · rcases mp_row_of_logAddr hr ha with ⟨rfl, rfl⟩ | hf
    · exact h.trans (.of_flds rfl rfl rfl fun f hf => RegMap.get_write_logStat _ _ hf)
    · rw [hf]
      exact h.trans (.of_flds rfl rfl rfl fun f _ => RegMap.get_write_ro _ _ _ f)
  · exact h.setWord a _ (by simpa using ha)

/-! ### The mailbox -/

theorem State.logKept.keyWrite (h : s.logKept t) (ch : Chan) (a : Nat) (v : Word) : s.logKept (t.keyWrite ch a v) := by
  have start : ∀ cmd, s.logKept (if t.served ch then t.onMss fun m => m.keyStart ch cmd else t) :=
    fun cmd => h.onMssIf _ fun k => k.keyStart ch cmd
  refine .ite _ ?_ (.ite _ (h.onMss fun k => k.onPort _ _) (.ite _ (h.onMss fun k => k.onPort _ _) h))
  split
  · exact start 1
  · exact start 2
  · exact start 3
  · exact start 4
  · exact start 5
  · exact h

theorem State.logKept.updWrite (h : s.logKept t) (ch : Chan) (a : Nat) (v : Word) : s.logKept (t.updWrite ch a v) := by
  unfold State.updWrite
  split
  · dsimp only
    split
    · exact h.onMssIf _ fun k => k.updOpen ch
    · exact h.onMssIf _ fun k => k.updBlock ch _
    · exact h.onMssIf _ fun k => k.updVerify ch
    · exact .ite _ (h.updArm ch 4) h
    · exact .ite _ (h.updArm ch 5) h
    · exact h.onMssIf _ fun k => k.updDiscard ch
    · exact h
  · split
    · rename_i ha
      refine h.onMss fun k => .ite _ (k.setWord a v ?_) (k.updResult _ _)
      rcases ha with rfl | rfl <;> rfl
    · exact h

theorem State.logKept.mailboxWrite (h : s.logKept t) (ch : Chan) (off : Nat) (v : Word) :
    s.logKept (t.mailboxWrite ch off v) := by
  have ok : s.logKept (t.on ch fun c => { c with bus := .ok 0 }) := h.on _ _
  have bad : s.logKept (t.on ch fun c => { c with bus := .error }) := h.on _ _
  refine .ite _ bad (.ite _ (ok.on _ _) (.ite _ (ok.onLive _ _) (.ite _ ?_ (.ite _ ?_ (.ite _ ok
    (.ite _ (.ite _ (ok.keyWrite _ _ _) ok) (.ite _ (.ite _ (ok.updWrite _ _ _) ok) (.ite _ ?_ (.ite _ ?_ bad)))))))))
  · exact .ite _ (ok.onMss fun k => k.onPort _ _) ok
  · unfold execLogReadRequest Out.state
    exact ok.onMss fun k => .ite _ (k.onPort _ _) k
  · exact .ite _ ok (ok.onMss fun k => .ite _ (k.onUpd _) (k.updResult _ _))
  · exact .ite _ (ok.onMss fun k => k.onPort _ _) ok

/-! ### The pair and the engines -/

theorem State.logKept.herdReq (h : s.logKept t) (u : State) (ch : Chan) (v : Nat) : s.logKept (Out.state u (herdReq ch v t)) := by
  unfold Machine.herdReq
  dsimp only
  split
  · exact (h.onLive ch _).onLive ch _
  · exact (h.onLive ch _).onLive ch _
  · exact (h.onLive ch _).onLive ch _
  · exact h.onLive ch _

theorem State.logKept.modeReq (h : s.logKept t) (u : State) (ch : Chan) (req : Nat) :
    s.logKept (Out.state u (modeReq ch req t)) := by
  unfold Machine.modeReq
  split
  · exact h.onLive ch _
  · exact h.onLive ch _
  · exact h.onLive ch _
  · exact h.onLive ch _
  · exact h

theorem State.logKept.powerReq (h : s.logKept t) (u : State) (ch : Chan) (v : Nat) :
    s.logKept (Out.state u (powerReq ch v t)) := by
  unfold Machine.powerReq
  split
  · exact h.onLive ch _
  · exact h.onLive ch _
  · exact h

/-- A write to a block window acts on its channel: the registers that act are requests of a command each (R10, R11). -/
theorem State.logKept.blockWrite (h : s.logKept t) (ch : Chan) (a : Nat) (v : Word) : s.logKept (t.blockWrite ch a v) := by
  unfold State.blockWrite
  dsimp only
  refine .ite _ (h.setChan ch _) (.ite _ (h.setChan ch _) ?_)
  split
  · exact h.setChan ch _
  · rename_i r _
    have hp : s.logKept (t.setChan ch ((t.chan ch).plainWrite a r v)) := h.setChan ch _
    have hok : s.logKept (t.setChan ch { t.chan ch with bus := .ok 0 }) := h.setChan ch _
    have live := fun f => hok.onLive ch f
    refine .ite _ (hok.setChan ch _) (.ite _ (hp.on ch _) (.ite _ (hp.modeReq _ ch _) (.ite _ (h.setChan ch _)
      (.ite _ (live _) (.ite _ (live _) (.ite _ (hok.on ch _) (.ite _ (hp.on ch _) (.ite _ (hok.on ch _)
      (.ite _ (hp.herdReq _ ch _) (.ite _ ((hok.setChan ch _).onLive ch _) (.ite _ (live _) (.ite _ (live _)
      (.ite _ (live _) (.ite _ (live _) (.ite _ (live _) (.ite _ (.ite _ (live _) hok) (.ite _ (live _)
      (.ite _ (h.onLive ch _) (.ite _ (h.onLive ch _) (.ite _ (.ite _ (h.onLive ch _) hok)
      (.ite _ ?_ (.ite _ (hp.powerReq _ ch _) hp))))))))))))))))))))))
    exact (h.onLive ch _).hearTx ch

theorem State.logKept.pairWrite (h : s.logKept t) (ch : Chan) (a : Nat) (v : Word) (z : AccSize) :
    s.logKept (t.pairWrite ch a v z) := by
  unfold State.pairWrite
  split
  · exact h.on ch _
  · exact .ite _ (h.on ch _) (.ite _ (h.mailboxWrite ch _ v) (h.blockWrite ch a v))

theorem State.logKept.engineWrite (h : s.logKept t) (ch : Chan) (ag : Agent) (a : Nat) (v : Word) (z : AccSize) :
    s.logKept (t.engineWrite ch ag a v z) := by
  unfold State.engineWrite
  dsimp only
  split
  · exact h.on ch _
  · refine .ite _ (h.on ch _) (.ite _ (h.on ch _) ?_)
    split
    · exact .ite _ (h.blockWrite ch _ v) (h.on ch _)
    · exact h.on ch _

/-! ### The debug ports (R509, R511, R519) -/

theorem State.logKept.onDbg (h : s.logKept t) (p : DbgPort) (f : Dbg → Dbg) : s.logKept (t.onDbg p f) := by
  cases p with
  | ch c => exact h.on c _
  | mss => exact h.onMss fun k => k.of_parts rfl rfl rfl rfl

theorem State.logKept.haltReq (h : s.logKept t) (p : DbgPort) (hart : Nat) (hold : Bool) : s.logKept (t.haltReq p hart hold) := by
  refine .ite _ h ?_
  cases p with
  | ch c => exact h.on c _
  | mss => exact h.onMssIf _ fun k => k.of_parts rfl rfl rfl rfl

theorem State.logKept.resumeHart (h : s.logKept t) (p : DbgPort) (hart : Nat) (step : Bool) :
    s.logKept (t.resumeHart p hart step) := by
  have hd := fun f => h.onDbg p f
  refine .ite _ h (.ite _ (hd _) ?_)
  cases p with
  | ch c => exact (hd _).on c _
  | mss => exact (hd _).onMss fun k => k.of_parts rfl rfl rfl rfl

theorem State.logKept.sbFail (h : s.logKept t) (ch : Chan) (e : Nat) : s.logKept (t.sbFail ch e) := h.onDbg _ _

theorem State.logKept.sysBus (h : s.logKept t) (ch : Chan) (a : Nat) (wr : Option Word) (size : AccSize) :
    s.logKept (t.sysBus ch a wr size) := by
  refine .ite _ h (.ite _ (h.sbFail _ _) (.ite _ (h.sbFail _ _) ?_))
  split
  · have hw := fun v f => (h.pairWrite ch a v .word).on ch f
    exact .ite _ (h.sbFail _ _) (.ite _ ((hw _ _).sbFail _ _) (hw _ _))
  · split
    · exact h.sbFail _ _
    · exact State.logKept.onDbg (.onIf h _ ch _) _ _

theorem State.logKept.drawWord (h : s.logKept t) (p : DbgPort) : s.logKept (t.drawWord p).2 := by
  cases p with
  | ch c => exact h.setChan c _
  | mss => exact Mss.logKept.draw h (2 ^ 32)

theorem State.logKept.hartReg (h : s.logKept t) (p : DbgPort) (hart r : Nat) : s.logKept (t.hartReg p hart r).2 := by
  unfold State.hartReg
  dsimp only
  split_ifs
  · exact h
  · exact h
  · exact h
  · exact h
  · exact h
  · split
    · exact h
    · exact (h.drawWord p).onDbg p _

theorem State.logKept.abstractCmd (h : s.logKept t) (p : DbgPort) (v : Word) : s.logKept (t.abstractCmd p v) := by
  have hd := fun f => h.onDbg p f
  exact .ite _ h (.ite _ (hd _) (.ite _ (hd _) (.ite _ h (.ite _ (hd _) ((h.hartReg p _ _).onDbg p _)))))

theorem State.logKept.dmiBus (h : s.logKept t) (p : DbgPort) (wr : Option Word) : s.logKept (t.dmiBus p wr) := by
  cases p with
  | mss => exact h
  | ch c =>
    have hb : ∀ (big : Bool) a size, s.logKept (if big then t.sbFail c 4 else t.sysBus c a wr size) :=
      fun _ a size => .ite _ (h.sbFail c 4) (h.sysBus c a wr size)
    exact .ite _ ((hb _ _ _).onDbg _ _) (hb _ _ _)

theorem State.logKept.dmcontrol (h : s.logKept t) (p : DbgPort) (v : Word) : s.logKept (t.dmcontrol p v) := by
  have hd := fun f => h.onDbg p f
  refine .ite _ ?_ (.ite _ (hd _) (.ite _ ?_ ((hd _).haltReq p _ _)))
  · cases p with
    | ch c => exact (hd _).on c _
    | mss => exact hd _
  · exact (((hd _).haltReq p _ _).onDbg p _).resumeHart p _ _

theorem State.logKept.dmiWrite (h : s.logKept t) (p : DbgPort) (a : Nat) (v : Word) : s.logKept (t.dmiWrite p a v) := by
  have hd := fun f => h.onDbg p f
  exact .ite _ (h.dmcontrol p v) (.ite _ h (.ite _ (hd _) (.ite _ (hd _) (.ite _ (h.abstractCmd p v)
    (.ite _ ((hd _).onDbg p _) (.ite _ (.ite _ ((hd _).dmiBus p _) (hd _)) (.ite _ ((hd _).dmiBus p _) h)))))))

theorem State.logKept.dmi (h : s.logKept t) (p : DbgPort) (op : DmiOp) (a : Nat) (v : Word) : s.logKept (t.dmi p op a v) := by
  have hd := fun f => h.onDbg p f
  cases op with
  | nop => exact hd _
  | read => exact .ite _ ((hd _).dmiBus p _) (hd _)
  | write => exact (h.dmiWrite p a v).onDbg p _

end Sys2Proof.Machine
end

section
/-! PROOF. Every command of the table against the event log (R445), and the statement over a step. -/

namespace Sys2Proof.Machine

variable {s t u : State}

/-- What R445 asks of a step of the machine. -/
def State.logGrows (s t : State) : Prop := s.mss.logGrows t.mss

theorem State.logKept.logGrows (h : s.logKept t) (hm : s.mss.logOrdered) : s.logGrows t := Mss.logKept.logGrows h hm

theorem State.logGrows.ite (c : Prop) [Decidable c] (h : s.logGrows t) (k : s.logGrows u) : s.logGrows (if c then t else u) := by
  split <;> assumption

theorem State.logGrows.trans_logKept (h : s.logGrows t) (k : t.logKept u) : s.logGrows u := Mss.logGrows.trans_logKept h k

/-- An operation on the log of a machine whose log has stood so far. -/
theorem State.logKept.trans_logGrows (h : s.logKept t) (hm : s.mss.logOrdered)
    (k : t.mss.logOrdered → t.logGrows u) : s.logGrows u :=
  h.nextStands.trans_logGrows (k (h.nextStands.ordered hm))

/-- A change of the management subsystem alone, where it is made. -/
theorem State.logGrows.onMssIf {f : Mss → Mss} (c : Mss → Bool) (hm : s.mss.logOrdered) (hf : s.mss.logGrows (f s.mss)) :
    s.logGrows (s.onMss fun m => if c m then f m else m) := by
  show s.mss.logGrows (if c s.mss then f s.mss else s.mss)
  split
  · exact hf
  · exact (Mss.logKept.refl _).logGrows hm

/-! ### The commands that write the log -/

theorem State.logGo_logGrows (hm : s.mss.logOrdered) : s.logGrows (s.onMss fun m => if m.mpRuns then m.go else m) :=
  .onMssIf Mss.mpRuns hm (Mss.go_logGrows hm)

/-- A supply has gone (R17, R73). -/
theorem State.railCheck_logGrows (hm : s.mss.logOrdered) : s.logGrows s.railCheck := by
  refine .ite _ ((State.logKept.refl s).offCheck.logGrows hm) ?_
  have hdown : s.logGrows (s.onMss Mss.powerDown) := Mss.powerDown_logGrows hm
  exact hdown.trans_logKept (State.logKept.refl _).showLost

theorem State.logKept.railCheck_logGrows (h : s.logKept t) (hm : s.mss.logOrdered) : s.logGrows t.railCheck :=
  h.trans_logGrows hm State.railCheck_logGrows

/-- A store of the MP: to LOG_GO it forms a record, elsewhere it leaves the log (R460). -/
theorem State.mpWrite_logGrows (hm : s.mss.logOrdered) (a : Nat) (v : Word) (z : AccSize) : s.logGrows (s.mpWrite a v z) := by
  have h := State.logKept.refl s
  have bad : s.logKept (s.onMss fun m => { m with bus := .error }) := h.onMss fun k => k.of_parts rfl rfl rfl rfl
  unfold State.mpWrite
  dsimp only
  refine .ite _ (h.logGrows hm) (.ite _ ?_ (.ite _ (bad.logGrows hm) ?_))
  · exact State.logKept.logGrows (h.onMss fun k => k.of_parts rfl rfl rfl rfl) hm
  · split
    · exact bad.logGrows hm
    · rename_i r hr
      have ok : s.logKept (s.onMss fun m => { m with bus := .ok 0 }) := h.onMss fun k => k.of_parts rfl rfl rfl rfl
      have put := State.logKept.onMss ok fun k => k.plainWrite a v hr
      refine .ite _ (.ite _ ?_ (ok.logGrows hm)) (.ite _ ?_ (.ite _ (.ite _ ?_ (ok.logGrows hm))
        (.ite _ ?_ (put.logGrows hm))))
      · exact State.logKept.logGrows (.ite _ (State.logKept.heartbeat (ok.onMss fun k => k.onSup _)) ok) hm
      · unfold execCalendarUpdate Out.state
        exact State.logKept.logGrows (ok.onMss fun k => .ite _ (k.calendar _) k) hm
      · exact ok.trans_logGrows hm State.logGo_logGrows
      · exact State.logKept.logGrows (put.onMss fun k => k.of_parts rfl rfl rfl rfl) hm

/-! ### Commands of several parts that leave the log -/

/-- The command answers a next state, in which the log stands. -/
def Out.logKept (s : State) (o : Out) : Prop := ∃ t, o = .next t ∧ s.logKept t

/-- The command answers a next state, to which the log has grown as R445 asks. -/
def Out.logGrows (s : State) (o : Out) : Prop := ∃ t, o = .next t ∧ s.logGrows t

theorem Out.logKept.next (h : s.logKept t) : Out.logKept s (.next t) := ⟨t, rfl, h⟩

theorem Out.logKept.ite {o o' : Out} (c : Prop) [Decidable c] (h : Out.logKept s o) (k : Out.logKept s o') :
    Out.logKept s (if c then o else o') := by
  split <;> assumption

theorem Out.logKept.logGrows {o : Out} (h : Out.logKept s o) (hm : s.mss.logOrdered) : Out.logGrows s o := by
  obtain ⟨t, e, k⟩ := h
  exact ⟨t, e, k.logGrows hm⟩

theorem execPeerWindowRead_logKept (ch : Chan) (addr : SizedAddr) (s : State) :
    Out.logKept s (execPeerWindowRead ch addr s) := by
  have h := State.logKept.refl s
  refine .ite _ (.next h) (.ite _ (.next (h.on ch _)) ?_)
  split
  · exact .ite _ (.next ((h.on _ _).on ch _)) (.next (h.on ch _))
  · exact .next (h.on ch _)

theorem execPeerWindowReadServed_logKept (ch : Chan) (requester : Packet Chan) (s : State) :
    Out.logKept s (execPeerWindowReadServed ch requester s) := by
  unfold execPeerWindowReadServed
  split
  · exact .next ((State.logKept.refl s).onLive ch _)
  · exact .next (.refl s)

theorem execPeerReadReply_logKept (dst : Packet Chan) (s : State) : Out.logKept s (execPeerReadReply dst s) := by
  have h := State.logKept.refl s
  refine .ite _ (.next (h.onLive _ _)) ?_
  split
  · split
    · exact .next ((h.on _ _).onLive _ _)
    · exact .next h
  · exact .next h

theorem execVoiceTxStart_logKept (ch : Chan) (s : State) : Out.logKept s (execVoiceTxStart ch s) := by
  have h := State.logKept.refl s
  exact .ite _ (.next ((((h.on ch _).on _ _).on _ _).on _ _)) (.next h)

theorem execTimeDateReceived_logKept (ch : Chan) (f : CanFrame) (s : State) :
    Out.logKept s (execTimeDateReceived ch f s) := by
  have hrx := fun g => (State.logKept.refl s).onLive ch g
  refine .ite _ (.next (.refl s)) ?_
  split
  · exact .next (.onMssIf (hrx _) _ fun k => k.calendar _)
  · exact .next (hrx _)

/-- A sample set has one value for each of the 25 sensors (R434). -/
theorem execSensorSample_logKept (samples : SensorSet) (back : BitVec 25) (s : State) :
    Out.logKept s (execSensorSample samples back s) := by
  refine .next ((State.logKept.refl s).onMss fun k => ?_)
  split
  · rename_i hlen
    simp only [Bool.and_eq_true, beq_iff_eq] at hlen
    exact (Mss.logKept.senseAll back samples 0 (by omega) k).onSup _
  · exact k

theorem execManagementLinkDown_logKept (ch : Chan) (s : State) : Out.logKept s (execManagementLinkDown ch s) := by
  refine .next (State.logKept.showLost (State.logKept.onMss ((State.logKept.refl s).on ch _) fun k => ?_))
  have hp := fun f => (k.onPort ch f).showPorts
  exact .ite _ ((hp _).record _ _ _) (hp _)

theorem execManagementLinkUp_logKept (ch : Chan) (s : State) : Out.logKept s (execManagementLinkUp ch s) := by
  have h := State.logKept.refl s
  refine .ite _ (.next (State.logKept.showLost (State.logKept.onMss (h.on ch _) fun k => ?_))) (.next h)
  exact ((k.onPort ch _).showPorts.hear _).record _ _ _

theorem execMssHbMiss_logKept (ch : Chan) (s : State) : Out.logKept s (execMssHbMiss ch s) := by
  have h := State.logKept.refl s
  refine .ite _ (.next (State.logKept.showLost (State.logKept.onMss (h.on ch _) fun k => ?_))) (.next h)
  exact (k.onPort ch _).showPorts.onSup _

theorem execMpRestartDone_logKept (s : State) : Out.logKept s (execMpRestartDone s) := by
  refine .next ((State.logKept.refl s).onMss fun {n} k => ?_)
  have himage : s.mss.logKept { n.loadImage with mp := true, ready := true, restart := none, bus := .idle } :=
    k.loadImage.of_parts rfl rfl rfl rfl
  split
  · exact .ite _ k (.ite _ (himage.errPulse.record _ _ _) (k.of_parts rfl rfl rfl rfl))
  · exact k

theorem execFolioApplyDone_logKept (ch : Chan) (s : State) : Out.logKept s (execFolioApplyDone ch s) := by
  have h := State.logKept.refl s
  exact .ite _ (.next (.onMssIf (h.setChan ch _) _ fun k => k.onPort ch _)) (.next h)

theorem execVsupRise_logKept (ch : Chan) (low : Bool) (s : State) : Out.logKept s (execVsupRise ch low s) := by
  have hpcyc : s.logKept (s.onMss fun m => if m.on && (low && !s.a.pwr.up && !s.b.pwr.up && !s.c.pwr.up) then
      m.onSup fun x => { x with pcyc := satInc 24 x.pcyc } else m) :=
    (State.logKept.refl s).onMss fun k => .ite _ (k.onSup _) k
  refine .next (State.logKept.on ?_ ch _)
  exact .ite _ (State.logKept.closePorts (hpcyc.onMss fun k => k.onKey _) true) hpcyc

theorem execRungDwellEnd_logKept (region : Fin 4) (s : State) : Out.logKept s (execRungDwellEnd region s) := by
  have h := State.logKept.refl s
  refine .next ?_
  split
  · exact (h.on _ _).offCheck
  · exact h.onMss fun k => .ite _ (k.withRung _) k

theorem execParkHoldEnd_logKept (s : State) : Out.logKept s (execParkHoldEnd s) := by
  have h := State.logKept.refl s
  refine .next (.ite _ (State.logKept.onMss (((h.on _ _).on _ _).on _ _) fun k => .ite _ ?_ k) h)
  exact (k.withRung 2).onSup _

theorem execIdentityGenerated_logKept (s : State) : Out.logKept s (execIdentityGenerated s) := by
  have h := State.logKept.refl s
  refine .next (.ite _ h (.ite _ (h.onMss fun k => (k.onKey _).showId) (.ite _ ?_ h)))
  exact State.logKept.resetAll (h.onMss fun k => k.lcChange _ _ _)

/-! ### Every command -/

/-- Each command leaves the log, but the four by which it grows: LOG_GO, the end of a record's write, the loss of the
rail's last source and the power-on of the management subsystem. -/
theorem exec_logGrows (i : Instr) (hm : s.mss.logOrdered) : Out.logGrows s (exec i s) := by
  have h := State.logKept.refl s
  have kept : ∀ {t : State}, s.logKept t → Out.logGrows s (.next t) := fun k => ⟨_, rfl, k.logGrows hm⟩
  have grows : ∀ {t : State}, s.logGrows t → Out.logGrows s (.next t) := fun g => ⟨_, rfl, g⟩
  cases i
  -- the log and the supplies (R17, R442, R443, R492), and LOG_GO as a store of the MP (R460)
  case logGo => exact grows (State.logGo_logGrows hm)
  case logRecordWritten fail0 fail1 => exact grows (.onMssIf Mss.on hm (Mss.written_logGrows hm fail0 fail1))
  case mssPowerOn imageOk used =>
    have hon : s.logGrows (s.onMss fun m => m.powerOn imageOk used) := Mss.powerOn_logGrows hm imageOk used
    exact grows (.ite _ (hon.trans_logKept ((State.logKept.refl _).closePorts true)) (h.logGrows hm))
  case vsupMLoss => exact grows (State.logKept.railCheck_logGrows (h.onMss fun k => k.onSup _) hm)
  case vsupUndervoltage ch => exact grows ((h.on ch _).railCheck_logGrows hm)
  case vsupReset ch => exact grows ((h.on ch _).railCheck_logGrows hm)
  case vsupRise ch low => exact (execVsupRise_logKept ch low s).logGrows hm
  case registerWrite ch ag a v z =>
    have hdie : s.logKept (if !(s.chan ch).live then s else if ag = .pair then s.pairWrite ch a v z
        else s.engineWrite ch ag a v z) := .ite _ h (.ite _ (h.pairWrite ch a v z) (h.engineWrite ch ag a v z))
    exact grows (.ite _ (State.mpWrite_logGrows hm a v z) (hdie.logGrows hm))
  -- several channels at once (R24, R36, R114, R148, R159, R402)
  case crossLinkDown l => exact kept ((h.onLive _ _).onLive _ _)
  case crossLinkUp l => exact kept (.ite _ ((h.on _ _).on _ _) h)
  case peerWindowRead ch addr => exact (execPeerWindowRead_logKept ch addr s).logGrows hm
  case peerWindowReadServed ch requester => exact (execPeerWindowReadServed_logKept ch requester s).logGrows hm
  case peerReadReply dst => exact (execPeerReadReply_logKept dst s).logGrows hm
  case roundStart ch => exact kept ((h.onLive ch _).closePorts false)
  case commitReportRepeat ch => exact kept (.ite _ h.ackCommit h)
  case failSilentReset ch => exact kept (.ite _ ((h.divergeReport ch).on ch _) h)
  case tpTimeout ch sa da => exact kept ((h.onLive ch _).hearTx ch)
  case tpCtsReceived ch f => exact kept ((h.onLive ch _).hearTx ch)
  case bamPacketSend ch func => exact kept ((h.onLive ch _).hearTx ch)
  case canTxGo ch v => exact kept ((h.onLive ch _).hearTx ch)
  case canFrameSent ch func => exact kept ((h.onLive ch _).hearTx ch)
  case voiceTxStart ch => exact (execVoiceTxStart_logKept ch s).logGrows hm
  -- the MP's requests (R29)
  case mpStateRead ch what => exact kept (.ite _ (h.reply ch _ _) h)
  case mpPlannedAbsence ch hreq => exact kept (.ite _ ((h.on ch _).reply ch _ _) h)
  case mpFolioLoad ch src peer => exact kept (h.mpAsks ch _ _)
  case mpBlockEnable ch mask => exact kept (h.mpAsks ch _ _)
  case mpBlockReset ch mask => exact kept (h.mpAsks ch _ _)
  case mpChannelReset ch => exact kept (h.mpAsks ch _ _)
  case mpDebugAccess ch o => exact kept (h.mpAsks ch _ _)
  case mpWake ch => exact kept (.onIf h _ ch _)
  -- clocks, sensors, messages and reads of the log (R430 to R454)
  case optimeSave => exact kept (h.onMss fun k => .ite _ (k.onSup _) k)
  case calendarUpdate seconds => exact kept (h.onMss fun k => .ite _ (k.calendar _) k)
  case timeDateReceived ch f => exact (execTimeDateReceived_logKept ch f s).logGrows hm
  case sensorSample samples back => exact (execSensorSample_logKept samples back s).logGrows hm
  case envRecord => exact kept (h.onMss fun k => .ite _ k.envRecord k)
  case logQueueDrain ch => exact kept (h.drain ch)
  case managementLinkDown ch => exact (execManagementLinkDown_logKept ch s).logGrows hm
  case managementLinkUp ch => exact (execManagementLinkUp_logKept ch s).logGrows hm
  case logReadRequest ch v => exact kept (h.onMss fun k => .ite _ (k.onPort ch _) k)
  case logReadDone ch bad0 bad1 => exact kept (h.onMss fun k => .ite _ (k.readDone ch bad0 bad1) k)
  case shadowRefresh => exact kept (h.onMss fun k => .ite _ (k.of_parts rfl rfl rfl rfl) k)
  case loadFrame busy => exact kept (h.onMss fun k => .ite _ (k.loadFrame busy) k)
  -- heartbeats and resets of the MP (R455 to R458)
  case mssHbKick => exact kept (.ite _ (State.logKept.heartbeat (h.onMss fun k => k.onSup _)) h)
  case supervisorHeartbeat => exact kept (.ite _ (State.logKept.heartbeat (h.onMss fun k => k.onSup _)) h)
  case mssHbMiss ch => exact (execMssHbMiss_logKept ch s).logGrows hm
  case resetVoteEnd ch => exact kept (State.logKept.onMss (h.onLive ch _) fun k => .ite _ (k.onPort ch _).showPorts k)
  case mpVoteReset => exact kept (State.logKept.showLost (h.onMss fun k => .ite _ k.voteReset k))
  case mpWatchdogReset => exact kept (h.onMss fun k => .ite _ (k.mpReset 2) k)
  case mpRestartDone => exact (execMpRestartDone_logKept s).logGrows hm
  -- keys and the update path (R465 to R484)
  case folioApplyDone ch => exact (execFolioApplyDone_logKept ch s).logGrows hm
  case keyChallenge ch => exact kept (.onMssIf h _ fun k => k.keyStart ch 1)
  case keySubmitToken ch => exact kept (.onMssIf h _ fun k => k.keyStart ch 2)
  case keyAttest ch => exact kept (.onMssIf h _ fun k => k.keyStart ch 3)
  case keyFuseRootSlot ch => exact kept (.onMssIf h _ fun k => k.keyStart ch 4)
  case keyAppendPart ch => exact kept (.onMssIf h _ fun k => k.keyStart ch 5)
  case keyCommandDone ch => exact kept (.ite _ (h.keyDone ch) h)
  case attestCredit => exact kept (h.onMss fun k => .ite _ (k.wr _ _ rfl) k)
  case identityGenerated => exact (execIdentityGenerated_logKept s).logGrows hm
  case updOpen ch => exact kept (.onMssIf h _ fun k => k.updOpen ch)
  case updBlock ch words => exact kept (.onMssIf h _ fun k => k.updBlock ch words)
  case updVerify ch => exact kept (.onMssIf h _ fun k => k.updVerify ch)
  case updVerifyDone => exact kept (.onMssIf h _ fun k => k.verifyDone)
  case updArmRotation ch => exact kept (.ite _ (h.updArm ch 4) h)
  case updArmPowerCycle ch => exact kept (.ite _ (h.updArm ch 5) h)
  case updDiscard ch => exact kept (.onMssIf h _ fun k => k.updDiscard ch)
  case slotCopyDone ok => exact kept (h.onMss fun k => .ite _ (k.copyDone ok) k)
  case commit => exact kept (.ite _ h.commit h)
  case trialNoHerdTimeout => exact kept (.onMssIf h _ fun k => k.onUpd _)
  -- the power ladder (R500 to R503)
  case parkHoldEnd => exact (execParkHoldEnd_logKept s).logGrows hm
  case rungDwellEnd region => exact (execRungDwellEnd_logKept region s).logGrows hm
  case wake w => exact kept (h.wake w)
  -- the debug ports (R511, R514, R519)
  case dmiAccess port op addr data => exact kept (.ite _ (h.dmi port op _ data) (.ite _ (h.onDbg port _) h))
  case debugHaltRequest port hart hold => exact kept (.ite _ (h.haltReq port hart hold) h)
  case debugResume port hart step => exact kept (.ite _ (h.resumeHart port hart step) h)
  case systemBusAccess ch addr wr size => exact kept (.ite _ (h.sysBus ch addr wr size) h)
  -- two changes of one channel
  case encInputChange ch unit levels since => exact kept ((h.on ch _).on ch _)
  -- each remaining command is one change of one channel
  all_goals exact kept (h.on _ _)

/-- 40 ns without a command leave the log. -/
theorem State.tick_logKept (s : State) : s.logKept s.tick :=
  Mss.logKept.ite _ ((Mss.logKept.refl _).onSup _) (.refl _)

theorem step_logGrows (hm : s.mss.logOrdered) : Out.logGrows s (step s) := by
  unfold step
  split
  · exact ⟨_, rfl, s.tick_logKept.logGrows hm⟩
  · rename_i c rest _
    exact exec_logGrows (s := { s with pending := rest }) c hm

/-- Settles O57: each command leaves the log, or makes it grow by one record at LOG_NEXT. -/
theorem recordsAreNeverRewritten : Obligations.RecordsAreNeverRewritten := by
  intro s t hm hstep
  obtain ⟨u, hu, g⟩ := step_logGrows hm
  cases hu.symm.trans hstep
  exact ⟨g.ordered, g.bank0, g.bank1, g.next, g.latches.flags, g.latches.life⟩

end Sys2Proof.Machine
end

section
/-! PROOF. The OTP bits of a die stand (R462): the rules for a channel's accessors, and what a channel's shared
operations, its fault collector and its cores leave. A die's fuses gain bits at two places only, where the Folio loader
takes in those of the management subsystem and those of the peer that serves it (R464); every other operation of a
channel leaves them. -/

namespace Sys2Proof.Machine

/-! ### Accessors -/

variable (c : Channel)

/-- By taking the channel apart, not by `rfl`: `simp` then rewrites with it, and does not compare register files. -/
theorem Channel.otp_wr (f : Fld) (v : Nat) : (c.wr f v).otp = c.otp := by cases c; rfl

theorem Channel.otp_wrWord (a : Nat) (v : Word) : (c.wrWord a v).otp = c.otp := by cases c; rfl

theorem Channel.ite_otp (p : Prop) [Decidable p] (c d : Channel) :
    (if p then c else d).otp = if p then c.otp else d.otp := apply_ite _ _ _ _

theorem Channel.foldl_otp {α : Type} (g : Channel → α → Channel) (hg : ∀ c x, (g c x).otp = c.otp) (l : List α) :
    (l.foldl g c).otp = c.otp := by
  induction l generalizing c with
  | nil => rfl
  | cons x xs ih => exact (ih _).trans (hg c x)

theorem Channel.pow_otp {c d : Channel} (h : d.otp = c.otp) (p : Pow) : ({ d with pow := p } : Channel).otp = c.otp := h

/-! ### Registers -/

theorem Channel.flag_otp (f : Fld) (b : Bool) : (c.flag f b).otp = c.otp := by
  simp only [flag, otp_wr]

theorem Channel.sat_otp (f : Fld) : (c.sat f).otp = c.otp := by
  simp only [sat, otp_wr]

theorem Channel.inc_otp (f : Fld) : (c.inc f).otp = c.otp := by
  simp only [inc, otp_wr]

theorem Channel.wrS_otp (f : Fld) (v : Int) : (c.wrS f v).otp = c.otp := by
  simp only [wrS, otp_wr]

theorem Channel.wrSat_otp (f : Fld) (v : Int) : (c.wrSat f v).otp = c.otp := by
  simp only [wrSat, wrS_otp]

theorem Channel.setBit_otp (f : Fld) (b : Nat) (v : Bool) : (c.setBit f b v).otp = c.otp := by
  simp only [setBit, otp_wr]

theorem Channel.badCrc_otp : c.badCrc.otp = c.otp := by
  simp only [badCrc]

theorem Channel.draw_otp (n : Nat) : (c.draw n).2.otp = c.otp := by
  simp only [draw]

/-! ### Bridges (R229 to R239) -/

theorem Channel.setShort_otp (b : Bridge) (v : Bool) : (c.setShort b v).otp = c.otp := by
  unfold setShort
  split <;> simp only

theorem Channel.setGuard_otp (b : Bridge) (v : Bool) : (c.setGuard b v).otp = c.otp := by
  unfold setGuard
  split <;> simp only

theorem Channel.select_otp (b : Bridge) : (c.select b).otp = c.otp := by
  simp only [select, ite_otp, ite_self, setShort_otp]

theorem Channel.holdOv_otp (b : Bridge) : (c.holdOv b).otp = c.otp := by
  unfold holdOv
  split <;> simp only

theorem Channel.settle_otp (b : Bridge) : (c.settle b).otp = c.otp := by
  simp only [settle, otp_wr, ite_otp, ite_self, setGuard_otp]

theorem Channel.setCause_otp (b : Bridge) (n : Nat) (v : Bool) : (c.setCause b n v).otp = c.otp := by
  simp only [setCause, ite_otp, ite_self, setBit_otp, setShort_otp, holdOv_otp, settle_otp]

theorem Channel.setCauses_otp (n : Nat) (v : Bool) : (c.setCauses n v).otp = c.otp := by
  simp only [setCauses, setCause_otp]

theorem Channel.takeHeld_otp : c.takeHeld.otp = c.otp := by
  simp only [takeHeld]

theorem Channel.gdRefresh_otp : c.gdRefresh.otp = c.otp := by
  simp only [gdRefresh, flag_otp, setCause_otp]

theorem Channel.gdrAtDie_otp : c.gdrAtDie.otp = c.otp := by
  simp only [gdrAtDie, otp_wr, sat_otp, takeHeld_otp, gdRefresh_otp]

/-! ### Position feedback -/

theorem Channel.unitUp_otp (n : Nat) (g : EncUnit → EncUnit) : (c.unitUp n g).otp = c.otp := by
  simp only [unitUp]

theorem Channel.passThrough_otp : c.passThrough.otp = c.otp := by
  simp only [passThrough]

theorem Channel.latchT0_otp (x : List Nat) : (c.latchT0 x).otp = c.otp := by
  induction x generalizing c with
  | nil => rfl
  | cons b r ih => simp only [latchT0, ih, ite_otp, otp_wr, ite_self]

theorem Channel.latchUnits_otp : c.latchUnits.otp = c.otp := by
  simp only [latchUnits, wrS_otp, latchT0_otp]

/-! ### Resets (R167, R425) -/

theorem Channel.blockReset_otp (b : Nat) : (c.blockReset b).otp = c.otp := by
  simp only [blockReset, ite_otp, ite_self, setBit_otp, passThrough_otp]

theorem Channel.reset_otp (cause src : Nat) : (c.reset cause src).otp = c.otp := by
  simp only [reset, otp_wr, ite_otp, ite_self, sat_otp, setCauses_otp]

theorem Channel.repower_otp : c.repower.otp = c.otp := by
  simp only [repower]

/-! ### The fault collector (R405 to R424) -/

theorem Channel.setSrc_otp (f : Nat → Fld) (src : Nat) (v : Bool) : (c.setSrc f src v).otp = c.otp := by
  simp only [setSrc, setBit_otp]

theorem Channel.pushMsg_otp (m : LogMsg) : (c.pushMsg m).otp = c.otp := by
  simp only [pushMsg, otp_wr]

theorem Channel.stampLast_otp (src set : Nat) (sevt inj : Bool) : (c.stampLast src set sevt inj).otp = c.otp := by
  simp only [stampLast, otp_wr, flag_otp, draw_otp]

theorem Channel.chopFailed_otp : c.chopFailed.otp = c.otp := by
  simp only [chopFailed, otp_wr]

theorem Channel.becomeSevere_otp (src : Nat) : (c.becomeSevere src).otp = c.otp := by
  simp only [becomeSevere, otp_wr, ite_otp, ite_self, setCause_otp, gdRefresh_otp, setSrc_otp, chopFailed_otp]

theorem Channel.countEvent_otp (src : Nat) : (c.countEvent src).1.otp = c.otp := by
  simp only [countEvent, ite_otp, ite_self, sat_otp, setSrc_otp, stampLast_otp, becomeSevere_otp]

theorem Channel.dropMsg_otp : c.dropMsg.otp = c.otp := by
  simp only [dropMsg, sat_otp]

theorem Channel.logqDrop_otp : c.logqDrop.1.otp = c.otp := by
  simp only [logqDrop, otp_wr, ite_otp, ite_self, countEvent_otp]

theorem Channel.queueEvent_otp (src code : Nat) : (c.queueEvent src code).1.otp = c.otp := by
  unfold queueEvent
  (repeat' split) <;> simp only [pushMsg_otp, dropMsg_otp, logqDrop_otp]

theorem Channel.queueMsg_otp (src code data : Nat) : (c.queueMsg src code data).1.otp = c.otp := by
  unfold queueMsg
  split <;> simp only [pushMsg_otp, dropMsg_otp, logqDrop_otp]

theorem Channel.taggedEvent_otp (src blk : Nat) (brstx : Bool) : (c.taggedEvent src blk brstx).1.otp = c.otp := by
  unfold taggedEvent
  extract_lets set c1
  have h1 : c1.otp = c.otp := by simp only [c1, stampLast_otp, otp_wr]
  clear_value c1 set
  split
  next c2 due h =>
    split at h <;> cases h
    · exact (pushMsg_otp _ _).trans h1
    · exact (logqDrop_otp _).trans ((dropMsg_otp _).trans h1)

theorem Channel.event_otp (src blk : Nat) : (c.event src blk).1.otp = c.otp := by
  unfold event
  split
  · rfl
  · split
    · split
      · exact taggedEvent_otp _ _ _ _
      · simp only [queueEvent_otp, countEvent_otp, ite_otp, otp_wr, ite_self]
    · simp only [queueEvent_otp, countEvent_otp]

theorem Channel.events_otp (x : List (Nat × Nat)) : (c.events x).1.otp = c.otp := by
  induction x generalizing c with
  | nil => rfl
  | cons b r ih => simp only [events, ih, event_otp]

theorem Channel.errRefresh_otp : c.errRefresh.otp = c.otp := by
  simp only [errRefresh, flag_otp]

theorem Channel.epin_otp : c.epin.otp = c.otp := by
  simp only [epin, ite_otp, ite_self, sat_otp]

theorem Channel.brsts_otp (x : Due) : (c.brsts x).otp = c.otp := by
  induction x generalizing c with
  | nil => rfl
  | cons b r ih => simp only [brsts, ih, ite_otp, blockReset_otp, ite_self]

theorem Channel.nmis_otp (x : Due) : (c.nmis x).otp = c.otp := by
  induction x generalizing c with
  | nil => rfl
  | cons b r ih => simp only [nmis, ih, ite_otp, ite_self]

theorem Channel.reactAll_otp (due : Due) : (c.reactAll due).otp = c.otp := by
  simp only [reactAll, ite_otp, ite_self, epin_otp, nmis_otp]
  split <;> simp only [ite_otp, ite_self, setCauses_otp, reset_otp, errRefresh_otp, epin_otp, brsts_otp, nmis_otp]

theorem Channel.raiseAll_otp (l : List (Nat × Nat)) : (c.raiseAll l).otp = c.otp := by
  simp only [raiseAll, events_otp, reactAll_otp]

theorem Channel.raise_otp (src : Nat) : (c.raise src).otp = c.otp := by
  simp only [raise, raiseAll_otp]

theorem Channel.raiseIf_otp (p : Bool) (src : Nat) : (c.raiseIf p src).otp = c.otp := by
  simp only [raiseIf, ite_otp, ite_self, raise_otp]

theorem Channel.log_otp (src code data : Nat) : (c.log src code data).otp = c.otp := by
  simp only [log, queueMsg_otp, reactAll_otp]

theorem Channel.logUnnamed_otp (data : Nat) : (c.logUnnamed data).otp = c.otp := by
  simp only [logUnnamed, draw_otp, log_otp]

/-! ### Reset requests -/

theorem Channel.closeRun_otp (src : Nat) : (c.closeRun src).otp = c.otp := by
  simp only [closeRun]

theorem Channel.recover_otp (src : Nat) : (c.recover src).otp = c.otp := by
  simp only [recover, ite_otp, ite_self, sat_otp, setSrc_otp, queueEvent_otp, reactAll_otp]

theorem Channel.sealViolation_otp (addr : Nat) : (c.sealViolation addr).otp = c.otp := by
  simp only [sealViolation, otp_wr, ite_otp, ite_self, sat_otp, raise_otp]

theorem Channel.injFields_otp (v : Word) : (c.injFields v).otp = c.otp := by
  simp only [injFields, otp_wr]

theorem Channel.injStart_otp (v : Word) (latency : Nat) : (c.injStart v latency).otp = c.otp := by
  simp only [injStart, otp_wr, otp_wrWord, ite_otp, ite_self, raise_otp, sealViolation_otp, injFields_otp]

theorem Channel.injSample_otp (high : Bool) : (c.injSample high).otp = c.otp := by
  simp only [injSample, otp_wr, ite_otp, ite_self, raise_otp]

theorem Channel.refuse_otp : c.refuse.otp = c.otp := by
  simp only [refuse, sat_otp, raise_otp]

theorem Channel.blockResets_otp (x : List Nat) : (c.blockResets x).otp = c.otp := by
  induction x generalizing c with
  | nil => rfl
  | cons b r ih => simp only [blockResets, ih, blockReset_otp]

theorem Channel.requestBlkrst_otp (mask : Word) : (c.requestBlkrst mask).otp = c.otp := by
  simp only [requestBlkrst, ite_otp, ite_self, refuse_otp, blockResets_otp]

theorem Channel.requestChrst_otp (v : Word) : (c.requestChrst v).otp = c.otp := by
  simp only [requestChrst, ite_otp, ite_self, reset_otp, errRefresh_otp, refuse_otp]

theorem Channel.setKick_otp (eng n : Nat) : (c.setKick eng n).otp = c.otp := by
  simp only [setKick]

theorem Channel.kick_otp (eng : Nat) : (c.kick eng).otp = c.otp := by
  simp only [kick, ite_otp, ite_self, setKick_otp]

theorem Channel.setHalted_otp (hart : Nat) (h : Bool) : (c.setHalted hart h).otp = c.otp := by
  simp only [setHalted, ite_otp, ite_self, setBit_otp, setKick_otp]

theorem Channel.haltHarts_otp (mask : BitVec 5) : (c.haltHarts mask).otp = c.otp := by
  simp only [haltHarts, ite_otp, ite_self, foldl_otp, implies_true, setHalted_otp]

theorem Channel.goSilent_otp : c.goSilent.otp = c.otp := by
  simp only [goSilent, setCauses_otp, errRefresh_otp]

/-! ### The core pair and the memories -/

theorem Channel.captureCmp_otp (kind group : Nat) (pc : Word) : (c.captureCmp kind group pc).otp = c.otp := by
  simp only [captureCmp, otp_wr, otp_wrWord, sat_otp]

theorem Channel.sweepEnd_otp (kind group : Nat) : (c.sweepEnd kind group).otp = c.otp := by
  simp only [sweepEnd, otp_wr]

theorem Channel.sweepFail_otp (kind group : Nat) : (c.sweepFail kind group).otp = c.otp := by
  simp only [sweepFail, raise_otp, sweepEnd_otp]

theorem Channel.diverge_otp (kind group : Nat) (pc : Word) (src : Nat) : (c.diverge kind group pc src).otp = c.otp := by
  simp only [diverge, otp_wr, ite_otp, ite_self, raise_otp, log_otp, goSilent_otp, captureCmp_otp, sweepEnd_otp]

theorem Channel.digest_otp (lead trail : List Word) (stall : Nat) : (c.digest lead trail stall).otp = c.otp := by
  simp only [digest, otp_wr, ite_otp, ite_self, sat_otp, inc_otp, raise_otp]

theorem Channel.injTagged_otp (src : Nat) : (c.injTagged src).otp = c.otp := by
  simp only [injTagged, raise_otp]

theorem Channel.injReal_otp (kind group : Nat) : (c.injReal kind group).otp = c.otp := by
  simp only [injReal, draw_otp, raiseIf_otp, diverge_otp]

theorem Channel.cmpInject_otp (v : Word) (rep : InjReport) : (c.cmpInject v rep).otp = c.otp := by
  unfold cmpInject
  (repeat' split) <;> simp only [otp_wr, ite_otp, ite_self, draw_otp, sweepFail_otp, injTagged_otp, injReal_otp]

theorem Channel.cmpInjStart_otp (v : Word) (rep : InjReport) : (c.cmpInjStart v rep).otp = c.otp := by
  simp only [cmpInjStart, ite_otp, ite_self, sealViolation_otp, cmpInject_otp]

theorem Channel.startSweep_otp : c.startSweep.otp = c.otp := by
  simp only [startSweep, otp_wr, otp_wrWord]

theorem Channel.wiped_otp (split : Bool) (lc : Nat) : (c.wiped split lc).otp = c.otp := by
  simp only [wiped, otp_wr, ite_otp, ite_self, setCauses_otp, gdRefresh_otp, gdrAtDie_otp, blockReset_otp,
    errRefresh_otp, logUnnamed_otp, startSweep_otp]

theorem Channel.setMem_otp (m : MemId) (x : Memory) : (c.setMem m x).otp = c.otp := by
  unfold setMem
  split <;> simp only

theorem Channel.eccCe_otp (m : MemId) (a : Nat) : (c.eccCe m a).otp = c.otp := by
  simp only [eccCe, otp_wr, sat_otp, raise_otp]

theorem Channel.eccUe_otp (m : MemId) (a : Nat) : (c.eccUe m a).otp = c.otp := by
  simp only [eccUe, otp_wr, sat_otp, raise_otp]

theorem Channel.memDo_otp (m : MemId) (a : Nat) (op : MemOp) : (c.memDo m a op).otp = c.otp := by
  unfold memDo
  split <;> simp only [setMem_otp]

theorem Channel.memAccess_otp (m : MemId) (a : Nat) (op : MemOp) (ecc : Ecc) :
    (c.memAccess m a op ecc).otp = c.otp := by
  unfold memAccess
  (repeat' split) <;> simp only [eccCe_otp, eccUe_otp, memDo_otp]

end Sys2Proof.Machine
end

section
/-! PROOF. The OTP bits of a die stand (R462): the bridges, the motors and the gate drive. -/

namespace Sys2Proof.Machine

variable (c : Channel)

/-! ### Legs of the power die -/

theorem Channel.sectorTick_otp : c.sectorTick.otp = c.otp := by
  simp only [sectorTick, ite_otp, ite_self]

theorem Channel.legsTick_otp : c.legsTick.otp = c.otp := by
  simp only [legsTick]

/-! ### Placement -/

theorem Channel.allocate_otp (isTask : Bool) (id size : Nat) : (c.allocate isTask id size).otp = c.otp := by
  simp only [allocate, otp_wrWord]

theorem Channel.dropObjects_otp : c.dropObjects.otp = c.otp := by
  simp only [dropObjects, otp_wrWord, foldl_otp, implies_true]

theorem Channel.showPlace_otp (h : Herd) : (c.showPlace h).otp = c.otp := by
  simp only [showPlace, otp_wr, foldl_otp, implies_true]

/-! ### Field control of the steering motor -/

theorem Channel.f0up_otp (g : Fce0 → Fce0) : (c.f0up g).otp = c.otp := by
  simp only [f0up]

theorem Channel.setUp_otp (k : Chan) (g : SetLoop → SetLoop) : (c.setUp k g).otp = c.otp := by
  simp only [setUp]

theorem Channel.takeIqref_otp : c.takeIqref.otp = c.otp := by
  simp only [takeIqref, flag_otp]

theorem Channel.rectGuard_otp (idc : Int) : (c.rectGuard idc).otp = c.otp := by
  simp only [rectGuard, ite_otp, ite_self, sat_otp, setGuard_otp, settle_otp]

theorem Channel.xchk_otp (half : Nat) (idc iu iv : Int) : (c.xchk half idc iu iv).otp = c.otp := by
  simp only [xchk, otp_wr, ite_otp, ite_self, sat_otp, wrSat_otp, raise_otp]

theorem Channel.showDeadl_otp : c.showDeadl.otp = c.otp := by
  simp only [showDeadl, otp_wr]

theorem Channel.fawnEnd_otp : c.fawnEnd.otp = c.otp := by
  simp only [fawnEnd, otp_wr, ite_otp, ite_self, showDeadl_otp]

theorem Channel.latchT0Flags_otp : c.latchT0Flags.otp = c.otp := by
  simp only [latchT0Flags, f0up_otp]

theorem Channel.takeVlc_otp (vlc : Nat) : (c.takeVlc vlc).otp = c.otp := by
  simp only [takeVlc, otp_wr]

theorem Channel.powerValley_otp (idc : Int) : (c.powerValley idc).otp = c.otp := by
  simp only [powerValley, select_otp, settle_otp, rectGuard_otp]

theorem Channel.valleyS_otp (s : SValley) : (c.valleyS s).otp = c.otp := by
  simp only [valleyS, otp_wr, wrS_otp, latchUnits_otp, f0up_otp, takeIqref_otp, xchk_otp, fawnEnd_otp,
    latchT0Flags_otp, takeVlc_otp, powerValley_otp]

theorem Channel.convDone_otp : c.convDone.otp = c.otp := by
  unfold convDone
  split <;> simp only [f0up_otp, setUp_otp]

theorem Channel.sampleIn_otp (p : BitVec 176) (crcOk : Bool) (off : Nat) : (c.sampleIn p crcOk off).otp = c.otp := by
  unfold sampleIn
  (repeat' split) <;> simp only [sat_otp, setUp_otp]

theorem Channel.peerAlign_otp (m : BitVec 3) : (c.peerAlign m).otp = c.otp := by
  unfold peerAlign
  (repeat' split) <;> simp only [otp_wr, f0up_otp]

theorem Channel.sdl_otp (k : Chan) : (c.sdl k).otp = c.otp := by
  simp only [sdl, ite_otp, ite_self, sat_otp, setUp_otp, peerAlign_otp]

theorem Channel.encCompare_otp (m : BitVec 3) (p : BitVec 176) : (c.encCompare m p).otp = c.otp := by
  unfold encCompare
  (repeat' split) <;> simp only [ite_otp, ite_self, raise_otp, f0up_otp]

theorem Channel.showOwn_otp (o : LoopOut) (vlc : Nat) (th : Nat) (om iqc : Int) (conf : Nat) (loss : Bool) :
    (c.showOwn o vlc th om iqc conf loss).otp = c.otp := by
  simp only [showOwn, otp_wr, flag_otp, wrS_otp]

theorem Channel.showIdle_otp (vlc conf : Nat) : (c.showIdle vlc conf).otp = c.otp := by
  simp only [showIdle, otp_wr, flag_otp, wrS_otp]

theorem Channel.showCspin_otp (l : SetLoop) (p : BitVec 176) (dwell : Nat) : (c.showCspin l p dwell).otp = c.otp := by
  simp only [showCspin, otp_wr]

theorem Channel.sendTriplet_otp (k : Chan) (pseq : Nat) (l : SetLoop) (du dv dw accepted : Nat) :
    (c.sendTriplet k pseq l du dv dw accepted).otp = c.otp := by
  unfold sendTriplet
  split <;> simp only [otp_wr, ite_otp, ite_self, setUp_otp]

/-! ### One period of a winding set -/

theorem Channel.storeSrc_otp (k : Chan) (src : Nat) : (c.storeSrc k src).otp = c.otp := by
  simp only [storeSrc, otp_wr]

theorem Channel.computeSet_otp (k : Chan) (accepted : Nat) : (c.computeSet k accepted).otp = c.otp := by
  simp only [computeSet]
  (repeat' split) <;> simp only [sat_otp, raise_otp, raiseIf_otp, f0up_otp, setUp_otp, encCompare_otp, showOwn_otp,
    showIdle_otp, showCspin_otp, sendTriplet_otp, storeSrc_otp]

theorem Channel.rotorLocked_otp : c.rotorLocked.otp = c.otp := by
  simp only [rotorLocked, otp_wr, ite_otp, ite_self, f0up_otp]

/-! ### The duty vote -/

theorem Channel.putTriplet_otp (o : Chan) (t : Option (BitVec 256)) : (c.putTriplet o t).otp = c.otp := by
  unfold putTriplet
  split <;> simp only

theorem Channel.tripletIn_otp (p : BitVec 256) (crcOk : Bool) (off : Nat) : (c.tripletIn p crcOk off).otp = c.otp := by
  unfold tripletIn
  (repeat' split) <;> simp only [sat_otp, putTriplet_otp]

theorem Channel.shadowMismatch_otp : c.shadowMismatch.otp = c.otp := by
  simp only [shadowMismatch, otp_wr, ite_otp, ite_self, sat_otp, dropObjects_otp]

theorem Channel.takeEcho_otp (k : Chan) (p : BitVec 256) : (c.takeEcho k p).otp = c.otp := by
  simp only [takeEcho, ite_otp, ite_self, sat_otp, raise_otp, f0up_otp, setUp_otp, shadowMismatch_otp]

theorem Channel.countMiss_otp (m : BitVec 3) (x : List Chan) : (c.countMiss m x).otp = c.otp := by
  induction x generalizing c with
  | nil => rfl
  | cons b r ih => simp only [countMiss, ih, ite_otp, sat_otp, ite_self]

theorem Channel.showVote_otp (m pres : BitVec 3) (b : Ballot) (pseq : Nat) :
    (c.showVote m pres b pseq).otp = c.otp := by
  unfold showVote
  split <;> simp only [otp_wr, sat_otp, inc_otp]

theorem Channel.showDuties_otp (v : BitVec 240) : (c.showDuties v).otp = c.otp := by
  simp only [showDuties, otp_wr]

theorem Channel.useResult_otp (v : BitVec 240) : (c.useResult v).otp = c.otp := by
  simp only [useResult, otp_wr, ite_otp, ite_self, sat_otp, setCause_otp, showDuties_otp]

theorem Channel.holdResult_otp : c.holdResult.1.otp = c.otp := by
  simp only [holdResult, otp_wr, sat_otp]
  split <;> simp only [otp_wr, setCause_otp]

theorem Channel.voteNow_otp : c.voteNow.otp = c.otp := by
  simp only [voteNow, otp_wr, ite_otp, ite_self, sat_otp, raiseAll_otp, takeEcho_otp]
  (repeat' split) <;> simp only [sat_otp, countMiss_otp, showVote_otp, useResult_otp, holdResult_otp]

theorem Channel.maskSet_otp (old new : BitVec 3) (k : Chan) : (c.maskSet old new k).otp = c.otp := by
  simp only [maskSet, ite_otp, ite_self, setUp_otp]

theorem Channel.maskIn_otp (m : BitVec 3) (tb : Nat) : (c.maskIn m tb).otp = c.otp := by
  simp only [maskIn, maskSet_otp]

theorem Channel.takeDuty_otp (b : Bridge) : (c.takeDuty b).otp = c.otp := by
  unfold takeDuty
  (repeat' split) <;> simp only

theorem Channel.peak_otp (b : Bridge) : (c.peak b).otp = c.otp := by
  simp only [peak, otp_wr, ite_otp, ite_self, setGuard_otp, takeDuty_otp]

/-! ### The pump motor and the solenoids -/

theorem Channel.f1up_otp (g : Fce1 → Fce1) : (c.f1up g).otp = c.otp := by
  simp only [f1up]

theorem Channel.pumpDrive_otp : c.pumpDrive.otp = c.otp := by
  simp only [pumpDrive, setCause_otp, f1up_otp]

theorem Channel.pumpOpen_otp : c.pumpOpen.otp = c.otp := by
  simp only [pumpOpen, setCause_otp, f1up_otp]

theorem Channel.pumpRun_otp (preset : Int) : (c.pumpRun preset).otp = c.otp := by
  simp only [pumpRun, otp_wr, f1up_otp, pumpDrive_otp]

theorem Channel.pumpAttempt_otp (a : Nat) : (c.pumpAttempt a).otp = c.otp := by
  simp only [pumpAttempt, otp_wr, ite_otp, ite_self, f1up_otp, pumpDrive_otp, pumpRun_otp]

theorem Channel.pumpFail_otp (cause : Nat) : (c.pumpFail cause).otp = c.otp := by
  simp only [pumpFail, otp_wr, ite_otp, ite_self, raise_otp, pumpOpen_otp]

theorem Channel.pumpStop_otp : c.pumpStop.otp = c.otp := by
  simp only [pumpStop, otp_wr, setCause_otp, f1up_otp]

theorem Channel.pumpLeave_otp : c.pumpLeave.otp = c.otp := by
  simp only [pumpLeave, ite_otp, ite_self, pumpStop_otp]

theorem Channel.pumpAgain_otp : c.pumpAgain.otp = c.otp := by
  simp only [pumpAgain, ite_otp, ite_self, pumpAttempt_otp]

theorem Channel.pumpOv_otp : c.pumpOv.otp = c.otp := by
  simp only [pumpOv, otp_wr, ite_otp, ite_self, f1up_otp, pumpOpen_otp]

theorem Channel.pumpSetpt_otp (v : Word) : (c.pumpSetpt v).otp = c.otp := by
  simp only [pumpSetpt, ite_otp, ite_self, wrS_otp, f1up_otp, pumpAttempt_otp, pumpStop_otp]

theorem Channel.pumpPeriod_otp (iu iv : Int) (th : Nat) (om iqref : Int) :
    (c.pumpPeriod iu iv th om iqref).otp = c.otp := by
  simp only [pumpPeriod, otp_wr, flag_otp, wrS_otp, f1up_otp]

theorem Channel.pumpTrack_otp (iu iv : Int) : (c.pumpTrack iu iv).otp = c.otp := by
  simp only [pumpTrack, otp_wr, ite_otp, ite_self, f1up_otp, pumpOpen_otp, pumpRun_otp, pumpAttempt_otp]

theorem Channel.valleyP_otp (codeU codeV delay : Nat) : (c.valleyP codeU codeV delay).otp = c.otp := by
  unfold valleyP
  extract_lets c1 p f iu iv ib term c2 track big dirn quarter late at_
  have h2 : c2.otp = c.otp := by simp only [c2, c1, settle_otp, select_otp, otp_wr]
  clear_value at_ late quarter dirn big c2 term ib iv iu f p c1
  split
  next th om cf _ =>
    extract_lets +onlyGivenNames c3 c4 ia run5
    have h4 : c4.otp = c.otp := by simp only [c4, c3, flag_otp, f1up_otp, otp_wr, h2]
    have h5 (d : Channel) : (run5 d).otp = d.otp := by simp only [run5, pumpPeriod_otp, f1up_otp]
    clear_value run5 ia c4
    split <;> simp only [ite_otp, otp_wr, f1up_otp, pumpFail_otp, pumpPeriod_otp, pumpTrack_otp, h4, h5, ite_self]

theorem Channel.solTick_otp (n : Nat) : (c.solTick n).1.otp = c.otp := by
  simp only [solTick]
  (repeat' split) <;> simp only [otp_wr, f1up_otp]

theorem Channel.solTicks_otp (x : List Nat) : (c.solTicks x).1.otp = c.otp := by
  induction x generalizing c with
  | nil => rfl
  | cons b r ih => simp only [solTicks, ih, solTick_otp]

theorem Channel.speedLoop_otp : c.speedLoop.otp = c.otp := by
  simp only [speedLoop, ite_otp, ite_self, flag_otp, f1up_otp]

theorem Channel.calibrate_otp (b : Bridge) (sumU sumV : Nat) : (c.calibrate b sumU sumV).otp = c.otp := by
  unfold calibrate
  split <;> simp only [ite_otp, ite_self, setBit_otp, raiseAll_otp, f0up_otp, f1up_otp]

theorem Channel.marker_otp (from_ : Chan) (tb : BitVec 48) (latency : Nat) :
    (c.marker from_ tb latency).otp = c.otp := by
  simp only [marker, otp_wr, ite_otp, ite_self, sat_otp, wrSat_otp, raise_otp, f0up_otp]

/-! ### Speed, chopper and overvoltage ladder -/

theorem Channel.speedIn_otp (b : Bridge) (omega : Nat) (probe : Bool) : (c.speedIn b omega probe).otp = c.otp := by
  simp only [speedIn, settle_otp, select_otp]
  cases b
  · exact pow_otp (flag_otp _ _ _) _
  · rfl

theorem Channel.chopCheck_otp (v0 : Nat) (slope : Int) (t v1 : Nat) : (c.chopCheck v0 slope t v1).otp = c.otp := by
  simp only [chopCheck, otp_wr, ite_otp, ite_self, sat_otp, wrS_otp, chopFailed_otp, raise_otp]

theorem Channel.reenter_otp : c.reenter.otp = c.otp := by
  simp only [reenter, otp_wr, ite_otp, ite_self, setShort_otp]

/-! ### Gate drive -/

theorem Channel.countLatch_otp (b : Nat) : (c.countLatch b).otp = c.otp := by
  simp only [countLatch, ite_otp, ite_self, sat_otp]

theorem Channel.latch_otp (bits cmds : Nat) (same : Bool) : (c.latch bits cmds same).otp = c.otp := by
  simp only [latch, otp_wr, ite_otp, ite_self, foldl_otp, implies_true, flag_otp, raiseAll_otp, countLatch_otp]

theorem Channel.legUp_otp (n : Nat) (f : Leg → Leg) : (c.legUp n f).otp = c.otp := by
  simp only [legUp, ite_otp, ite_self]

theorem Channel.gdrRelease_otp : c.gdrRelease.otp = c.otp := by
  simp only [gdrRelease, otp_wr, ite_otp, ite_self, setBit_otp, takeHeld_otp, gdRefresh_otp, pumpAgain_otp]

theorem Channel.gdenClear_otp (present : Nat) : (c.gdenClear present).otp = c.otp := by
  simp only [gdenClear, otp_wr, ite_otp, ite_self, flag_otp, sat_otp]

theorem Channel.gdenLong_otp (lowNs : Nat) : (c.gdenLong lowNs).2.otp = c.otp := by
  simp only [gdenLong]
  (repeat' split) <;> simp only [draw_otp]

theorem Channel.gdenUp_otp (lowNs present : Nat) : (c.gdenUp lowNs present).otp = c.otp := by
  simp only [gdenUp, ite_otp, ite_self, gdRefresh_otp, pumpAgain_otp, gdenClear_otp, gdenLong_otp]

theorem Channel.tagged_otp (src : Nat) : (c.tagged src).otp = c.otp := by
  simp only [tagged, raise_otp]

theorem Channel.testEvents_otp (failed : Nat) (x : List Nat) : (c.testEvents failed x).otp = c.otp := by
  induction x generalizing c with
  | nil => rfl
  | cons b r ih => simp only [testEvents, ih, ite_otp, tagged_otp, ite_self]

theorem Channel.testFails_otp (failed : Nat) : (c.testFails failed).otp = c.otp := by
  simp only [testFails, otp_wr, ite_otp, ite_self, gdRefresh_otp, raiseAll_otp]

theorem Channel.testChop_otp (chop : Option (Nat × Nat)) : (c.testChop chop).1.otp = c.otp := by
  unfold testChop
  (repeat' split) <;> simp only [chopCheck_otp]

theorem Channel.selfTest_otp (failed : Nat) (chop : Option (Nat × Nat)) : (c.selfTest failed chop).otp = c.otp := by
  simp only [selfTest, otp_wr, ite_otp, ite_self, testEvents_otp, testFails_otp, testChop_otp]

end Sys2Proof.Machine
end

section
/-! PROOF. The OTP bits of a die stand (R462): the inputs, the clocks and the Tether node. -/

namespace Sys2Proof.Machine

variable (c : Channel)

/-! ### Encoder units and SENT receivers -/

theorem Channel.unitFault_otp (n cause : Nat) : (c.unitFault n cause).otp = c.otp := by
  simp only [unitFault, otp_wr, ite_otp, ite_self, setBit_otp, raise_otp]

theorem Channel.edgeCheck_otp (n since : Nat) : (c.edgeCheck n since).otp = c.otp := by
  simp only [edgeCheck, ite_otp, ite_self, sat_otp, unitUp_otp, unitFault_otp]

theorem Channel.qerr_otp (n : Nat) : (c.qerr n).otp = c.otp := by
  simp only [qerr, otp_wr, ite_otp, ite_self, sat_otp, unitUp_otp, unitFault_otp]

theorem Channel.showStill_otp (n : Nat) : (c.showStill n).otp = c.otp := by
  simp only [showStill, otp_wr, wrS_otp]

theorem Channel.posEdge_otp (n : Nat) (p : Int) (down was : Bool) (dt : Nat) :
    (c.posEdge n p down was dt).otp = c.otp := by
  unfold posEdge
  extract_lets c1 c2 rev zero
  have h2 : c2.otp = c.otp := by simp only [c2, c1, setBit_otp, unitUp_otp, flag_otp]
  have hz (d : Channel) : (zero d).otp = d.otp := by simp only [zero, showStill_otp, otp_wr, unitUp_otp]
  clear_value c2 zero
  split
  · exact (hz _).trans h2
  · simp only [ite_otp, otp_wr, unitUp_otp, hz, h2, ite_self]
  · simp only [ite_otp, hz, h2, ite_self]

theorem Channel.distStep_otp (n : Nat) (up : Bool) : (c.distStep n up).otp = c.otp := by
  simp only [distStep, otp_wr, ite_otp, ite_self]

theorem Channel.compare_otp (n : Nat) (up : Bool) : (c.compare n up).otp = c.otp := by
  simp only [compare, otp_wr, ite_otp, ite_self, unitUp_otp, distStep_otp]

theorem Channel.idxFail_otp (n : Nat) : (c.idxFail n).otp = c.otp := by
  simp only [idxFail, ite_otp, ite_self, sat_otp, unitUp_otp, unitFault_otp]

theorem Channel.motorIndex_otp (n : Nat) : (c.motorIndex n).otp = c.otp := by
  simp only [motorIndex, otp_wr, ite_otp, ite_self, raise_otp, f0up_otp]

theorem Channel.indexEvent_otp (n : Nat) : (c.indexEvent n).otp = c.otp := by
  simp only [indexEvent, otp_wr, ite_otp, ite_self, wrS_otp, unitUp_otp, idxFail_otp, motorIndex_otp]

theorem Channel.indexWatch_otp (n : Nat) : (c.indexWatch n).otp = c.otp := by
  simp only [indexWatch, ite_otp, ite_self, wrS_otp, idxFail_otp]

theorem Channel.count_otp (n : Nat) (d : Int) (dt : Nat) : (c.count n d dt).otp = c.otp := by
  simp only [count, otp_wr, ite_otp, ite_self, wrS_otp, posEdge_otp, compare_otp]

theorem Channel.settlement_otp (n dt : Nat) : (c.settlement n dt).otp = c.otp := by
  simp only [settlement, ite_otp, ite_self, indexEvent_otp, indexWatch_otp]
  (repeat' split) <;> simp only [unitUp_otp, qerr_otp, count_otp]

theorem Channel.errWindow_otp (n : Nat) (q : Bool) : (c.errWindow n q).otp = c.otp := by
  unfold errWindow
  (repeat' split) <;> simp only [unitUp_otp]

theorem Channel.obsUpdate_otp (n : Nat) : (c.obsUpdate n).otp = c.otp := by
  simp only [obsUpdate, ite_otp, ite_self, inc_otp, wrS_otp, wrSat_otp, unitUp_otp]

theorem Channel.rxUp_otp (m : Nat) (g : SentRx → SentRx) : (c.rxUp m g).otp = c.otp := by
  unfold rxUp
  split <;> simp only

theorem Channel.sentErr_otp (m : Nat) (f : Fld) : (c.sentErr m f).otp = c.otp := by
  simp only [sentErr, otp_wr, ite_otp, ite_self, sat_otp, setBit_otp, raise_otp, rxUp_otp]

theorem Channel.slowIn_otp (m status : Nat) : (c.slowIn m status).otp = c.otp := by
  simp only [slowIn]
  split <;> simp only [otp_wr, rxUp_otp]

theorem Channel.sentIn_otp (m : Nat) (f : SentFrame) : (c.sentIn m f).otp = c.otp := by
  simp only [sentIn, otp_wr, ite_otp, ite_self, inc_otp, setBit_otp, rxUp_otp, sentErr_otp, slowIn_otp]

/-! ### Safety inputs -/

theorem Channel.splitShow_otp : c.splitShow.otp = c.otp := by
  simp only [splitShow, otp_wr, ite_otp, ite_self, flag_otp]

theorem Channel.setPair_otp (p st : Nat) : (c.setPair p st).otp = c.otp := by
  simp only [setPair, otp_wr, splitShow_otp]

theorem Channel.filterStep_otp (raw n : Nat) : (c.filterStep raw n).otp = c.otp := by
  simp only [filterStep, ite_otp, ite_self, setBit_otp]

theorem Channel.pairStep_otp (p : Nat) : (c.pairStep p).otp = c.otp := by
  unfold pairStep
  split <;> simp only [ite_otp, ite_self, setPair_otp]

theorem Channel.forN_otp (f : Channel → Nat → Channel) (x : Nat) (hf : ∀ c n, (f c n).otp = c.otp) :
    (c.forN f x).otp = c.otp := by
  induction x with
  | zero => rfl
  | succ n ih => exact (hf _ _).trans ih

theorem Channel.sinTake_otp (raw : Nat) : (c.sinTake raw).otp = c.otp := by
  simp only [sinTake, otp_wr, implies_true, filterStep_otp, pairStep_otp, forN_otp]

theorem Channel.discFault_otp (p : Nat) : (c.discFault p).otp = c.otp := by
  simp only [discFault, otp_wr, sat_otp, raise_otp, setPair_otp]

theorem Channel.pulseStart_otp (b : Bool) (tpw : Nat) : (c.pulseStart b tpw).otp = c.otp := by
  simp only [pulseStart, otp_wr, ite_otp, ite_self, inc_otp]

theorem Channel.testFail_otp (p cause : Nat) : (c.testFail p cause).otp = c.otp := by
  simp only [testFail, otp_wr, ite_otp, ite_self, sat_otp, setPair_otp]

theorem Channel.pulseCheck_otp (b : Bool) (raw : Nat) : (c.pulseCheck b raw).otp = c.otp := by
  simp only [pulseCheck, otp_wr, ite_otp, ite_self, foldl_otp, implies_true, raiseAll_otp, testFail_otp]

theorem Channel.sinStart_otp : c.sinStart.otp = c.otp := by
  simp only [sinStart, implies_true, setPair_otp, forN_otp]

theorem Channel.sbHeld_otp (kind limit : Nat) (pkt : BitVec 64) (crcOk : Bool) (off : Nat) :
    (c.sbHeld kind limit pkt crcOk off).otp = c.otp := by
  unfold sbHeld
  (repeat' split) <;> simp only [otp_wr, badCrc_otp]

theorem Channel.showVotes_otp (votes : Nat) : (c.showVotes votes).otp = c.otp := by
  simp only [showVotes, otp_wr, ite_otp, ite_self, implies_true, flag_otp, setBit_otp, forN_otp]

theorem Channel.differStep_otp (votes p : Nat) : (c.differStep votes p).otp = c.otp := by
  simp only [differStep]

theorem Channel.voteEvents_otp (old votes : Nat) : (c.voteEvents old votes).otp = c.otp := by
  simp only [voteEvents, foldl_otp, implies_true, sat_otp, raiseAll_otp, forN_otp, differStep_otp]

/-! ### Ports and deep rungs -/

theorem Channel.exitDeep_otp : c.exitDeep.otp = c.otp := by
  simp only [exitDeep, repower_otp, errRefresh_otp]

theorem Channel.closePort_otp : c.closePort.otp = c.otp := by
  simp only [closePort, otp_wr, ite_otp, ite_self, draw_otp, reset_otp, errRefresh_otp]

/-! ### Network time -/

theorem Channel.ntcUp_otp (f : Ntc → Ntc) : (c.ntcUp f).otp = c.otp := by
  simp only [ntcUp]

theorem Channel.tteUp_otp (f : Tte → Tte) : (c.tteUp f).otp = c.otp := by
  simp only [tteUp]

theorem Channel.showLd_otp (port : Nat) : (c.showLd port).otp = c.otp := by
  simp only [showLd, otp_wr, flag_otp]

theorem Channel.ldDiscard_otp (port : Nat) : (c.ldDiscard port).otp = c.otp := by
  simp only [ldDiscard, raiseIf_otp, ntcUp_otp, showLd_otp]

theorem Channel.ldResponse_otp (port : Nat) (seq : Nat) (turn t4 : Int) :
    (c.ldResponse port seq turn t4).otp = c.otp := by
  simp only [ldResponse]
  split <;> simp only [ite_otp, ite_self, sat_otp, ntcUp_otp, showLd_otp, ldDiscard_otp]

theorem Channel.ntLeave_otp : c.ntLeave.otp = c.otp := by
  simp only [ntLeave, otp_wr, sat_otp, raise_otp, ntcUp_otp]

theorem Channel.setRate_otp (num : Int) (clamped : Bool) : (c.setRate num clamped).otp = c.otp := by
  simp only [setRate, flag_otp, wrS_otp]

theorem Channel.follow_otp (e : Int) : (c.follow e).otp = c.otp := by
  simp only [follow, ite_otp, ite_self, sat_otp, raise_otp, ntcUp_otp, ntLeave_otp, setRate_otp]

theorem Channel.join_otp (a b : SyncFrame) (e : Int) : (c.join a b e).otp = c.otp := by
  simp only [join, otp_wr, sat_otp, inc_otp, wrS_otp, wrSat_otp, ntcUp_otp]

theorem Channel.tryJoin_otp (f : SyncFrame) (e : Int) : (c.tryJoin f e).otp = c.otp := by
  cases h : c.ntc.first with
  | none => simp only [tryJoin, h, ntcUp_otp]
  | some a => simp only [tryJoin, h, ite_otp, join_otp, ntcUp_otp, ite_self]

theorem Channel.sync_otp (port hops epoch : Nat) (f : SyncFrame) (follower : Bool) :
    (c.sync port hops epoch f follower).otp = c.otp := by
  cases h : c.ntc.used with
  | none => simp only [sync, h, otp_wr, ite_otp, ite_self, wrS_otp, ntcUp_otp, follow_otp, tryJoin_otp]
  | some k => simp only [sync, h, otp_wr, ite_otp, ite_self, wrS_otp, ntcUp_otp, follow_otp, tryJoin_otp]

theorem Channel.ntCycle_otp : c.ntCycle.otp = c.otp := by
  simp only [ntCycle, otp_wr, ite_otp, ite_self, ntcUp_otp]

theorem Channel.fireMark_otp (m : Nat) : (c.fireMark m).otp = c.otp := by
  simp only [fireMark, otp_wr, ite_otp, ite_self, sat_otp, inc_otp, ntcUp_otp]

/-! ### The Tether node -/

theorem Channel.swapBufs_otp (id : Nat) (other : Memory) (bytes : List Byte) :
    (c.swapBufs id other bytes).otp = c.otp := by
  simp only [swapBufs, tteUp_otp]

theorem Channel.showPort_otp (k : Nat) : (c.showPort k).otp = c.otp := by
  simp only [showPort, otp_wr, otp_wrWord, ite_otp, ite_self, flag_otp]

theorem Channel.showPorts_otp : c.showPorts.otp = c.otp := by
  simp only [showPorts, ite_otp, ite_self, foldl_otp, implies_true, showPort_otp]

theorem Channel.rxForm_otp (f : Frame) : (c.rxForm f).1.otp = c.otp := by
  unfold rxForm
  (repeat' split) <;> simp only [sat_otp, tteUp_otp]

theorem Channel.rxKind_otp (f : Frame) (kind : Nat) : (c.rxKind f kind).1.otp = c.otp := by
  simp only [rxKind]
  (repeat' split) <;> simp only [sat_otp, rxForm_otp]

theorem Channel.brkRefresh_otp : c.brkRefresh.otp = c.otp := by
  simp only [brkRefresh, flag_otp]

theorem Channel.sendAt_otp (ports : List (Nat × Int)) (f : Frame) : (c.sendAt ports f).otp = c.otp := by
  simp only [sendAt, ite_otp, ite_self, tteUp_otp]

theorem Channel.slotPorts_otp (ports : List Nat) (t : Int) (w : SlotWait) : (c.slotPorts ports t w).2.otp = c.otp := by
  simp only [slotPorts, foldl_otp, implies_true, sat_otp]

theorem Channel.drawSeq_otp : c.drawSeq.2.otp = c.otp := by
  simp only [drawSeq, draw_otp]

theorem Channel.sendKindAt_otp (kind : Nat) (ports : List (Nat × Int)) (payload : List Byte) :
    (c.sendKindAt kind ports payload).otp = c.otp := by
  simp only [sendKindAt, sendAt_otp, drawSeq_otp]

theorem Channel.sendKind_otp (kind : Nat) (ports : List Nat) (payload : List Byte) (at_ : Int) :
    (c.sendKind kind ports payload at_).otp = c.otp := by
  simp only [sendKind, sendKindAt_otp]

theorem Channel.windowReject_otp (a : Nat) : (c.windowReject a).otp = c.otp := by
  simp only [windowReject, ite_otp, ite_self, sat_otp, setBit_otp, raise_otp, tteUp_otp]

theorem Channel.windowPass_otp (a : Nat) : (c.windowPass a).otp = c.otp := by
  simp only [windowPass, ite_otp, ite_self, setBit_otp, tteUp_otp]

theorem Channel.runBreak_otp (a : Nat) : (c.runBreak a).otp = c.otp := by
  simp only [runBreak, tteUp_otp]

theorem Channel.windowCheck_otp (f : Frame) (ofs : Nat) : (c.windowCheck f ofs).1.otp = c.otp := by
  simp only [windowCheck]
  (repeat' split) <;> simp only [windowReject_otp, windowPass_otp]

theorem Channel.guardCheck_otp : c.guardCheck.1.otp = c.otp := by
  unfold guardCheck
  split <;> simp only [otp_wr, sat_otp, raiseIf_otp]

theorem Channel.tteStart_otp : c.tteStart.otp = c.otp := by
  simp only [tteStart, otp_wr, otp_wrWord, flag_otp, brkRefresh_otp]

end Sys2Proof.Machine
end

section
/-! PROOF. The OTP bits of a die stand (R462): the Folio, the modes and the herd. -/

namespace Sys2Proof.Machine

variable (c : Channel)

/-! ### The application of a Folio (R66) -/

theorem Channel.putWords_otp (r : FolRec) (addr : Nat → Nat) (x : List Nat) : (c.putWords r addr x).otp = c.otp := by
  induction x generalizing c with
  | nil => rfl
  | cons b r ih => simp only [putWords, ih, otp_wrWord]

theorem Channel.applyEach_otp (l : List FolRec) (type : Nat) (f : Channel → FolRec → Channel) (hf : ∀ c r,
  (f c r).otp = c.otp) :
    (c.applyEach l type f).otp = c.otp :=
  foldl_otp c f hf _

theorem Channel.applyChannels_otp (l : List FolRec) : (c.applyChannels l).otp = c.otp := by
  simp only [applyChannels, otp_wr, foldl_otp, implies_true, putWords_otp, applyEach_otp]

theorem Channel.applyMotors_otp (l : List FolRec) : (c.applyMotors l).otp = c.otp := by
  unfold applyMotors
  split <;> simp only [otp_wr, implies_true, putWords_otp, applyEach_otp]

theorem Channel.applySensors_otp (l : List FolRec) : (c.applySensors l).otp = c.otp := by
  simp only [applySensors, otp_wr, implies_true, setBit_otp, putWords_otp, applyEach_otp]

theorem Channel.applySafety_otp (l : List FolRec) : (c.applySafety l).otp = c.otp := by
  simp only [applySafety, implies_true, sinStart_otp, putWords_otp, applyEach_otp]

theorem Channel.applyFaults_otp (l : List FolRec) : (c.applyFaults l).otp = c.otp := by
  unfold applyFaults
  simp only [otp_wr]
  exact foldl_otp _ _ (fun d n => by split <;> simp only [otp_wr]) _

theorem Channel.applyLimits_otp (l : List FolRec) : (c.applyLimits l).otp = c.otp := by
  unfold applyLimits
  (repeat' split) <;> simp only [otp_wr, otp_wrWord, foldl_otp, implies_true, putWords_otp]

theorem Channel.applyTether_otp (l : List FolRec) : (c.applyTether l).otp = c.otp := by
  simp only [applyTether, otp_wr, implies_true, tteStart_otp, putWords_otp, applyEach_otp]

theorem Channel.applyIsobus_otp : c.applyIsobus.otp = c.otp := by
  simp only [applyIsobus]

theorem Channel.applyTasks_otp (l : List FolRec) : (c.applyTasks l).otp = c.otp := by
  simp only [applyTasks, otp_wr, foldl_otp, implies_true]

theorem Channel.applyImages_otp (l : List FolRec) : (c.applyImages l).otp = c.otp := by
  refine applyEach_otp _ _ _ _ fun c r => ?_
  split
  · exact setMem_otp _ _ _
  · rfl

theorem Channel.retain_otp (bytes : List Byte) : (c.retain bytes).otp = c.otp := by
  simp only [retain, otp_wr, ite_otp, ite_self]

theorem Channel.showFolio_otp (co : List Byte) : (c.showFolio co).otp = c.otp := by
  simp only [showFolio, otp_wr, foldl_otp, implies_true]

theorem Channel.seal_otp : c.seal.otp = c.otp := by
  simp only [Channel.seal, otp_wr, kick_otp]

theorem Channel.applyFolio_otp : c.applyFolio.otp = c.otp := by
  simp only [applyFolio, otp_wr, passThrough_otp, errRefresh_otp, applyChannels_otp, applyMotors_otp,
    applySensors_otp, applySafety_otp, applyFaults_otp, applyLimits_otp, applyTether_otp, applyIsobus_otp,
    applyTasks_otp, applyImages_otp, retain_otp, showFolio_otp, seal_otp]

/-! ### Modes -/

theorem Channel.showMode_otp : c.showMode.otp = c.otp := by
  simp only [showMode, otp_wr, otp_wrWord, ite_otp, ite_self, flag_otp, splitShow_otp]

/-! ### Heartbeats and the herd -/

theorem Channel.hrdUp_otp (f : Hrd → Hrd) : (c.hrdUp f).otp = c.otp := by
  simp only [hrdUp]

theorem Channel.herdUp_otp (f : Herd → Herd) : (c.herdUp f).otp = c.otp := by
  simp only [herdUp, hrdUp_otp]

theorem Channel.showHerd_otp : c.showHerd.otp = c.otp := by
  simp only [showHerd, otp_wr, ite_otp, ite_self, flag_otp]

theorem Channel.showAll_otp : c.showAll.otp = c.otp := by
  simp only [showAll, ite_otp, ite_self, showPlace_otp, showMode_otp, showHerd_otp]

theorem Channel.showLeave_otp : c.showLeave.otp = c.otp := by
  simp only [showLeave, ite_otp, ite_self, setCauses_otp, pumpLeave_otp]

theorem Channel.voiceRefresh_otp : c.voiceRefresh.otp = c.otp := by
  simp only [voiceRefresh, otp_wr, ite_otp, ite_self, flag_otp]

theorem Channel.outOfHerd_otp (role : Nat) : (c.outOfHerd role).otp = c.otp := by
  simp only [outOfHerd, otp_wr, dropObjects_otp, showPlace_otp, maskIn_otp, hrdUp_otp, showAll_otp, voiceRefresh_otp]

/-! ### The membership decision -/

theorem Channel.consume_otp (d : Decision) : (c.consume d).otp = c.otp := by
  simp only [consume, otp_wr, ite_otp, ite_self, hrdUp_otp]

theorem Channel.askProof_otp : c.askProof.otp = c.otp := by
  simp only [askProof, ite_otp, ite_self, hrdUp_otp]

theorem Channel.enterDecision_otp (env : Env) (x : CrossIn) (news : List Nat) :
    (c.enterDecision env x news).otp = c.otp := by
  simp only [enterDecision, raiseAll_otp]
  split <;> simp only [otp_wr, ite_otp, ite_self, flag_otp, maskIn_otp, hrdUp_otp, consume_otp, askProof_otp]

/-! ### The Folio loader (R55 to R71) -/

theorem Channel.folUp_otp (f : Fol → Fol) : (c.folUp f).otp = c.otp := by
  simp only [folUp]

theorem State.askPeers_otp (s : State) : (s.askPeers c).otp = c.otp := by
  simp only [askPeers, Channel.folUp_otp]

theorem Channel.rejectSrc_otp (src : Nat) (e : FErr) : (c.rejectSrc src e).otp = c.otp := by
  simp only [rejectSrc, otp_wr, otp_wrWord, log_otp]

theorem Channel.loadFails_otp : c.loadFails.otp = c.otp := by
  simp only [loadFails, otp_wr, raise_otp, folUp_otp]

theorem Channel.untried_otp (x : List Nat) : (c.untried x).otp = c.otp := by
  induction x generalizing c with
  | nil => rfl
  | cons b r ih => simp only [untried, ih, ite_otp, rejectSrc_otp, ite_self]

theorem State.toPeer_otp (s : State) : (s.toPeer c).otp = c.otp := by
  simp only [toPeer, Channel.otp_wr, Channel.folUp_otp, askPeers_otp]

theorem State.nextSrc_otp (s : State) : (s.nextSrc c).otp = c.otp := by
  unfold nextSrc
  split <;> simp only [Channel.otp_wr, Channel.folUp_otp, Channel.loadFails_otp, toPeer_otp]

theorem State.noMss_otp (s : State) : (s.noMss c).otp = c.otp := by
  simp only [noMss, Channel.ite_otp, ite_self, Channel.rejectSrc_otp, Channel.loadFails_otp, Channel.untried_otp,
    toPeer_otp]

theorem State.rejected_otp (s : State) (e : FErr) : (s.rejected c e).otp = c.otp := by
  simp only [rejected, Channel.rejectSrc_otp, nextSrc_otp]

theorem State.startLoad_otp (s : State) (v : Word) : (s.startLoad c v).otp = c.otp := by
  simp only [startLoad, Channel.otp_wr, Channel.ite_otp, ite_self, Channel.folUp_otp, Channel.rejectSrc_otp,
    Channel.loadFails_otp, toPeer_otp, noMss_otp]

theorem State.folCtrl_otp (s : State) (v : Word) : (s.folCtrl c v).otp = c.otp := by
  simp only [folCtrl, Channel.ite_otp, ite_self, Channel.sealViolation_otp, startLoad_otp]

theorem Channel.acceptFolio_otp : c.acceptFolio.otp = c.otp := by
  simp only [acceptFolio, otp_wr, otp_wrWord, folUp_otp]

/-! ### Messages of the mailbox -/

theorem Channel.mailboxMsg_otp (v : Word) : (c.mailboxMsg v).otp = c.otp := by
  simp only [mailboxMsg, ite_otp, ite_self, sat_otp, log_otp]

end Sys2Proof.Machine
end

section
/-! PROOF. The OTP bits of a die stand (R462): the networks, the rounds, the supplies and the accesses. -/

namespace Sys2Proof.Machine

variable (c : Channel)

/-! ### Streams and link-delay exchanges -/

theorem Channel.forward_otp (f : Frame) (ttx : Int) : (c.forward f ttx).otp = c.otp := by
  simp only [forward, ite_otp, ite_self, sat_otp, inc_otp, tteUp_otp, rxForm_otp]

theorem Channel.fetch_otp (id : Nat) : (c.fetch id).otp = c.otp := by
  simp only [fetch, ite_otp, ite_self, tteUp_otp, swapBufs_otp, showPorts_otp]

theorem Channel.slot_otp (id nth : Nat) (fold : Bool) (w : SlotWait) : (c.slot id nth fold w).otp = c.otp := by
  simp only [slot, ite_otp]
  (repeat' split) <;> simp only [otp_wr, inc_otp, sendAt_otp, slotPorts_otp, guardCheck_otp]

theorem Channel.commitPort_otp (k : Nat) (v : Word) : (c.commitPort k v).otp = c.otp := by
  simp only [commitPort, ite_otp, tteUp_otp, showPorts_otp]
  (repeat' split) <;> simp only [draw_otp]

theorem Channel.selectPort_otp (k : Nat) (v : Word) : (c.selectPort k v).otp = c.otp := by
  simp only [selectPort, otp_wr, showPort_otp]

theorem Channel.accept_otp (f : Frame) (id : Nat) : (c.accept f id).otp = c.otp := by
  simp only [accept, otp_wr, ite_otp, ite_self, sat_otp, inc_otp, tteUp_otp, swapBufs_otp, showPorts_otp, runBreak_otp]

theorem Channel.rxStream_otp (f : Frame) (id : Nat) : (c.rxStream f id).otp = c.otp := by
  simp only [rxStream, ite_otp, ite_self, sat_otp, tteUp_otp, windowReject_otp, windowPass_otp, accept_otp]

theorem Channel.streamIn_otp (f : Frame) : (c.streamIn f).otp = c.otp := by
  simp only [streamIn, ite_otp, ite_self, rxForm_otp, rxStream_otp]
  (repeat' split) <;> simp only [tteUp_otp, rxForm_otp]

theorem Channel.missed_otp (id : Nat) : (c.missed id).otp = c.otp := by
  simp only [missed, otp_wr, ite_otp, ite_self, sat_otp, raiseIf_otp, showPorts_otp]

theorem Channel.sendLd_otp (kind port : Nat) (payload : List Byte) (at_ : Int) :
    (c.sendLd kind port payload at_).otp = c.otp := by
  simp only [sendLd, tteUp_otp, drawSeq_otp]

/-! ### The cycle, the lead and start-up -/

theorem Channel.leadFoldStep_otp : c.leadFoldStep.otp = c.otp := by
  simp only [leadFoldStep, tteUp_otp]

theorem Channel.silence_otp (slot : Nat) : (c.silence slot).otp = c.otp := by
  simp only [silence, ite_otp, ite_self, sat_otp, tteUp_otp]

theorem Channel.claimFits_otp (stream maxlen : Nat) : (c.claimFits stream maxlen).2.otp = c.otp := by
  unfold claimFits
  split <;> simp only [draw_otp]

theorem Channel.grantStep_otp (s : Nat × Nat × Nat) : (c.grantStep s).otp = c.otp := by
  unfold grantStep
  split <;> simp only [ite_otp, ite_self, sat_otp, tteUp_otp, claimFits_otp]

theorem Channel.answerAsk_otp : c.answerAsk.otp = c.otp := by
  unfold answerAsk
  (repeat' split) <;> simp only [ite_otp, ite_self, tteUp_otp]

theorem Channel.sendPass_otp (w : SlotWait) : (c.sendPass w).otp = c.otp := by
  simp only [sendPass, otp_wr, ite_otp, ite_self, tteUp_otp, slotPorts_otp, sendKindAt_otp]

theorem Channel.enumStep_otp (w : SlotWait) : (c.enumStep w).otp = c.otp := by
  simp only [enumStep, ite_otp, ite_self, tteUp_otp, sendPass_otp]

theorem Channel.leadCycle_otp (w : SlotWait) : (c.leadCycle w).otp = c.otp := by
  simp only [leadCycle, otp_wr, foldl_otp, implies_true, tteUp_otp, sendKind_otp, leadFoldStep_otp, silence_otp,
    grantStep_otp, answerAsk_otp, enumStep_otp]

theorem Channel.cycleEnd_otp : c.cycleEnd.otp = c.otp := by
  simp only [cycleEnd, raiseIf_otp, tteUp_otp, brkRefresh_otp]

theorem Channel.nextCycle_otp : c.nextCycle.otp = c.otp := by
  simp only [nextCycle, otp_wr, flag_otp, tteUp_otp, ntCycle_otp]

theorem Channel.sendOwed_otp (w : SlotWait) : (c.sendOwed w).otp = c.otp := by
  unfold sendOwed
  split <;> simp only [ite_otp, ite_self, tteUp_otp, slotPorts_otp, sendKindAt_otp, guardCheck_otp]

theorem Channel.sendClaim_otp (w : SlotWait) : (c.sendClaim w).otp = c.otp := by
  simp only [sendClaim]
  (repeat' split) <;> simp only [otp_wr, tteUp_otp, slotPorts_otp, sendKindAt_otp, guardCheck_otp]

theorem Channel.claimStep_otp (agdev agaddr : Nat) (w : SlotWait) : (c.claimStep agdev agaddr w).otp = c.otp := by
  simp only [claimStep, otp_wr, ite_otp, ite_self, sendClaim_otp]
  (repeat' split) <;> simp only [otp_wr]

theorem Channel.yieldTo_otp (lead : Nat) : (c.yieldTo lead).2.otp = c.otp := by
  unfold yieldTo
  split <;> simp only [draw_otp]

theorem Channel.takeFrame_otp (f : Frame) : (c.takeFrame f).otp = c.otp := by
  simp only [takeFrame, otp_wr, tteUp_otp]

theorem Channel.followFrame_otp (f : Frame) (w : SlotWait) : (c.followFrame f w).otp = c.otp := by
  simp only [followFrame, otp_wr, ite_otp, ite_self, ntcUp_otp, tteUp_otp, sync_otp, sendOwed_otp, claimStep_otp,
    takeFrame_otp]

theorem Channel.cycleFrame_otp (f : Frame) (w : SlotWait) : (c.cycleFrame f w).otp = c.otp := by
  simp only [cycleFrame, otp_wr, ite_otp, ite_self, sat_otp, rxKind_otp, yieldTo_otp, followFrame_otp]

theorem Channel.claimIn_otp (f : Frame) (slot : Nat) : (c.claimIn f slot).otp = c.otp := by
  simp only [claimIn]
  (repeat' split) <;> simp only [sat_otp, tteUp_otp, rxForm_otp, runBreak_otp, windowCheck_otp]

theorem Channel.passSeen_otp (f : Frame) : (c.passSeen f).otp = c.otp := by
  simp only [passSeen, otp_wr, ite_otp, ite_self, tteUp_otp]

theorem Channel.passDone_otp (n : Nat) (last : Bool) : (c.passDone n last).otp = c.otp := by
  simp only [passDone, otp_wr, ite_otp, ite_self, draw_otp, tteUp_otp]

theorem Channel.enumIn_otp (f : Frame) : (c.enumIn f).otp = c.otp := by
  simp only [enumIn, ite_otp, ite_self, sat_otp, rxForm_otp, runBreak_otp, windowCheck_otp, passSeen_otp, passDone_otp]

theorem Channel.becomeLead_otp (w : SlotWait) : (c.becomeLead w).otp = c.otp := by
  simp only [becomeLead, otp_wr, ite_otp, ite_self, inc_otp, ntcUp_otp, tteUp_otp, leadCycle_otp]

/-! ### The ISOBUS attachment -/

theorem Channel.canUp_otp (f : Can → Can) : (c.canUp f).otp = c.otp := by
  simp only [canUp]

theorem Channel.showBusy_otp : c.showBusy.otp = c.otp := by
  simp only [showBusy, flag_otp]

theorem Channel.enqueue_otp (f : CanFrame) : (c.enqueue f).otp = c.otp := by
  unfold enqueue
  (repeat' split) <;> simp only [sat_otp, canUp_otp]

theorem Channel.say_otp (gap : Bool) (f : CanFrame) : (c.say gap f).otp = c.otp := by
  simp only [say, ite_otp, ite_self, canUp_otp, enqueue_otp]

theorem Channel.showRx_otp : c.showRx.otp = c.otp := by
  simp only [showRx]
  split <;> simp only [otp_wr, otp_wrWord]

theorem Channel.rxPush_otp (pgn sa : Nat) (data : List Byte) : (c.rxPush pgn sa data).otp = c.otp := by
  simp only [rxPush, ite_otp, ite_self, sat_otp, canUp_otp, showRx_otp]

theorem Channel.claimAddr_otp (gap : Bool) (f sa name : Nat) : (c.claimAddr gap f sa name).otp = c.otp := by
  simp only [claimAddr, otp_wr, canUp_otp, say_otp]

theorem Channel.cannotClaim_otp (gap : Bool) (f name : Nat) : (c.cannotClaim gap f name).otp = c.otp := by
  simp only [cannotClaim, otp_wr, raise_otp, say_otp]

theorem Channel.contest_otp (gap : Bool) (f name : Nat) (r : FolRec) : (c.contest gap f name r).otp = c.otp := by
  simp only [contest, ite_otp, sat_otp, say_otp, cannotClaim_otp]
  (repeat' split) <;> simp only [sat_otp, claimAddr_otp, cannotClaim_otp]

theorem Channel.claimSeen_otp (gap : Bool) (f : CanFrame) : (c.claimSeen gap f).otp = c.otp := by
  simp only [claimSeen]
  (repeat' split) <;> simp only [otp_wr, canUp_otp, contest_otp]

theorem Channel.answer_otp (gap : Bool) (f : CanFrame) (n : Nat) : (c.answer gap f n).otp = c.otp := by
  unfold answer
  split <;> simp only [ite_otp, ite_self, say_otp, rxPush_otp]

theorem Channel.askMore_otp (gap : Bool) (r : RxSession) : (c.askMore gap r).otp = c.otp := by
  simp only [askMore, canUp_otp, say_otp]

theorem Channel.rts_otp (gap : Bool) (f : CanFrame) : (c.rts gap f).otp = c.otp := by
  simp only [rts, ite_otp, ite_self, canUp_otp, say_otp, askMore_otp]

theorem Channel.bam_otp (f : CanFrame) : (c.bam f).otp = c.otp := by
  simp only [bam, ite_otp, ite_self, sat_otp, canUp_otp]

theorem Channel.complete_otp (gap : Bool) (r : RxSession) : (c.complete gap r).otp = c.otp := by
  simp only [complete, ite_otp, ite_self, canUp_otp, say_otp, rxPush_otp]

theorem Channel.dt_otp (gap : Bool) (r : RxSession) (f : CanFrame) : (c.dt gap r f).otp = c.otp := by
  simp only [dt, ite_otp, ite_self, sat_otp, canUp_otp, askMore_otp, complete_otp]

theorem Channel.endTx_otp (n res : Nat) : (c.endTx n res).otp = c.otp := by
  simp only [endTx, otp_wr, ite_otp, ite_self, canUp_otp, showBusy_otp]

theorem Channel.sendAllowed_otp (n : Nat) (t : TxSession) (x : Nat) : (c.sendAllowed n t x).otp = c.otp := by
  induction x generalizing c t with
  | zero => simp only [sendAllowed, canUp_otp]
  | succ k ih => simp only [sendAllowed, ih, ite_otp, canUp_otp, enqueue_otp, ite_self]

theorem Channel.tpAnswer_otp (f : CanFrame) (n : Nat) : (c.tpAnswer f n).otp = c.otp := by
  simp only [tpAnswer]
  (repeat' split) <;> simp only [canUp_otp, endTx_otp, sendAllowed_otp]

theorem Channel.txGo_otp (dead : Bool) : (c.txGo dead).otp = c.otp := by
  simp only [txGo, otp_wr, ite_otp, ite_self, sat_otp, canUp_otp, showBusy_otp, enqueue_otp]

theorem Channel.firstClaim_otp (n : Nat) : (c.firstClaim n).otp = c.otp := by
  unfold firstClaim
  split <;> simp only [ite_otp, ite_self, claimAddr_otp]

/-! ### Rounds, joining and switches -/

theorem Channel.beginVoting_otp : c.beginVoting.otp = c.otp := by
  simp only [beginVoting, otp_wr, ite_otp, ite_self]

theorem Channel.endFawn_otp : c.endFawn.otp = c.otp := by
  simp only [endFawn, ite_otp, ite_self]

theorem Channel.leaveSrc_otp (trial : Nat) : (c.leaveSrc trial).otp = c.otp := by
  simp only [leaveSrc, otp_wr, otp_wrWord, ite_otp, ite_self]

theorem Channel.leaveNow_otp (trial : Nat) : (c.leaveNow trial).otp = c.otp := by
  simp only [leaveNow, otp_wr, ite_otp, ite_self, setCauses_otp, reset_otp, errRefresh_otp, haltHarts_otp, maskIn_otp,
    showAll_otp, showLeave_otp, voiceRefresh_otp, leaveSrc_otp]

theorem Channel.dropNow_otp : c.dropNow.otp = c.otp := by
  simp only [dropNow, ite_otp, ite_self, setCauses_otp, hrdUp_otp, outOfHerd_otp]

theorem Channel.ringAtEnd_otp : c.ringAtEnd.otp = c.otp := by
  simp only [ringAtEnd, raiseIf_otp]

theorem Channel.giveUp_otp (isTask : Bool) (o : PObj) : (c.giveUp isTask o).otp = c.otp := by
  simp only [giveUp, otp_wrWord, hrdUp_otp]

theorem Channel.takeTask_otp (o : PObj) : (c.takeTask o).otp = c.otp := by
  simp only [takeTask, ite_otp, ite_self, allocate_otp, hrdUp_otp]

theorem Channel.releaseAll_otp : c.releaseAll.otp = c.otp := by
  simp only [releaseAll, ite_otp, ite_self, foldl_otp, implies_true, giveUp_otp]

theorem Channel.takeTasks_otp : c.takeTasks.otp = c.otp := by
  simp only [takeTasks, ite_otp, ite_self, foldl_otp, implies_true, takeTask_otp]

theorem Channel.logCauses_otp (x : List Nat) : (c.logCauses x).otp = c.otp := by
  induction x generalizing c with
  | nil => rfl
  | cons b r ih => simp only [logCauses, ih, logUnnamed_otp]

theorem Channel.takeEffect_otp (h : Herd) (role trial : Nat) : (c.takeEffect h role trial).otp = c.otp := by
  simp only [takeEffect, otp_wr, ite_otp, ite_self, sat_otp, showVotes_otp, voteEvents_otp, hrdUp_otp, showAll_otp,
    showLeave_otp, outOfHerd_otp, beginVoting_otp, endFawn_otp, leaveNow_otp, ringAtEnd_otp, releaseAll_otp,
    takeTasks_otp, logCauses_otp]

theorem Channel.roundStart_otp (trial : Nat) : (c.roundStart trial).otp = c.otp := by
  simp only [roundStart, ite_otp, ite_self, inc_otp, maskIn_otp, hrdUp_otp, dropNow_otp]
  (repeat' split) <;> simp only [inc_otp, hrdUp_otp, takeEffect_otp]

theorem Channel.recall_otp : c.recall.otp = c.otp := by
  simp only [Channel.recall, otp_wr, ite_otp, ite_self, reset_otp, errRefresh_otp]

theorem Channel.sendHb_otp : c.sendHb.otp = c.otp := by
  simp only [sendHb, otp_wr, hrdUp_otp]

theorem Channel.hbIn_otp (kind limit : Nat) (pkt : BitVec 64) (crcOk : Bool) (off : Nat) :
    (c.hbIn kind limit pkt crcOk off).otp = c.otp := by
  simp only [hbIn, ite_otp, ite_self, badCrc_otp, hrdUp_otp]

theorem Channel.requestMode_otp (req : Nat) : (c.requestMode req).otp = c.otp := by
  simp only [requestMode, otp_wr, ite_otp, ite_self, hrdUp_otp]

theorem Channel.splitService_otp : c.splitService.otp = c.otp := by
  simp only [splitService, otp_wr, ite_otp, ite_self, setBit_otp, setCauses_otp, gdRefresh_otp, maskIn_otp,
    showMode_otp]

theorem Channel.admitted_otp (h : Herd) (gen round full tb : Nat) : (c.admitted h gen round full tb).otp = c.otp := by
  simp only [admitted, otp_wr, ite_otp, ite_self, maskIn_otp, hrdUp_otp]

theorem Channel.form_otp (pbase : Nat) : (c.form pbase).otp = c.otp := by
  simp only [form, otp_wr, raiseIf_otp, f0up_otp, showDeadl_otp, maskIn_otp, showVotes_otp, showAll_otp,
    showLeave_otp, beginVoting_otp]

theorem Channel.ask_otp : c.ask.otp = c.otp := by
  simp only [ask, hrdUp_otp]

theorem Channel.peerLoad_otp (peer : Nat) : (c.peerLoad peer).otp = c.otp := by
  simp only [peerLoad, otp_wr, otp_wrWord, reset_otp, errRefresh_otp]

theorem State.listenEnd_otp (s : State) : (s.listenEnd c).otp = c.otp := by
  simp only [listenEnd, Channel.ite_otp]
  (repeat' split) <;> simp only [Channel.form_otp, Channel.ask_otp, Channel.peerLoad_otp]

theorem State.takeHome_otp (s : State) (o : PObj) : (s.takeHome c o).otp = c.otp := by
  simp only [takeHome, Channel.ite_otp, ite_self, Channel.allocate_otp]

theorem Channel.dropStale_otp : c.dropStale.otp = c.otp := by
  simp only [dropStale, hrdUp_otp]

theorem State.boundary_otp (s : State) : (s.boundary c).otp = c.otp := by
  simp only [boundary, Channel.ite_otp, ite_self, Channel.foldl_otp, implies_true, Channel.reset_otp,
    Channel.errRefresh_otp, Channel.herdUp_otp, Channel.showAll_otp, Channel.voiceRefresh_otp, Channel.releaseAll_otp,
    Channel.takeTasks_otp, takeHome_otp, Channel.dropStale_otp]

theorem Channel.homeWrite_otp (home off : Nat) (v : Word) : (c.homeWrite home off v).otp = c.otp := by
  simp only [homeWrite]

theorem Channel.jobEnd_otp (o : PObj) (crc : Nat) : (c.jobEnd o crc).otp = c.otp := by
  simp only [jobEnd]
  split <;> simp only [ite_otp, ite_self, hrdUp_otp]

theorem Channel.request_otp (hreq : Nat) : (c.request hreq).otp = c.otp := by
  simp only [request, otp_wr, ite_otp, ite_self, hrdUp_otp]

/-! ### Supplies and the power ladder -/

theorem Channel.vsupRise_otp : c.vsupRise.otp = c.otp := by
  simp only [vsupRise, ite_otp, ite_self, setCauses_otp, repower_otp, errRefresh_otp]

theorem Channel.unpowered_otp (up : Bool) (rung : Nat) : (c.unpowered up rung).otp = c.otp := by
  simp only [unpowered, otp_wr, repower_otp]

theorem Channel.undervoltage_otp : c.undervoltage.otp = c.otp := by
  simp only [undervoltage, ite_otp, ite_self, setCauses_otp, errRefresh_otp, unpowered_otp]

theorem Channel.bistDone_otp (pass : Bool) : (c.bistDone pass).otp = c.otp := by
  simp only [bistDone, otp_wr, ite_otp, ite_self, raise_otp, startSweep_otp]

theorem Channel.p1Request_otp (req : Nat) : (c.p1Request req).otp = c.otp := by
  simp only [p1Request, otp_wr, ite_otp, ite_self]

theorem Channel.enterP2_otp : c.enterP2.otp = c.otp := by
  simp only [enterP2, otp_wr, ite_otp, ite_self]

theorem State.descend_otp (s : State) : (s.descend c).otp = c.otp := by
  simp only [descend, Channel.otp_wr, Channel.ite_otp, ite_self, Channel.unpowered_otp]

theorem Channel.restartNet_otp : c.restartNet.otp = c.otp := by
  simp only [restartNet, blockReset_otp]

theorem Channel.wakeUp_otp (kind index : Nat) : (c.wakeUp kind index).otp = c.otp := by
  simp only [wakeUp, otp_wr, ite_otp, ite_self, sat_otp, exitDeep_otp, restartNet_otp]

theorem Channel.wakeHold_otp (kind index : Nat) : (c.wakeHold kind index).otp = c.otp := by
  simp only [wakeHold, otp_wr, ite_otp, ite_self, sat_otp]

/-! ### Register accesses -/

theorem Channel.plainWrite_otp (a : Nat) (r : RegRow) (v : Word) : (c.plainWrite a r v).otp = c.otp := by
  simp only [plainWrite, otp_wrWord, ite_otp, ite_self, sealViolation_otp]

theorem Channel.writeBlken_otp (a : Nat) (r : RegRow) (v : Word) : (c.writeBlken a r v).otp = c.otp := by
  simp only [writeBlken, plainWrite_otp]

theorem Channel.writeBuf_otp (a : Nat) (v : Word) : (c.writeBuf a v).otp = c.otp := by
  simp only [writeBuf, ite_otp, ite_self, tteUp_otp]

theorem Channel.homeSend_otp (m : MemId) (a : Nat) : (c.homeSend m a).otp = c.otp := by
  unfold homeSend
  (repeat' split) <;> simp only [hrdUp_otp]

theorem Channel.store_otp (m : MemId) (a : Nat) (z : AccSize) (v : Word) (ecc : Ecc) :
    (c.store m a z v ecc).otp = c.otp := by
  simp only [store, ite_otp, ite_self, memAccess_otp, homeSend_otp]

theorem Channel.fbufWrite_otp (o : Nat) (v : Byte) : (c.fbufWrite o v).otp = c.otp := by
  simp only [fbufWrite, tteUp_otp]

theorem Channel.fbufStore_otp (o : Nat) (x : List Byte) : (c.fbufStore o x).otp = c.otp := by
  induction x generalizing c o with
  | nil => rfl
  | cons b r ih => simp only [fbufStore, ih, fbufWrite_otp]

/-! ### The release of a block reset -/

theorem Channel.afterReset_otp (a : Nat) : (c.afterReset a).otp = c.otp := by
  simp only [afterReset, otp_wrWord, ite_otp, ite_self]

theorem Channel.resetWindow_otp (lo hi : Nat) : (c.resetWindow lo hi).otp = c.otp := by
  simp only [resetWindow, foldl_otp, implies_true, afterReset_otp]

theorem Channel.resetFce0_otp : c.resetFce0.otp = c.otp := by
  simp only [resetFce0, otp_wr, kick_otp, resetWindow_otp]

theorem Channel.resetFce1_otp : c.resetFce1.otp = c.otp := by
  simp only [resetFce1, otp_wr, ite_otp, ite_self, setCause_otp, kick_otp, pumpAttempt_otp, resetWindow_otp]

theorem Channel.resetEnc_otp : c.resetEnc.otp = c.otp := by
  simp only [resetEnc, otp_wr, ite_otp, ite_self, foldl_otp, implies_true, setBit_otp, passThrough_otp, resetWindow_otp]

theorem Channel.resetSin_otp : c.resetSin.otp = c.otp := by
  simp only [resetSin, otp_wr, ite_otp, ite_self, foldl_otp, implies_true, setPair_otp]

theorem Channel.resetTte_otp : c.resetTte.otp = c.otp := by
  simp only [resetTte, otp_wr, kick_otp, tteStart_otp, resetWindow_otp]

theorem Channel.resetNtc_otp : c.resetNtc.otp = c.otp := by
  simp only [resetNtc, ite_otp, ite_self, ntLeave_otp, resetWindow_otp]

theorem Channel.resetCan_otp : c.resetCan.otp = c.otp := by
  simp only [resetCan, otp_wr, resetWindow_otp]

theorem Channel.blockRelease_otp (b : Nat) : (c.blockRelease b).otp = c.otp := by
  simp only [blockRelease, ite_otp, ite_self, setBit_otp, gdrRelease_otp, resetFce0_otp, resetFce1_otp, resetEnc_otp,
    resetSin_otp, resetTte_otp, resetNtc_otp, resetCan_otp]

/-! ### Cross-links -/

theorem Channel.setLink_otp (n : Nat) (up : Bool) : (c.setLink n up).otp = c.otp := by
  simp only [setLink, otp_wr, hrdUp_otp]

theorem Channel.readFails_otp : c.readFails.otp = c.otp := by
  simp only [readFails, ite_otp, ite_self]

theorem Channel.abandonBulk_otp (peer : Chan) : (c.abandonBulk peer).otp = c.otp := by
  simp only [abandonBulk, ite_otp, ite_self, hrdUp_otp, rejectSrc_otp, loadFails_otp]

theorem Channel.linkLost_otp (n : Nat) (peer : Chan) : (c.linkLost n peer).otp = c.otp := by
  simp only [linkLost, ite_otp, ite_self, raise_otp, setLink_otp, readFails_otp, abandonBulk_otp]

theorem Channel.setEnables_otp (mask : Word) : (c.setEnables mask).otp = c.otp := by
  simp only [setEnables, otp_wr]

/-! ### Debug halts -/

theorem Channel.haltNow_otp (h : Nat) : (c.haltNow h).otp = c.otp := by
  simp only [haltNow, otp_wr, ite_otp, ite_self, setHalted_otp, outOfHerd_otp]

theorem Channel.wantHalt_otp (h : Nat) (hold : Bool) : (c.wantHalt h hold).otp = c.otp := by
  simp only [wantHalt, flag_otp]

/-! ### Time -/

theorem Channel.ageTick_otp (n : Nat) (r : SentRx) : (c.ageTick n r).2.otp = c.otp := by
  unfold ageTick
  split <;> simp only [otp_wr]

theorem Channel.ages_otp : c.ages.otp = c.otp := by
  simp only [ages, ageTick_otp]

theorem Channel.lowCheck_otp : c.lowCheck.otp = c.otp := by
  simp only [lowCheck, ite_otp, ite_self, sat_otp, raise_otp]

theorem Channel.tick_otp : c.tick.otp = c.otp := by
  simp only [tick, ite_otp, ite_self, sectorTick_otp, legsTick_otp, ages_otp, lowCheck_otp]

end Sys2Proof.Machine
end

section
/-! PROOF. One-time-programmable bits (R462): what grows, and the relation in which each operation of the management
subsystem leaves its fuses. -/

namespace Sys2Proof.Machine

/-! ### Fuses that grow -/

theorem Otp.grows.refl (o : Otp) : o.grows o :=
  ⟨fun _ _ => BitVec.and_self, fun _ _ h => h, fun _ _ h => h, le_rfl, le_rfl⟩

theorem Otp.grows.trans {o p q : Otp} (h : o.grows p) (k : p.grows q) : o.grows q := by
  obtain ⟨hhash, hfused, hrev, hlc, hep⟩ := h
  obtain ⟨khash, kfused, krev, klc, kep⟩ := k
  refine ⟨fun i hi => ?_, fun i hi h => kfused i hi (hfused i hi h), fun i hi h => krev i hi (hrev i hi h),
    hlc.trans klc, hep.trans kep⟩
  rw [← hhash i hi, BitVec.and_assoc, khash i hi]

/-- Fields of a fuse block that stand. -/
theorem Otp.grows.of_eq {o p : Otp} (h : p = o) : o.grows p := h ▸ .refl o

/-- A slot that is not fused holds no hash (R465). -/
def Otp.slotsEmpty (o : Otp) : Prop := ∀ k < 4, o.fused.getLsbD k = false → kget 0 o.hash k = 0

/-- The key block's part of `State.fusesOrdered`. -/
def KeyStore.fusesOrdered (k : KeyStore) : Prop := (k.gen = 2 → k.otp.lc ≤ k.lcTo) ∧ k.otp.slotsEmpty

theorem State.fusesOrdered_iff (s : State) : s.fusesOrdered ↔ s.mss.key.fusesOrdered := Iff.rfl

/-- What `KeyStore.fusesOrdered` and `Otp.grows` look at. -/
def KeyStore.fuses (k : KeyStore) : Otp × Nat × Nat := (k.otp, k.gen, k.lcTo)

/-! ### Each fuse operation -/

theorem Otp.emptySlot_spec {o : Otp} {slot : Nat} (h : o.emptySlot = some slot) :
    slot < 4 ∧ o.fused.getLsbD slot = false := by
  unfold Otp.emptySlot at h
  exact ⟨List.mem_range.1 (List.mem_of_find?_eq_some h), by simpa using List.find?_some h⟩

theorem Otp.grows_fuse {o : Otp} {slot : Nat} (x : BitVec 256) (h0 : kget 0 o.hash slot = 0) :
    o.grows { o with hash := kset 0 o.hash slot x, fused := o.fused ||| BitVec.ofNat 4 (2 ^ slot) } := by
  refine ⟨fun k _ => ?_, fun k _ h => by simp [h], fun _ _ h => h, le_rfl, le_rfl⟩
  by_cases e : k = slot
  · rw [e, h0]
    exact BitVec.zero_and
  · rw [kget_kset_ne _ _ _ e, BitVec.and_self]

/-- The slot that is fused is the one that takes the hash. -/
theorem Otp.slotsEmpty_fuse {o : Otp} {slot : Nat} {x : BitVec 256} (h : o.slotsEmpty) (hlt : slot < 4) :
    Otp.slotsEmpty { o with hash := kset 0 o.hash slot x, fused := o.fused ||| BitVec.ofNat 4 (2 ^ slot) } := by
  intro k hk hf
  rw [BitVec.getLsbD_or, Bool.or_eq_false_iff] at hf
  obtain ⟨hf, hbit⟩ := hf
  have hne : k ≠ slot := by
    rintro rfl
    have hself : ∀ k < 4, (BitVec.ofNat 4 (2 ^ k)).getLsbD k = true := by decide
    rw [hself k hk] at hbit
    cases hbit
  exact (kget_kset_ne _ _ _ hne).trans (h k hk hf)

theorem Otp.grows_revoke (o : Otp) (r : BitVec 4) : o.grows { o with revoked := o.revoked ||| r } :=
  ⟨fun _ _ => BitVec.and_self, fun _ _ h => h, fun _ _ h => by simp [h], le_rfl, le_rfl⟩

theorem Otp.grows_lc {o : Otp} {dst : Nat} (h : o.lc ≤ dst) : o.grows { o with lc := dst } :=
  ⟨fun _ _ => BitVec.and_self, fun _ _ h => h, fun _ _ h => h, h, le_rfl⟩

theorem Otp.grows_epoch (o : Otp) (e : Nat) : o.grows { o with epoch := max o.epoch e } :=
  ⟨fun _ _ => BitVec.and_self, fun _ _ h => h, fun _ _ h => h, le_rfl, le_max_left _ _⟩

/-! ### The relation -/

/-- From `m` to `n` no OTP bit of the management subsystem and not DV have been cleared, and its fuses are in order. -/
structure Mss.fusesGrow (m n : Mss) : Prop where
  ordered : n.key.fusesOrdered
  otp : m.key.otp.grows n.key.otp
  dv : m.is KEY_STAT_DV = true → n.is KEY_STAT_DV = true

variable {m n p : Mss}

theorem Mss.fusesGrow.refl (hm : m.key.fusesOrdered) : m.fusesGrow m := ⟨hm, .refl _, fun h => h⟩

/-- Operations beside the fuses and KEY_STAT. -/
theorem Mss.fusesGrow.beside (h : m.fusesGrow n) (hk : p.key.fuses = n.key.fuses)
    (hd : p.is KEY_STAT_DV = n.is KEY_STAT_DV) : m.fusesGrow p := by
  simp only [KeyStore.fuses, Prod.mk.injEq] at hk
  obtain ⟨ho, hg, hl⟩ := hk
  obtain ⟨⟨hlc, hslots⟩, hotp, hdv⟩ := h
  exact ⟨⟨by rwa [ho, hg, hl], by rwa [ho]⟩, by rwa [ho], by rwa [hd]⟩

theorem Mss.fusesGrow.of_parts (h : m.fusesGrow n) (hr : p.regs = n.regs) (hk : p.key = n.key) :
    m.fusesGrow p := h.beside (by rw [hk]) (by rw [Mss.is, Mss.rd, hr, ← Mss.rd, ← Mss.is])

/-- A change of the fuses in which no bit is cleared. -/
theorem Mss.fusesGrow.burn (h : m.fusesGrow n) (f : KeyStore → KeyStore) (hg : n.key.otp.grows (f n.key).otp)
    (ho : (f n.key).fusesOrdered) : m.fusesGrow (n.onKey f) := ⟨ho, h.otp.trans hg, h.dv⟩

theorem Mss.fusesGrow.raiseEpoch (h : m.fusesGrow n) (e : Nat) :
    m.fusesGrow (n.onKey fun k => { k with otp := { k.otp with epoch := max k.otp.epoch e } }) :=
  h.burn _ (Otp.grows_epoch _ _) h.ordered

/-- What is being generated changes, and is no life-cycle change (R472). -/
theorem Mss.fusesGrow.generate (h : m.fusesGrow n) (f : KeyStore → KeyStore) (ho : (f n.key).otp = n.key.otp)
    (hg : (f n.key).gen ≠ 2) : m.fusesGrow (n.onKey f) :=
  h.burn f (.of_eq ho) ⟨fun e => absurd e hg, by rw [ho]; exact h.ordered.2⟩

/-- A field of another register, or of KEY_STAT beside DV, is written. -/
theorem Mss.fusesGrow.wr (h : m.fusesGrow n) (f : Fld) (v : Nat) (hf : (KEY_STAT_DV.apartB f && f.fitsB) = true) :
    m.fusesGrow (n.wr f v) := h.beside rfl (Mss.is_wr_off _ _ hf)

theorem Mss.fusesGrow.setWord (h : m.fusesGrow n) (a : Nat) (v : Word) (ha : KEY_STAT ≠ a) :
    m.fusesGrow { n with regs := n.regs.setWord a v } :=
  h.beside rfl (by rw [Mss.is, Mss.is, Mss.rd, Mss.rd, RegMap.get_setWord_ne _ _ ha])

/-- A write to another register leaves a field. -/
theorem Mss.is_wr_ne (m : Mss) {f g : Fld} (v : Nat) (h : g.addr ≠ f.addr) : (m.wr f v).is g = m.is g := by
  rw [Mss.is, Mss.is, Mss.rd, Mss.rd, Mss.wr, RegMap.get_put_ne _ _ h]

end Sys2Proof.Machine
end

section
/-! PROOF. The operations of the management subsystem and its fuses, one by one: what they write lies beside
KEY_STAT's DV, or they set fuses and clear none (R462, R465 to R471). -/

namespace Sys2Proof.Machine

variable {m n p : Mss}

/-! ### The shared operations -/

theorem Mss.fusesGrow.ite (c : Prop) [Decidable c] (h : m.fusesGrow n) (k : m.fusesGrow p) :
    m.fusesGrow (if c then n else p) := by
  split <;> assumption

theorem Mss.fusesGrow.foldl {α : Type} {g : Mss → α → Mss} (l : List α)
    (hg : ∀ x ∈ l, ∀ {n : Mss}, m.fusesGrow n → m.fusesGrow (g n x)) : ∀ {n : Mss},
      m.fusesGrow n → m.fusesGrow (l.foldl g n) := by
  induction l with
  | nil => exact fun h => h
  | cons x xs ih => exact fun h => ih (fun y hy => hg y (.tail _ hy)) (hg x (.head _) h)

theorem Mss.fusesGrow.sat (h : m.fusesGrow n) (f : Fld) (hf : (KEY_STAT_DV.apartB f && f.fitsB) = true) :
    m.fusesGrow (n.sat f) := h.wr f _ hf

theorem Mss.fusesGrow.onPort (h : m.fusesGrow n) (ch : Chan) (f : Port → Port) : m.fusesGrow (n.onPort ch f) := by
  cases ch <;> exact h.of_parts rfl rfl

theorem Mss.fusesGrow.onSup (h : m.fusesGrow n) (f : Sup → Sup) : m.fusesGrow (n.onSup f) := h.of_parts rfl rfl

theorem Mss.fusesGrow.onKey (h : m.fusesGrow n) (f : KeyStore → KeyStore) (hf : ∀ k, (f k).fuses = k.fuses) :
    m.fusesGrow (n.onKey f) := h.beside (hf _) rfl

theorem Mss.fusesGrow.onUpd (h : m.fusesGrow n) (f : Upd → Upd) : m.fusesGrow (n.onUpd f) := h.of_parts rfl rfl

theorem Mss.fusesGrow.draw (h : m.fusesGrow n) (k : Nat) : m.fusesGrow (n.draw k).2 := h.of_parts rfl rfl

theorem Mss.fusesGrow.record (h : m.fusesGrow n) (src code data : Nat) : m.fusesGrow (n.record src code data) :=
  h.of_parts rfl rfl

theorem Mss.fusesGrow.errPulse (h : m.fusesGrow n) : m.fusesGrow n.errPulse := h.onSup _

theorem Mss.fusesGrow.hear (h : m.fusesGrow n) (c : Channel) : m.fusesGrow (n.hear c) := h.of_parts rfl rfl

theorem Mss.fusesGrow.withRung (h : m.fusesGrow n) (r : Nat) : m.fusesGrow { n with rung := r } := h.of_parts rfl rfl

theorem Mss.fusesGrow.showPorts (h : m.fusesGrow n) : m.fusesGrow n.showPorts := (h.wr _ _ rfl).wr _ _ rfl

/-! ### Counters, retirements and messages (R446, R449) -/

/-- The life counters are 1024 registers (R449), below KEY_STAT. -/
theorem Mss.fusesGrow.lifeAdd (h : m.fusesGrow n) {idx : Nat} (hi : idx < 1024) (k : Nat) :
    m.fusesGrow (n.lifeAdd idx k) := by
  have hne : KEY_STAT_DV.addr ≠ (LOG_LIFE_COUNT idx).addr := by
    show (0x48020000 : Nat) ≠ 0x48011000 + 0x4 * idx
    omega
  have hw : m.fusesGrow (n.wr (LOG_LIFE_COUNT idx) (min (n.rd (LOG_LIFE_COUNT idx) + k) (2 ^ 32 - 1))) :=
    h.beside rfl (Mss.is_wr_ne _ _ hne)
  exact .ite _ (hw.record _ _ _) hw

theorem lifeOf_lt {origin src code i k : Nat} {data : BitVec 208} (h : lifeOf origin src code data = some (i, k)) :
    i < 1024 := by
  unfold lifeOf at h
  dsimp only at h
  split_ifs at h <;> simp only [Option.some.injEq, Prod.mk.injEq] at h <;> omega

theorem Mss.fusesGrow.count (h : m.fusesGrow n) (r : LogRecord) : m.fusesGrow (n.count r) := by
  unfold Mss.count
  split
  · rename_i hl
    exact h.lifeAdd (lifeOf_lt hl) _
  · exact h

theorem Mss.fusesGrow.retire (h : m.fusesGrow n) (bank why : Nat) : m.fusesGrow (n.retire bank why) := by
  have hw : m.fusesGrow
      (((n.wr (if bank = 0 then LOG_STAT_RET0 else LOG_STAT_RET1) 1).errPulse).record 0x204 bank why) :=
    ((h.wr _ _ (by split <;> rfl)).errPulse).record _ _ _
  exact .ite _ h (.ite _ (hw.wr _ _ rfl) hw)

theorem Mss.fusesGrow.loadBody (h : m.fusesGrow n) (x : LogMsg) : m.fusesGrow (n.loadBody x) := by
  have hbody : ∀ i ∈ List.range 6,
      (KEY_STAT_DV.apartB (LOG_BODY_VALUE (i + 1)) && (LOG_BODY_VALUE (i + 1)).fitsB) = true := by decide
  have hfold := Mss.fusesGrow.foldl (m := m)
    (g := fun m i => m.wr (LOG_BODY_VALUE (i + 1)) (x.data.toNat / 2 ^ (32 * i)))
    (List.range 6) (fun i hi _ h => h.wr _ _ (hbody i hi)) h
  exact (((((hfold.wr _ _ rfl).wr _ _ rfl).wr _ _ rfl).wr _ _ rfl).wr _ _ rfl).wr _ _ rfl

theorem Mss.fusesGrow.readDone (h : m.fusesGrow n) (ch : Chan) (bad0 bad1 : List Nat) :
    m.fusesGrow (n.readDone ch bad0 bad1) := by
  unfold Mss.readDone
  split
  · exact h
  · refine .ite _ ?_ (.ite _ (h.onPort _ _) (h.onPort _ _))
    have h0 : ∀ (c : Bool) f, m.fusesGrow (if c then (n.onPort ch f).retire 0 2 else n.onPort ch f) :=
      fun c f => .ite _ ((h.onPort ch f).retire 0 2) (h.onPort ch f)
    exact .ite _ ((h0 _ _).retire _ _) (h0 _ _)

/-! ### Clocks, sensors and the supervisor (R432 to R435, R452 to R458) -/

theorem Mss.fusesGrow.calendar (h : m.fusesGrow n) (t : Nat) : m.fusesGrow (n.calendar t) :=
  have hs := h.onSup _
  .ite _ hs (.ite _ (hs.onSup _) (.ite _ (hs.onSup _) ((hs.onSup _).record _ _ _)))

theorem Mss.fusesGrow.sense (h : m.fusesGrow n) {i : Nat} (hi : i < 25) (v : Nat) (back : Bool) :
    m.fusesGrow (n.sense i v back) := by
  have hsens : ∀ i < 25, (KEY_STAT_DV.apartB (MSS_SENS_VALUE i) && (MSS_SENS_VALUE i).fitsB) = true := by decide
  have hs := fun f => (h.wr (MSS_SENS_VALUE i) v (hsens i hi)).onSup f
  exact .ite _ (.ite _ ((hs _).record _ _ _).errPulse ((hs _).record _ _ _)) (hs _)

theorem Mss.fusesGrow.senseAll (back : BitVec 25) :
    ∀ (l : List Nat) (i : Nat), i + l.length ≤ 25 → ∀ {n : Mss}, m.fusesGrow n →
    m.fusesGrow (n.senseAll back i l)
  | [], _, _, _, h => h
  | v :: vs, i, hl, _, h => by
    rw [List.length_cons] at hl
    exact Mss.fusesGrow.senseAll back vs (i + 1) (by omega) (h.sense (by omega) v _)

theorem Mss.fusesGrow.envRecord (h : m.fusesGrow n) : m.fusesGrow n.envRecord := by
  unfold Mss.envRecord
  split
  · exact h.record _ _ _
  · exact ((h.draw 2).record _ _ _).onSup _

theorem Mss.fusesGrow.loadFrame (h : m.fusesGrow n) (busy : Nat) : m.fusesGrow (n.loadFrame busy) :=
  have hs := h.onSup _
  have hw := ((Mss.fusesGrow.ite _ (hs.onSup _) hs).wr MSS_STAT_LOAD _ rfl).wr UPD_STAT_PAUSED _ rfl
  .ite _ hw (hw.record _ _ _)

theorem Mss.fusesGrow.mpReset (h : m.fusesGrow n) (code : Nat) : m.fusesGrow (n.mpReset code) := by
  have hm : m.fusesGrow { n with mp := false, ready := false, restart := some (code, n.rd MSS_STAT_VOTES) } :=
    h.of_parts rfl rfl
  unfold Mss.mpReset
  exact ((hm.wr MSS_STAT_LOAD 0 rfl).wr UPD_STAT_PAUSED 0 rfl).onSup _

theorem Mss.fusesGrow.voteReset (h : m.fusesGrow n) : m.fusesGrow n.voteReset := by
  have hs := fun f => ((h.sat MSS_STAT_VOTERST rfl).mpReset 1).onSup f
  unfold Mss.voteReset
  extract_lets v n1
  have h1 : m.fusesGrow n1 := hs _
  clear_value n1
  exact .ite _ (h1.of_parts rfl rfl) h1

/-! ### Slots and the update path (R60, R471, R480 to R484) -/

theorem Mss.fusesGrow.loadImage (h : m.fusesGrow n) : m.fusesGrow n.loadImage := by
  unfold Mss.loadImage
  split
  · exact h.of_parts rfl rfl
  · exact h

theorem Mss.fusesGrow.slotRecord (h : m.fusesGrow n) (i : Nat) (active : Bool) : m.fusesGrow (n.slotRecord i active) :=
  h.record _ _ _

theorem Mss.fusesGrow.mark (h : m.fusesGrow n) (i st : Nat) : m.fusesGrow (n.mark i st) := by
  refine .ite _ h (Mss.fusesGrow.slotRecord ?_ i false)
  exact .ite _ (h.of_parts rfl rfl) (h.of_parts rfl rfl)

theorem Mss.fusesGrow.activate (h : m.fusesGrow n) (i : Nat) : m.fusesGrow (n.activate i) := by
  refine .ite _ h (Mss.fusesGrow.slotRecord ?_ i true)
  exact h.of_parts rfl rfl

theorem Mss.fusesGrow.showKeys (h : m.fusesGrow n) : m.fusesGrow n.showKeys :=
  (((h.wr _ _ rfl).wr _ _ rfl).wr _ _ rfl).wr _ _ rfl

theorem Mss.fusesGrow.wrHash (h : m.fusesGrow n) (v : Nat → Nat) :
    m.fusesGrow ((List.range 8).foldl (fun m i => m.wr (UPD_HASH_VALUE i) (v i)) n) := by
  have hhash : ∀ i ∈ List.range 8,
    (KEY_STAT_DV.apartB (UPD_HASH_VALUE i) && (UPD_HASH_VALUE i).fitsB) = true := by decide
  exact Mss.fusesGrow.foldl _ (fun i hi _ h => h.wr _ _ (hhash i hi)) h

theorem Mss.fusesGrow.noSession (h : m.fusesGrow n) : m.fusesGrow n.noSession := by
  have hstat := ((h.wr UPD_STAT_STATE 0 rfl).wr UPD_STAT_OWNER 0 rfl).wr UPD_NEXT_VALUE 0 rfl
  unfold Mss.noSession
  exact (((hstat.wr UPD_FOLRES_VALUE 0xFF rfl).wr UPD_FOLPOS_VALUE 0 rfl).wrHash fun _ => 0).onUpd _

theorem Mss.fusesGrow.commit (h : m.fusesGrow n) (i : Nat) : m.fusesGrow (n.commit i) :=
  have hk := Mss.fusesGrow.showKeys ((((h.mark i 2).activate i).wr KEY_ROLLBACK_VALUE _ rfl).raiseEpoch _)
  have hu := (Mss.fusesGrow.ite _ (hk.mark (1 - i) 0) hk).onUpd _
  .ite _ (((hu.wr UPD_STAT_STATE 0 rfl).wr UPD_STAT_OWNER 0 rfl).of_parts rfl rfl) hu

theorem Mss.fusesGrow.armStep (h : m.fusesGrow n) : m.fusesGrow n.armStep := by
  unfold Mss.armStep
  split
  · exact .ite _ h (.ite _ (((h.mark _ _).activate _).onUpd _) ((h.onUpd _).activate _))
  · exact h.onUpd _

theorem Mss.fusesGrow.updResult (h : m.fusesGrow n) (cmd err : Nat) : m.fusesGrow (n.updResult cmd err) :=
  Mss.fusesGrow.record ((h.wr _ _ rfl).wr _ _ rfl) _ _ _

theorem Mss.fusesGrow.updOpen (h : m.fusesGrow n) (ch : Chan) : m.fusesGrow (n.updOpen ch) :=
  .ite _
    (.ite _ (h.updResult _ _) (Mss.fusesGrow.updResult (((h.noSession.wr _ _ rfl).wr _ _ rfl).onUpd _) _ _))
    (.ite _ (h.updResult _ _) (.ite _ (Mss.fusesGrow.updResult ((h.wr _ _ rfl).onUpd _) _ _) (h.updResult _ _)))

theorem Mss.fusesGrow.updBlock (h : m.fusesGrow n) (ch : Chan) (words : Nat) : m.fusesGrow (n.updBlock ch words) :=
  .ite _ (h.updResult _ _) (.ite _ (h.updResult _ _) (.ite _ (h.updResult _ _) (.ite _ (h.updResult _ _)
    (Mss.fusesGrow.updResult ((h.onUpd _).wr _ _ rfl) _ _))))

theorem Mss.fusesGrow.updVerify (h : m.fusesGrow n) (ch : Chan) : m.fusesGrow (n.updVerify ch) :=
  .ite _ (h.updResult _ _) (.ite _ (h.updResult _ _) (.ite _ (h.updResult _ _)
    (((h.wr _ _ rfl).wr _ _ rfl).wr _ _ rfl)))

theorem Mss.fusesGrow.showFolio (h : m.fusesGrow n) (r : Option FErr) : m.fusesGrow (n.showFolio r) := by
  cases r with
  | none => exact (h.wr _ _ rfl).wr _ _ rfl
  | some e => exact (h.wr _ _ rfl).wr _ _ rfl

theorem Mss.fusesGrow.showHash (h : m.fusesGrow n) (x : BitVec 256) : m.fusesGrow (n.showHash x) := h.wrHash _

theorem Mss.fusesGrow.verifyDone (h : m.fusesGrow n) : m.fusesGrow n.verifyDone := by
  have bad : ∀ {p : Mss}, m.fusesGrow p → ∀ err, m.fusesGrow ((p.wr UPD_STAT_STATE 1).updResult 3 err) :=
    fun k err => (k.wr _ _ rfl).updResult _ _
  refine .ite _ (bad h _) (.ite _ (bad (h.showHash _) _) (.ite _ (bad (h.showHash _) _) ?_))
  split
  · exact bad ((h.showHash _).showFolio _) _
  · exact (((h.showHash _).showFolio _).wr _ _ rfl).updResult _ _

theorem Mss.fusesGrow.copyDone (h : m.fusesGrow n) (ok : Bool) : m.fusesGrow (n.copyDone ok) :=
  .ite _ (Mss.fusesGrow.updResult ((((h.onUpd _).onUpd _).mark _ _).wr _ _ rfl) _ _)
    (Mss.fusesGrow.updResult (((h.onUpd _).draw 17).onUpd _ |>.wr _ _ rfl) _ _)

theorem Mss.fusesGrow.updDiscard (h : m.fusesGrow n) (ch : Chan) : m.fusesGrow (n.updDiscard ch) :=
  .ite _ (h.updResult _ _) (.ite _ (h.updResult _ _) (h.noSession.updResult _ _))

/-! ### Keys, life cycle and attestation (R465 to R479) -/

theorem Mss.fusesGrow.keyResult (h : m.fusesGrow n) (ch : Chan) (cmd err len kind slot : Nat) :
    m.fusesGrow (n.keyResult ch cmd err len kind slot) :=
  Mss.fusesGrow.record ((h.onPort ch _).wr KEY_STAT_BUSY _ rfl) _ _ _

/-- The queue of attestations is no fuse (R473). -/
theorem Mss.fusesGrow.enqueue (h : m.fusesGrow n) (ch : Chan) :
    m.fusesGrow (n.onKey fun k => { k with queue := k.queue ++ [ch] }) := h.onKey _ fun _ => rfl

theorem Mss.fusesGrow.dequeue (h : m.fusesGrow n) :
    m.fusesGrow (n.onKey fun k => { k with queue := k.queue.tail }) := h.onKey _ fun _ => rfl

theorem Mss.fusesGrow.keyStart (h : m.fusesGrow n) (ch : Chan) (cmd : Nat) : m.fusesGrow (n.keyStart ch cmd) :=
  have hp := fun f => h.onPort ch f
  .ite _ (hp _) (.ite _ (h.keyResult _ _ _ _ _ _) (.ite _ ((hp _).keyResult _ _ _ _ _ _)
    (Mss.fusesGrow.wr (.ite _ (Mss.fusesGrow.enqueue (hp _) ch) (hp _)) _ _ rfl)))

theorem Mss.fusesGrow.useChallenge (h : m.fusesGrow n) (t : List Byte) : m.fusesGrow (n.useChallenge t) :=
  .ite _ h (h.of_parts rfl rfl)

/-- An empty root slot is fused (R465). -/
theorem Mss.fusesGrow.fuse (h : m.fusesGrow n) {slot : Nat} (hs : n.key.otp.emptySlot = some slot) (key : List Byte) :
    m.fusesGrow (n.fuse slot key) := by
  obtain ⟨hlc, hslots⟩ := h.ordered
  obtain ⟨hlt, hfree⟩ := Otp.emptySlot_spec hs
  exact Mss.fusesGrow.showKeys (h.burn _ (Otp.grows_fuse _ (hslots slot hlt hfree))
    ⟨hlc, Otp.slotsEmpty_fuse hslots hlt⟩)

theorem Mss.fusesGrow.revoke (h : m.fusesGrow n) (i : Nat) : m.fusesGrow (n.revoke i) :=
  have hk := Mss.fusesGrow.showKeys (h.burn (fun k => { k with otp := { k.otp with
    revoked := k.otp.revoked ||| BitVec.ofNat 4 (2 ^ i) } }) (Otp.grows_revoke _ _) h.ordered)
  have h0 := Mss.fusesGrow.ite _ (hk.mark 0 0) hk
  .ite _ (h0.mark 1 0) h0

theorem Mss.fusesGrow.showId (h : m.fusesGrow n) : m.fusesGrow n.showId := by
  unfold Mss.showId
  split
  · exact h.wr _ _ rfl
  · exact (h.wr _ _ rfl).wr _ _ rfl

theorem Mss.fusesGrow.reserveLeaf (h : m.fusesGrow n) (i : Nat) : m.fusesGrow (n.reserveLeaf i) :=
  Mss.fusesGrow.showId (h.onKey _ fun _ => rfl)

theorem Mss.fusesGrow.putBuf (h : m.fusesGrow n) (ch : Chan) (bs : List Byte) :
    m.fusesGrow (n.putBuf ch bs) := h.onPort _ _

theorem Mss.fusesGrow.attest (h : m.fusesGrow n) (ch : Chan) (pend : Bool) (leaf : Nat) :
    m.fusesGrow (n.attest ch pend leaf) :=
  (((h.wr KEY_STAT_CREDIT _ rfl).reserveLeaf leaf).putBuf ch _).keyResult _ _ _ _ _ _

theorem Mss.fusesGrow.attestDone (h : m.fusesGrow n) (ch : Chan) (pend : Bool) :
    m.fusesGrow (n.attestDone ch pend) := by
  refine .ite _ h ?_
  split
  · exact h.dequeue.keyResult _ _ _ _ _ _
  · have hgen : m.fusesGrow (n.onKey fun k => { k with gen := 1 }) := h.generate _ rfl (show 1 ≠ 2 by decide)
    exact .ite _ (h.dequeue.keyResult _ _ _ _ _ _) (.ite _ hgen.showId (h.dequeue.attest _ _ _))

theorem Mss.fusesGrow.challengeDone (h : m.fusesGrow n) (ch : Chan) : m.fusesGrow (n.challengeDone ch) := by
  have hfree : m.fusesGrow { n with free := n.free + 1 } := h.of_parts rfl rfl
  unfold Mss.challengeDone
  exact (hfree.onPort ch _).keyResult _ _ _ _ _ _

theorem Mss.fusesGrow.fuseDone (h : m.fusesGrow n) (ch : Chan) (cmd kind : Nat) (key : List Byte) (want : Option Nat) :
    m.fusesGrow (n.fuseDone ch cmd kind key want) := by
  unfold Mss.fuseDone
  split
  · exact h.keyResult _ _ _ _ _ _
  · rename_i hs
    exact .ite _ (h.keyResult _ _ _ _ _ _) ((h.fuse hs _).keyResult _ _ _ _ _ _)

/-- The wipes of a life-cycle change, its record and its result (R468). -/
theorem Mss.fusesGrow.lcWipe (h : m.fusesGrow n) (a b c : Port) (u : Upd → Upd) (data : Nat) (ch : Chan)
    (len kind : Nat) :
    m.fusesGrow (((({ n with portA := a, portB := b, portC := c } : Mss).noSession.onUpd u).showId.record 0x209 0
      data).keyResult ch 2 0 len kind 0) :=
  have hp : m.fusesGrow { n with portA := a, portB := b, portC := c } := h.of_parts rfl rfl
  ((hp.noSession.onUpd u).showId.record _ _ _).keyResult _ _ _ _ _ _

/-- The fuse of a life-cycle change (R468), with which its preparation ends. -/
theorem Mss.fusesGrow.lcFuse (h : m.fusesGrow n) (dst : Nat) (hd : n.key.otp.lc ≤ dst) :
    m.fusesGrow (n.onKey fun k => { k with otp := { k.otp with lc := dst }, gen := 0 }).showKeys :=
  Mss.fusesGrow.showKeys (h.burn _ (Otp.grows_lc hd) ⟨fun e => absurd e (by decide : ¬ 0 = 2), h.ordered.2⟩)

/-- A new identity after the fuse of a life-cycle change (R469, R475). -/
theorem Mss.fusesGrow.identity (h : m.fusesGrow n) (g : KeyStore → KeyStore) (hg : ∀ k, (g k).fuses = k.fuses) :
    m.fusesGrow ((n.onKey g).wr KEY_STAT_CREDIT 8) := (h.onKey g hg).wr _ _ rfl

theorem Mss.lcBuf_otp (m : Mss) (i : Nat) (ch : Chan) (bs : List Byte) :
    ((m.reserveLeaf i).putBuf ch bs).key.otp = m.key.otp := by
  have hput : ∀ n : Mss, (n.putBuf ch bs).key = n.key := fun n => by cases ch <;> rfl
  rw [hput, Mss.reserveLeaf, Mss.showId]
  split
  · rw [Mss.wr_key]
    rfl
  · rw [Mss.wr_key, Mss.wr_key]
    rfl

theorem Mss.fusesGrow.lcChange (h : m.fusesGrow n) (ch : Chan) (dst kind : Nat) (hd : n.key.otp.lc ≤ dst) :
    m.fusesGrow (n.lcChange ch dst kind) := by
  unfold Mss.lcChange
  dsimp only
  split
  · refine Mss.fusesGrow.lcWipe ?_ _ _ _ _ _ _ _ _
    exact h.lcFuse dst hd
  · split
    · split
      · refine Mss.fusesGrow.lcWipe ?_ _ _ _ _ _ _ _ _
        exact (h.lcFuse dst hd).identity _ fun _ => rfl
      · refine Mss.fusesGrow.lcWipe ?_ _ _ _ _ _ _ _ _
        exact (((h.reserveLeaf _).putBuf ch _).lcFuse dst ((Mss.lcBuf_otp ..).symm ▸ hd)).identity _ fun _ => rfl
    · refine Mss.fusesGrow.lcWipe ?_ _ _ _ _ _ _ _ _
      exact (h.lcFuse dst hd).identity _ fun _ => rfl

/-! ### The log and the supply (R442 to R444, R492) -/

theorem Mss.fusesGrow.advance (h : m.fusesGrow n) : m.fusesGrow n.advance := by
  rw [Mss.advance_eq]
  exact .ite _ ((h.wr _ _ rfl).wr _ _ rfl) (h.wr _ _ rfl)

theorem Mss.fusesGrow.onLog (h : m.fusesGrow n) (f : Log → Log) : m.fusesGrow (n.onLog f) := h.of_parts rfl rfl

theorem Mss.fusesGrow.go (h : m.fusesGrow n) : m.fusesGrow n.go := by
  unfold Mss.go
  refine .ite _ h ?_
  extract_lets n1 r n2 n3
  have h1 : m.fusesGrow n1 := by
    refine .ite _ h ?_
    split
    · rename_i l _
      exact Mss.fusesGrow.loadBody (Mss.fusesGrow.of_parts (p := { n with log := l }) h rfl rfl) _
    · exact h
  have h3 : m.fusesGrow n3 := (h1.onLog _).count r
  exact .ite _ (h3.lifeAdd (by decide) 1).advance ((h3.wr _ _ rfl).onLog _)

theorem Mss.fusesGrow.written (h : m.fusesGrow n) (fail0 fail1 : Bool) : m.fusesGrow (n.written fail0 fail1) := by
  unfold Mss.written
  split
  · exact h
  · extract_lets put0 put1 n1 n2 n3 n4
    have h1 : m.fusesGrow n1 := h.onLog _
    have h2 : m.fusesGrow n2 := .ite _ h1 (h1.lifeAdd (by decide) 1)
    have h3 : m.fusesGrow n3 := (h2.wr _ _ rfl).advance
    have h4 : m.fusesGrow n4 := .ite _ (h3.retire 0 1) h3
    exact .ite _ (h4.retire 1 1) h4

theorem Mss.fusesGrow.powerDown (h : m.fusesGrow n) : m.fusesGrow n.powerDown := by
  unfold Mss.powerDown
  exact .ite _ h ((h.draw 3).of_parts rfl rfl)

theorem Mss.fusesGrow.recoverLog (h : m.fusesGrow n) : m.fusesGrow n.recoverLog := by
  unfold Mss.recoverLog
  extract_lets slot ok r? r n1
  have h1 : m.fusesGrow n1 := h.onLog _
  exact .ite _ h (.ite _ h1.advance h1)

/-- KEY_STAT outlives the supply (R487). -/
theorem get_copyRegs_dv (src r : RegMap) : (copyRegs src mssKept r).get KEY_STAT_DV = src.get KEY_STAT_DV := by
  have hmem : KEY_STAT_DV.addr ∈ mssKept := List.mem_append_left _ (by decide)
  rw [RegMap.get, word_copyRegs, if_pos hmem, RegMap.get]

/-- Power-on keeps the fuses and KEY_STAT; a change in preparation ends (R468, R492). -/
theorem Mss.fusesGrow.powerOn (h : m.fusesGrow n) (readOk vsupM : Bool) : m.fusesGrow (n.powerOn readOk vsupM) := by
  unfold Mss.powerOn
  extract_lets imageOk regs key0 key upd0 n1 n2 n3 n4 n5 n6
  have hdv : regs.get KEY_STAT_DV = n.regs.get KEY_STAT_DV := get_copyRegs_dv _ _
  clear_value regs
  have h1 : m.fusesGrow n1 := ⟨⟨fun e => absurd e (by decide : ¬ 0 = 2), h.ordered.2⟩, h.otp, fun hm => by
    have hn := h.dv hm
    rwa [Mss.is, Mss.rd, ← hdv] at hn⟩
  have h3 : m.fusesGrow n3 := Mss.fusesGrow.recoverLog (.showId (.showKeys ((h1.wr _ _ rfl).wr _ _ rfl)))
  refine .ite _ ?_ h3
  have h4 : m.fusesGrow n4 := h3.loadImage
  have h5 : m.fusesGrow n5 := .ite _ h4 (h4.commit _)
  have h6 : m.fusesGrow n6 := h5.armStep.record _ _ _
  clear_value n6
  exact h6.of_parts rfl rfl

end Sys2Proof.Machine
end

section
/-! PROOF. Where a die's fuses gain bits (R464), and the parts of a Folio, which leave them. -/

namespace Sys2Proof.Machine

/-- Slot `k` of the map holds the hash of `o`, or its union with that of `p`. -/
def Otp.joinedAt (o p : Otp) (k : Nat) (m : KMap (BitVec 256)) : Prop :=
  kget 0 m k = kget 0 o.hash k ∨ kget 0 m k = kget 0 o.hash k ||| kget 0 p.hash k

theorem Otp.joinedAt_foldl (o p : Otp) (k : Nat) (l : List Nat) {m : KMap (BitVec 256)} (hm : o.joinedAt p k m) :
    o.joinedAt p k (l.foldl (fun m i =>
      if p.fused.getLsbD i then kset 0 m i (kget 0 o.hash i ||| kget 0 p.hash i) else m) m) := by
  induction l generalizing m with
  | nil => exact hm
  | cons i l ih =>
    rw [List.foldl_cons]
    split
    · by_cases e : k = i
      · subst e
        exact ih (.inr (kget_kset_self ..))
      · exact ih (by rwa [joinedAt, kget_kset_ne _ _ _ e])
    · exact ih hm

theorem Otp.grows_join (o p : Otp) : o.grows (o.join p) := by
  refine ⟨fun k _ => ?_, fun k _ h => ?_, fun k _ h => ?_, le_max_left _ _, le_max_left _ _⟩
  · rcases Otp.joinedAt_foldl o p k (List.range 4) (.inl rfl : o.joinedAt p k o.hash) with e | e
    · rw [Otp.join, e, BitVec.and_self]
    · rw [Otp.join, e]
      ext i
      simp +contextual
  · simp [Otp.join, h]
  · simp [Otp.join, h]

theorem State.part_otp (s : State) (c : Channel) (size : Nat) (part : FolPart) : (s.part c size part).otp = c.otp := by
  unfold State.part
  dsimp only
  split
  · split
    · split
      · exact (State.toPeer_otp _ _).trans ((Channel.untried_otp _ _).trans (Channel.rejectSrc_otp _ _ _))
      · exact (Channel.loadFails_otp _).trans (Channel.rejectSrc_otp _ _ _)
    · exact State.rejected_otp _ _ _
  · split
    · rfl
    · exact State.rejected_otp _ _ _
  · split
    · rfl
    · split
      · exact State.rejected_otp _ _ _
      · exact (Channel.folUp_otp _ _).trans (Channel.otp_wr _ _ _)
  · split
    · rfl
    · split
      · exact State.rejected_otp _ _ _
      · exact (Channel.folUp_otp _ _).trans (Channel.otp_wr _ _ _)
  · have hbody : ∀ v f,
    ((c.wr FOL_STAT_IGNREC v).folUp f).otp = c.otp := fun v f => (Channel.folUp_otp _ _).trans (Channel.otp_wr _ _ _)
    split
    · rfl
    · split
      · exact (State.rejected_otp _ _ _).trans (hbody _ _)
      · exact (Channel.acceptFolio_otp _).trans (hbody _ _)

/-- The fuses of the die take in the MSS's (R464). -/
theorem State.answerFolio_grows (s : State) (c : Channel) : c.otp.grows (s.answerFolio c).otp := by
  unfold State.answerFolio
  dsimp only
  rw [State.nextSrc_otp, Channel.folUp_otp]
  exact Otp.grows_join _ _

theorem Channel.servedBy_grows (c p : Channel) : c.otp.grows (c.servedBy p).otp := Otp.grows_join _ _
end Sys2Proof.Machine
end

section
/-! PROOF. The operations of the machine and the one-time-programmable bits of its four fuse blocks (R462): the
channels' dies and the management subsystem's. -/

namespace Sys2Proof.Machine

variable {s t u : State} {m n : Mss}

/-- From `s` to `t` no OTP bit and not DV have been cleared, and the management subsystem's fuses are in order. -/
structure State.fusesGrow (s t : State) : Prop where
  mss : s.mss.fusesGrow t.mss
  dies : ∀ ch, (s.chan ch).otp.grows (t.chan ch).otp

theorem State.fusesGrow.refl (hs : s.fusesOrdered) : s.fusesGrow s :=
  ⟨.refl (s.fusesOrdered_iff.1 hs), fun _ => .refl _⟩

theorem State.fusesGrow.ite (c : Prop) [Decidable c] (h : s.fusesGrow t) (k : s.fusesGrow u) :
    s.fusesGrow (if c then t else u) := by
  split <;> assumption

/-- A die whose fuses at most gain bits takes a channel's place. -/
theorem State.fusesGrow.setDie (h : s.fusesGrow t) (ch : Chan) (x : Channel) (hx : (t.chan ch).otp.grows x.otp) :
    s.fusesGrow (t.setChan ch x) := by
  refine ⟨by rw [State.mss_setChan]; exact h.mss, fun k => ?_⟩
  by_cases e : k = ch
  · subst e
    rw [State.chan_setChan]
    exact (h.dies k).trans hx
  · rw [State.chan_setChan_ne _ _ e]
    exact h.dies k

theorem State.fusesGrow.setChan (h : s.fusesGrow t) (ch : Chan) (x : Channel) (hx : x.otp = (t.chan ch).otp) :
    s.fusesGrow (t.setChan ch x) := h.setDie ch x (.of_eq hx)

/-- The fuses of a channel's die stand. A structure, so that where it is used channels are compared, not fuses. -/
structure Channel.otpStands (c d : Channel) : Prop where
  eq : d.otp = c.otp

theorem State.fusesGrow.on (h : s.fusesGrow t) (ch : Chan) {f : Channel → Channel}
    (hf : ∀ c, Channel.otpStands c (f c)) : s.fusesGrow (t.on ch f) := h.setChan ch _ (hf _).eq

/-- A change of a channel under a condition, as in `State.onLive`, `State.onPower`, `State.onLit`. -/
theorem Channel.otpStands.onIf {f : Channel → Channel} (hf : ∀ c, Channel.otpStands c (f c))
    (p : Prop) [Decidable p] (c : Channel) : c.otpStands (if p then f c else c) := ⟨by rw [ite_otp, (hf c).eq, ite_self]⟩

theorem State.fusesGrow.onLive (h : s.fusesGrow t) (ch : Chan) {f : Channel → Channel}
    (hf : ∀ c, Channel.otpStands c (f c)) : s.fusesGrow (t.onLive ch f) := h.on ch fun c => Channel.otpStands.onIf hf _ c

theorem State.fusesGrow.onPower (h : s.fusesGrow t) (ch : Chan) {f : Channel → Channel}
    (hf : ∀ c, Channel.otpStands c (f c)) : s.fusesGrow (t.onPower ch f) :=
  h.on ch fun c => ⟨by rw [Channel.ite_otp, (hf c).eq, ite_self]⟩

theorem State.fusesGrow.onLit (h : s.fusesGrow t) (ch : Chan) {f : Channel → Channel}
    (hf : ∀ c, Channel.otpStands c (f c)) : s.fusesGrow (t.onLit ch f) :=
  h.on ch fun c => ⟨by rw [Channel.ite_otp, (hf c).eq, ite_self]⟩

theorem State.fusesGrow.onCan (h : s.fusesGrow t) (ch : Chan) {f : Bool → Channel → Channel}
    (hf : ∀ b c, Channel.otpStands c (f b c)) : s.fusesGrow (t.onCan ch f) :=
  h.onLive ch fun c => Channel.otpStands.onIf (hf _) _ c

theorem State.fusesGrow.onMssAt (h : s.fusesGrow t) {f : Mss → Mss} (hf : s.mss.fusesGrow (f t.mss)) :
    s.fusesGrow (t.onMss f) := ⟨hf, fun ch => by rw [State.chan_onMss]; exact h.dies ch⟩

/-- A change of the management subsystem that clears no fuse. -/
theorem State.fusesGrow.onMss (h : s.fusesGrow t) {f : Mss → Mss}
    (hf : ∀ {n : Mss}, s.mss.fusesGrow n → s.mss.fusesGrow (f n)) : s.fusesGrow (t.onMss f) := h.onMssAt (hf h.mss)

theorem State.fusesGrow.onIf (h : s.fusesGrow t) (c : Prop) [Decidable c] (ch : Chan) {f : Channel → Channel}
    (hf : ∀ c, Channel.otpStands c (f c)) : s.fusesGrow (if c then t.on ch f else t) := .ite c (h.on ch hf) h

theorem State.fusesGrow.onMssIf (h : s.fusesGrow t) (c : Prop) [Decidable c] {f : Mss → Mss}
    (hf : ∀ {n : Mss}, s.mss.fusesGrow n → s.mss.fusesGrow (f n)) : s.fusesGrow (if c then t.onMss f else t) :=
  .ite c (h.onMss hf) h

/-- The same change of each of the three channels. -/
theorem State.fusesGrow.onAll (h : s.fusesGrow t) {f : Channel → Channel} (hf : ∀ c, Channel.otpStands c (f c)) :
    s.fusesGrow (((t.on .A f).on .B f).on .C f) := ((h.on .A hf).on .B hf).on .C hf

/-! ### Links, heartbeats and power -/

theorem State.fusesGrow.showLost (h : s.fusesGrow t) : s.fusesGrow t.showLost := by
  have hf : ∀ p c, Channel.otpStands c (if c.alive then c.flag PWR_STAT_MSSLOST p
      else if p && decide (4 ≤ c.rd PWR_STAT_RUNG) then c.exitDeep else c) := fun p c =>
    ⟨by simp only [Channel.ite_otp, Channel.flag_otp, Channel.exitDeep_otp, ite_self]⟩
  exact h.onAll (hf _)

theorem State.fusesGrow.hearTx (h : s.fusesGrow t) (ch : Chan) : s.fusesGrow (t.hearTx ch) :=
  .ite _ h (h.onAll fun c => Channel.otpStands.onIf (fun c => ⟨c.canUp_otp _⟩) _ c)

theorem State.fusesGrow.closePorts (h : s.fusesGrow t) (all : Bool) : s.fusesGrow (t.closePorts all) :=
  have hf := fun c : Channel => Channel.otpStands.mk c.closePort_otp
  .onMssIf (.onIf (.onIf (.onIf h _ .A hf) _ .B hf) _ .C hf) _ fun k => k.of_parts rfl rfl

theorem State.fusesGrow.resetAll (h : s.fusesGrow t) : s.fusesGrow t.resetAll := by
  have one : ∀ {u : State} (p : Bool) (ch : Chan), s.fusesGrow u →
      s.fusesGrow (if p then u.onLive ch fun c => if c.mayReset then (c.reset 4 0).errRefresh else c.refuse else u) :=
    fun p ch k => .ite _ (k.onLive ch fun c => ⟨by simp only [Channel.ite_otp, Channel.errRefresh_otp,
      Channel.reset_otp, Channel.refuse_otp, ite_self]⟩) k
  exact one _ .C (one _ .B (one _ .A h))

theorem State.fusesGrow.ackCommit (h : s.fusesGrow t) : s.fusesGrow t.ackCommit := by
  have hf : ∀ c : Channel, c.otpStands (if c.voting || c.isShadow then
      (c.herdUp fun h => { h with commitPend := false }).showHerd else c) := fun c =>
    ⟨by simp only [Channel.ite_otp, Channel.showHerd_otp, Channel.herdUp_otp, ite_self]⟩
  exact ((h.onLive _ hf).onLive _ hf).onLive _ hf

theorem State.fusesGrow.drain (h : s.fusesGrow t) (ch : Chan) : s.fusesGrow (t.drain ch) := by
  unfold State.drain
  dsimp only
  split
  · exact h
  · refine .ite _ (State.fusesGrow.onMss (h.on ch fun c => ⟨by simp only [Channel.otp_wr]⟩) fun k => ?_) h
    have kp := fun c f => (k.hear c).onPort ch f
    have hi : 64 * ch.idx + 63 < 1024 := by cases ch <;> decide
    exact Mss.fusesGrow.of_parts (.ite _ (kp _ _) ((kp _ _).lifeAdd hi _)) rfl rfl

theorem State.fusesGrow.divergeReport (h : s.fusesGrow t) (ch : Chan) : s.fusesGrow (t.divergeReport ch) := by
  unfold State.divergeReport
  dsimp only
  split
  · exact .ite _ (h.onMss fun k => (k.hear _).onLog _) h
  · exact h

/-- A heartbeat reaches one channel (R455). -/
theorem State.fusesGrow.beat (h : s.fusesGrow t) (c : Prop) [Decidable c] (ch : Chan) {f : Channel → Channel}
    (g : Port → Port) (hf : ∀ c, Channel.otpStands c (f c)) :
    s.fusesGrow (if c then (t.on ch f).onMss fun m => (m.onPort ch g).showPorts else t) :=
  .ite c ((h.on ch hf).onMss fun k => (k.onPort ch g).showPorts) h

theorem State.fusesGrow.heartbeat (h : s.fusesGrow t) : s.fusesGrow t.heartbeat := by
  have hf : ∀ c : Channel, c.otpStands { c with hbLost := false, mssVote := false } := fun _ => ⟨rfl⟩
  exact .showLost (.beat (.beat (.beat h _ .A _ hf) _ .B _ hf) _ .C _ hf)

theorem State.fusesGrow.offCheck (h : s.fusesGrow t) : s.fusesGrow t.offCheck :=
  .ite _ (h.onMss fun k => k.of_parts rfl rfl) h

/-- A supply has gone (R17, R73). -/
theorem State.fusesGrow.railCheck (h : s.fusesGrow t) : s.fusesGrow t.railCheck :=
  .ite _ h.offCheck (State.fusesGrow.showLost (h.onMss fun k => k.powerDown))

theorem State.fusesGrow.wake (h : s.fusesGrow t) (w : WakeEvt) : s.fusesGrow (t.wake w) := by
  refine .ite _ h (.ite _ ?_ (.ite _ ?_ h))
  · refine State.fusesGrow.onMss (h.onAll fun c => ⟨c.wakeUp_otp _ _⟩) fun k => .ite _ ?_ k
    exact (k.withRung 0).record _ _ _
  · exact State.fusesGrow.onMss (h.onAll fun c => ⟨c.wakeHold_otp _ _⟩) fun k => .ite _ (k.record _ _ _) k

/-! ### Requests of the MP (R29) -/

theorem State.fusesGrow.reply (h : s.fusesGrow t) (ch : Chan) (ok : Bool) (ws : List Word) :
    s.fusesGrow (t.reply ch ok ws) := h.onMss fun k => k.onPort _ _

theorem State.fusesGrow.mpAsks (h : s.fusesGrow t) (ch : Chan) (ok : Bool) {f : Channel → Channel}
    (hf : ∀ c, Channel.otpStands c (f c)) : s.fusesGrow (t.mpAsks ch ok f) :=
  .ite _ ((h.on _ fun c => ⟨by rw [Channel.ite_otp, (hf c).eq, Channel.refuse_otp, ite_self]⟩).reply _ _ _) h

/-! ### Keys and the update path -/

theorem State.fusesGrow.openPorts (h : s.fusesGrow t) (mask : Nat) : s.fusesGrow (t.openPorts mask) := by
  unfold State.openPorts
  extract_lets f t1
  have hf : ∀ ch {u}, s.fusesGrow u → s.fusesGrow (f ch u) := fun ch _ k =>
    .ite _ (k.onLive ch fun c => ⟨by rw [Channel.ite_otp, ite_self]⟩) k
  have h1 : s.fusesGrow t1 := (hf .C (hf .B (hf .A h))).onMss fun k => k.onKey _ fun _ => rfl
  exact .onMssIf h1 _ fun k => k.of_parts rfl rfl

/-- A life-cycle change leads to a later state (R468). -/
theorem State.lc_le_lcNext (s : State) (kind : Nat) (h : s.lcNext kind ≠ 0) : s.mss.key.otp.lc ≤ s.lcNext kind := by
  unfold State.lcNext at h ⊢
  dsimp only at h ⊢
  split_ifs at h ⊢ <;> omega

theorem State.fusesGrow.tokenAct (h : s.fusesGrow t) (ch : Chan) (cmd : Nat) (tk : List Byte) :
    s.fusesGrow (t.tokenAct ch cmd tk) := by
  have refuse : ∀ slot, s.fusesGrow (t.onMss fun m => m.keyResult ch cmd 15 0 (tkKind tk) slot) :=
    fun slot => h.onMss fun k => k.keyResult _ _ _ _ _ _
  unfold State.tokenAct
  dsimp only
  refine .ite _ (.ite _ (refuse _) ?_) (.ite _ (.ite _ (refuse _) ?_) (.ite _ (.ite _ (refuse _) ?_) ?_))
  · exact h.onMss fun k => k.fuseDone _ _ _ _ _
  · exact h.onMss fun k => (k.revoke _).keyResult _ _ _ _ _ _
  · exact (h.openPorts _).onMss fun k => k.keyResult _ _ _ _ _ _
  · split
    · exact refuse _
    · rename_i hdst
      have hlc := t.lc_le_lcNext _ hdst
      refine .ite _ (State.fusesGrow.resetAll (h.onMssAt (h.mss.lcChange _ _ _ hlc))) ?_
      exact h.onMssAt (Mss.fusesGrow.showId (h.mss.burn _ (.refl _) ⟨fun _ => hlc, h.mss.ordered.2⟩))

theorem State.fusesGrow.token (h : s.fusesGrow t) (ch : Chan) (cmd : Nat) (tk : List Byte) :
    s.fusesGrow (t.token ch cmd tk) := by
  have err : ∀ e, s.fusesGrow (t.onMss fun m => m.keyResult ch cmd e 0 (tkKind tk) 0) :=
    fun e => h.onMss fun k => k.keyResult _ _ _ _ _ _
  refine .ite _ (err _) (.ite _ (err _) (.ite _ (err _) (.ite _ (err _) ?_)))
  exact State.fusesGrow.tokenAct (h.onMss fun k => k.useChallenge tk) _ _ _

theorem State.fusesGrow.fuseCmd (h : s.fusesGrow t) (ch : Chan) : s.fusesGrow (t.fuseCmd ch) := by
  refine .ite _ (h.onMss fun k => k.fuseDone _ _ _ _ _) (.ite _ (.ite _ (h.token _ _ _) ?_) ?_)
  · exact h.onMss fun k => k.keyResult _ _ _ _ _ _
  · exact h.onMss fun k => k.keyResult _ _ _ _ _ _

theorem State.fusesGrow.keyDone (h : s.fusesGrow t) (ch : Chan) : s.fusesGrow (t.keyDone ch) := by
  refine .ite _ h ?_
  split
  · exact h.onMss fun k => k.challengeDone ch
  · exact State.fusesGrow.token (h.onMss fun k => k.onPort _ _) _ _ _
  · exact h.onMss fun k => k.attestDone ch _
  · exact h.fuseCmd ch
  · exact h.onMss fun k => k.keyResult _ _ _ _ _ _
  · exact h

theorem State.fusesGrow.updArm (h : s.fusesGrow t) (ch : Chan) (cmd : Nat) : s.fusesGrow (t.updArm ch cmd) := by
  have res : ∀ e, s.fusesGrow (t.onMss fun m => m.updResult cmd e) := fun e => h.onMss fun k => k.updResult _ _
  refine .ite _ (res _) (.ite _ (res _) (.ite _ (res _) (.ite _ (res _) (.ite _ (res _) ?_))))
  exact h.onMss fun k => Mss.fusesGrow.onUpd (.mark (((k.wr _ _ rfl).wr _ _ rfl).wr _ _ rfl) _ _) _

theorem State.fusesGrow.commit (h : s.fusesGrow t) : s.fusesGrow t.commit := by
  unfold State.commit
  split
  · have hc : ∀ i, s.fusesGrow (t.onMss fun m => m.commit i) := fun i => h.onMss fun k => k.commit i
    refine .ite _ (hc _).ackCommit (.ite _ (.ite _ (.ite _ (hc _) h) (.ite _ ?_ h)) h)
    exact h.onMss fun k => ((k.mark _ _).activate _).onUpd _
  · exact h

end Sys2Proof.Machine
end

section
/-! PROOF. Register accesses and the debug ports clear no OTP bit: KEY_STAT takes no write (R460, R487), and what a
channel's registers request leaves its die's fuses (R10, R11). -/

namespace Sys2Proof.Machine

variable {s t : State} {m n : Mss}

/-- The command answers a next state, up to which no OTP bit has been cleared. -/
def Out.fusesGrow (s : State) (o : Out) : Prop := ∃ t, o = .next t ∧ s.fusesGrow t

theorem Out.fusesGrow.next (h : s.fusesGrow t) : Out.fusesGrow s (.next t) := ⟨t, rfl, h⟩

theorem Out.fusesGrow.ite {o o' : Out} (c : Prop) [Decidable c] (h : Out.fusesGrow s o) (k : Out.fusesGrow s o') :
    Out.fusesGrow s (if c then o else o') := by
  split <;> assumption

/-- The state that a command leaves, where a register write requests it. -/
theorem Out.fusesGrow.state {o : Out} (h : Out.fusesGrow s o) (u : State) : s.fusesGrow (Out.state u o) := by
  obtain ⟨t, rfl, k⟩ := h
  exact k

/-! ### The MP's own registers (R460) -/

/-- The row of KEY_STAT: read-only (R487). -/
def rowKeyStat : RegRow :=
  ⟨KEY_STAT, 0x4, 1, [(31, 1, .ro), (26, 2, .ro), (16, 7, .ro), (12, 4, .ro), (8, 4, .ro), (4, 4, .ro), (3, 1, .ro),
    (0, 3, .ro)]⟩

theorem findRow_keyStat : findRow (mpRows ++ keyRows) KEY_STAT = some rowKeyStat := by decide

theorem RegMap.dv_write_keyStat (r : RegMap) (v : Nat) :
    (r.setWord KEY_STAT (BitVec.ofNat 32 (writeFlds false (r.word KEY_STAT).toNat v rowKeyStat.flds))).get KEY_STAT_DV =
      r.get KEY_STAT_DV := by
  simp [RegMap.get, writeFlds, rowKeyStat]
  omega

/-- A write by the access types of a register of the MP leaves DV. -/
theorem Mss.fusesGrow.plainWrite (h : m.fusesGrow n) (a : Nat) (v : Word) {r : RegRow}
    (hr : findRow (mpRows ++ keyRows) a = some r) : m.fusesGrow { n with
      regs := n.regs.setWord a (BitVec.ofNat 32 (writeFlds false (n.regs.word a).toNat v.toNat r.flds)) } := by
  by_cases ha : KEY_STAT = a
  · subst ha
    cases findRow_keyStat.symm.trans hr
    exact h.beside rfl (by rw [Mss.is, Mss.is, Mss.rd, Mss.rd, RegMap.dv_write_keyStat])
  · exact h.setWord a _ ha

theorem execMssHbKick_fusesGrow (h : s.fusesGrow t) : Out.fusesGrow s (execMssHbKick t) :=
  .next (.ite _ (State.fusesGrow.heartbeat (h.onMss fun k => k.onSup _)) h)

theorem execCalendarUpdate_fusesGrow (h : s.fusesGrow t) (v : Word) : Out.fusesGrow s (execCalendarUpdate v t) :=
  .next (h.onMss fun k => .ite _ (k.calendar _) k)

theorem execLogGo_fusesGrow (h : s.fusesGrow t) : Out.fusesGrow s (execLogGo t) :=
  .next (h.onMss fun k => .ite _ k.go k)

/-- A store of the MP (R460). -/
theorem State.fusesGrow.mpWrite (h : s.fusesGrow t) (a : Nat) (v : Word) (z : AccSize) :
    s.fusesGrow (t.mpWrite a v z) := by
  have bad : s.fusesGrow (t.onMss fun m => { m with bus := .error }) := h.onMss fun k => k.of_parts rfl rfl
  unfold State.mpWrite
  dsimp only
  refine .ite _ h (.ite _ (h.onMss fun k => k.of_parts rfl rfl) (.ite _ bad ?_))
  split
  · exact bad
  · rename_i r hr
    have ok : s.fusesGrow (t.onMss fun m => { m with bus := .ok 0 }) := h.onMss fun k => k.of_parts rfl rfl
    have put := State.fusesGrow.onMss ok fun k => k.plainWrite a v hr
    refine .ite _ (.ite _ ?_ ok) (.ite _ ?_ (.ite _ (.ite _ ?_ ok) (.ite _ (put.onMss fun k => k.onLog _) put)))
    · exact (execMssHbKick_fusesGrow ok).state _
    · exact (execCalendarUpdate_fusesGrow ok v).state _
    · exact (execLogGo_fusesGrow ok).state _

/-! ### The mailbox -/

theorem State.fusesGrow.keyWrite (h : s.fusesGrow t) (ch : Chan) (a : Nat) (v : Word) :
    s.fusesGrow (t.keyWrite ch a v) := by
  have start : ∀ cmd, s.fusesGrow (if t.served ch then t.onMss fun m => m.keyStart ch cmd else t) :=
    fun cmd => h.onMssIf _ fun k => k.keyStart ch cmd
  refine .ite _ ?_ (.ite _ (h.onMss fun k => k.onPort _ _) (.ite _ (h.onMss fun k => k.onPort _ _) h))
  split
  · exact start 1
  · exact start 2
  · exact start 3
  · exact start 4
  · exact start 5
  · exact h

theorem State.fusesGrow.updWrite (h : s.fusesGrow t) (ch : Chan) (a : Nat) (v : Word) :
    s.fusesGrow (t.updWrite ch a v) := by
  unfold State.updWrite
  split
  · dsimp only
    split
    · exact h.onMssIf _ fun k => k.updOpen ch
    · exact h.onMssIf _ fun k => k.updBlock ch _
    · exact h.onMssIf _ fun k => k.updVerify ch
    · exact .ite _ (h.updArm ch 4) h
    · exact .ite _ (h.updArm ch 5) h
    · exact h.onMssIf _ fun k => k.updDiscard ch
    · exact h
  · split
    · rename_i ha
      refine h.onMss fun k => .ite _ (k.setWord a v ?_) (k.updResult _ _)
      rcases ha with rfl | rfl <;> decide
    · exact h

theorem execLogReadRequest_fusesGrow (h : s.fusesGrow t) (ch : Chan) (v : Word) :
    Out.fusesGrow s (execLogReadRequest ch v t) := .next (h.onMss fun k => .ite _ (k.onPort _ _) k)

theorem State.fusesGrow.mailboxWrite (h : s.fusesGrow t) (ch : Chan) (off : Nat) (v : Word) :
    s.fusesGrow (t.mailboxWrite ch off v) := by
  have bus : ∀ b, s.fusesGrow (t.on ch fun c => { c with bus := b }) := fun _ => h.on ch fun _ => ⟨rfl⟩
  have ok := bus (.ok 0)
  have bad := bus .error
  refine .ite _ bad (.ite _ ?_ (.ite _ ?_ (.ite _ ?_ (.ite _ ?_ (.ite _ ok
    (.ite _ (.ite _ (ok.keyWrite _ _ _) ok) (.ite _ (.ite _ (ok.updWrite _ _ _) ok) (.ite _ ?_ (.ite _ ?_ bad)))))))))
  · exact ok.on ch fun c => ⟨c.otp_wrWord _ _⟩
  · exact ok.onLive ch fun c => ⟨c.mailboxMsg_otp _⟩
  · exact .ite _ (ok.onMss fun k => k.onPort _ _) ok
  · exact (execLogReadRequest_fusesGrow ok ch v).state _
  · exact .ite _ ok (ok.onMss fun k => .ite _ (k.onUpd _) (k.updResult _ _))
  · exact .ite _ (ok.onMss fun k => k.onPort _ _) ok

/-! ### Commands that a register write requests -/

theorem execHrdDone_fusesGrow (h : s.fusesGrow t) (ch : Chan) (task : Fin 256) (crc : Word) :
    Out.fusesGrow s (execHrdDone ch task crc t) := by
  refine .next (h.onLive ch fun c => ⟨?_⟩)
  split
  · simp only [Channel.ite_otp, Channel.shadowMismatch_otp, Channel.jobEnd_otp, ite_self]
  · rfl

theorem execHart1Release_fusesGrow (h : s.fusesGrow t) (ch : Chan) (v : Word) :
    Out.fusesGrow s (execHart1Release ch v t) :=
  .next (h.onLive ch fun c => ⟨by simp only [Channel.ite_otp, Channel.otp_wr, ite_self]⟩)

theorem execFceSetptWrite_fusesGrow (h : s.fusesGrow t) (ch : Chan) (eng : Fin 2) (v : Word) :
    Out.fusesGrow s (execFceSetptWrite ch eng v t) :=
  .next (h.onLive ch fun c => ⟨by simp only [Channel.ite_otp, Channel.otp_wr, Channel.pumpSetpt_otp, ite_self]⟩)

theorem execFceSolnSetWrite_fusesGrow (h : s.fusesGrow t) (ch : Chan) (k : Fin 4) (v : Word) :
    Out.fusesGrow s (execFceSolnSetWrite ch k v t) := .next (h.onLive ch fun c => ⟨by exact c.otp_wr _ _⟩)

theorem execEncCmpvWrite_fusesGrow (h : s.fusesGrow t) (ch : Chan) (unit : Fin 6) (v : Word) :
    Out.fusesGrow s (execEncCmpvWrite ch unit v t) :=
  .next (h.onLive ch fun c => ⟨by simp only [Channel.ite_otp, Channel.otp_wr, ite_self]⟩)

theorem execPortSelect_fusesGrow (h : s.fusesGrow t) (ch : Chan) (port : Fin 4) (v : Word) :
    Out.fusesGrow s (execPortSelect ch port v t) :=
  .next (h.onLive ch fun c => ⟨by simp only [Channel.ite_otp, Channel.selectPort_otp, ite_self]⟩)

theorem execTxCommit_fusesGrow (h : s.fusesGrow t) (ch : Chan) (port : Fin 4) (v : Word) :
    Out.fusesGrow s (execTxCommit ch port v t) :=
  .next (h.onLive ch fun c => ⟨by simp only [Channel.ite_otp, Channel.commitPort_otp, ite_self]⟩)

theorem execCanRxPop_fusesGrow (h : s.fusesGrow t) (ch : Chan) : Out.fusesGrow s (execCanRxPop ch t) :=
  .next (h.onLive ch fun c => ⟨by simp only [Channel.ite_otp, Channel.showRx_otp, Channel.canUp_otp, ite_self]⟩)

theorem execCanTxGo_fusesGrow (h : s.fusesGrow t) (ch : Chan) (v : Word) : Out.fusesGrow s (execCanTxGo ch v t) :=
  .next (State.fusesGrow.hearTx (h.onLive ch fun c => ⟨by
    simp only [Channel.ite_otp, Channel.otp_wr, Channel.showBusy_otp, Channel.txGo_otp, ite_self]⟩) ch)

theorem Channel.repairRequest_otp (c : Channel) (v : Nat) :
    (if v.testBit 3 && c.voting && c.health != 0 then c.hrdUp fun x => { x with repair := true }
      else if v.testBit 3 then c.wr HRD_REQ_REFUSED 1 else c).otp = c.otp := by
  simp only [Channel.ite_otp, Channel.hrdUp_otp, Channel.otp_wr, ite_self]

theorem herdReq_fusesGrow (h : s.fusesGrow t) (ch : Chan) (v : Nat) : Out.fusesGrow s (herdReq ch v t) := by
  have hr : s.fusesGrow (t.onLive ch fun c =>
      if v.testBit 3 && c.voting && c.health != 0 then c.hrdUp fun x => { x with repair := true }
      else if v.testBit 3 then c.wr HRD_REQ_REFUSED 1 else c) := h.onLive ch fun c => ⟨Channel.repairRequest_otp c v⟩
  have hq : ∀ k, Out.fusesGrow s (.next (State.onLive _ ch fun c => c.request k)) :=
    fun k => .next (hr.onLive ch fun c => ⟨c.request_otp k⟩)
  unfold Machine.herdReq
  dsimp only
  split
  · exact hq 1
  · exact hq 2
  · exact hq 3
  · exact .next hr

theorem modeReq_fusesGrow (h : s.fusesGrow t) (ch : Chan) (req : Nat) : Out.fusesGrow s (modeReq ch req t) := by
  unfold Machine.modeReq
  split
  · exact .next (h.onLive ch fun c => ⟨c.requestMode_otp 2⟩)
  · exact .next (h.onLive ch fun c => ⟨c.requestMode_otp 5⟩)
  · exact .next (h.onLive ch fun c => ⟨by
      simp only [Channel.ite_otp, Channel.requestMode_otp, Channel.splitService_otp, ite_self]⟩)
  · exact .next (h.onLive ch fun c => ⟨c.requestMode_otp 7⟩)
  · exact .next h

theorem powerReq_fusesGrow (h : s.fusesGrow t) (ch : Chan) (v : Nat) : Out.fusesGrow s (powerReq ch v t) := by
  unfold Machine.powerReq
  split
  · exact .next (h.onLive ch fun c => ⟨c.p1Request_otp 1⟩)
  · exact .next (h.onLive ch fun c => ⟨by rw [Channel.ite_otp, ite_self]⟩)
  · exact .next h

/-! ### The pair and the engines -/

/-- A write to a block window acts on its channel: the registers that act are requests of a command each (R10, R11). -/
theorem State.fusesGrow.blockWrite (h : s.fusesGrow t) (ch : Chan) (a : Nat) (v : Word) :
    s.fusesGrow (t.blockWrite ch a v) := by
  unfold State.blockWrite
  dsimp only
  refine .ite _ (h.setChan ch _ ((t.chan ch).writeBuf_otp a v)) (.ite _ (h.setChan ch _ ?_) ?_)
  · simp only [Channel.canUp_otp]
  split
  · exact h.setChan ch _ rfl
  · rename_i r _
    have hp : s.fusesGrow (t.setChan ch ((t.chan ch).plainWrite a r v)) := h.setChan ch _ ((t.chan ch).plainWrite_otp
      a r v)
    have hok : s.fusesGrow (t.setChan ch { t.chan ch with bus := .ok 0 }) := h.setChan ch _ rfl
    refine .ite _ ?_ (.ite _ ?_ (.ite _ ((modeReq_fusesGrow hp ch _).state _) (.ite _ ?_ (.ite _ ?_ (.ite _ ?_ (.ite _
      ?_
      (.ite _ ?_ (.ite _ ?_ (.ite _ ((herdReq_fusesGrow hp ch _).state _) (.ite _ ?_ (.ite _ ?_ (.ite _ ?_
      (.ite _ ?_ (.ite _ ?_ (.ite _ ?_ (.ite _ (.ite _ ?_ hok) (.ite _ ?_ (.ite _ ?_ (.ite _ ?_ (.ite _ (.ite _ ?_ hok)
      (.ite _ ?_ (.ite _ ((powerReq_fusesGrow hp ch _).state _) hp))))))))))))))))))))))
    · exact hok.setChan ch _ (State.folCtrl_otp _ _ _)
    · exact hp.on ch fun c => ⟨(Channel.errRefresh_otp _).trans (c.otp_wr _ _)⟩
    · exact h.setChan ch _ ((t.chan ch).writeBlken_otp a r v)
    · exact hok.onLive ch fun c => ⟨c.requestBlkrst_otp v⟩
    · exact hok.onLive ch fun c => ⟨c.requestChrst_otp v⟩
    · exact hok.on ch fun c => ⟨c.kick_otp _⟩
    · exact hp.on ch fun c => ⟨c.errRefresh_otp⟩
    · exact hok.on ch fun c => ⟨(Channel.injStart_otp _ _ _).trans (c.draw_otp _)⟩
    · exact (execHrdDone_fusesGrow (hok.setChan ch _ (Channel.draw_otp _ _)) ch _ _).state _
    · exact hok.onLive ch fun c => ⟨c.cmpInjStart_otp _ _⟩
    · exact (execHart1Release_fusesGrow hok ch v).state _
    · exact (execFceSetptWrite_fusesGrow hok ch 0 v).state _
    · exact (execFceSetptWrite_fusesGrow hok ch 1 v).state _
    · exact (execFceSolnSetWrite_fusesGrow hok ch _ v).state _
    · exact hok.onLive ch fun _ => ⟨rfl⟩
    · exact (execEncCmpvWrite_fusesGrow hok ch _ v).state _
    · exact (execPortSelect_fusesGrow h ch _ v).state _
    · exact (execTxCommit_fusesGrow h ch _ v).state _
    · exact (execCanRxPop_fusesGrow h ch).state _
    · exact (execCanTxGo_fusesGrow h ch v).state _

theorem State.fusesGrow.pairWrite (h : s.fusesGrow t) (ch : Chan) (a : Nat) (v : Word) (z : AccSize) :
    s.fusesGrow (t.pairWrite ch a v z) := by
  unfold State.pairWrite
  split
  · exact h.on ch fun c => ⟨c.store_otp _ _ _ _ _⟩
  · exact .ite _ (h.on ch fun _ => ⟨rfl⟩) (.ite _ (h.mailboxWrite ch _ v) (h.blockWrite ch a v))

theorem State.fusesGrow.engineWrite (h : s.fusesGrow t) (ch : Chan) (ag : Agent) (a : Nat) (v : Word) (z : AccSize) :
    s.fusesGrow (t.engineWrite ch ag a v z) := by
  have bus : ∀ b : Channel → Bus,
    s.fusesGrow (t.on ch fun c => { c with bus := b c }) := fun _ => h.on ch fun _ => ⟨rfl⟩
  unfold State.engineWrite
  dsimp only
  split
  · exact h.on ch fun c => ⟨c.memAccess_otp _ _ _ _⟩
  · refine .ite _ (h.on ch fun c => ⟨c.fbufStore_otp _ _⟩) (.ite _ (bus _) ?_)
    split
    · exact .ite _ (h.blockWrite ch _ v) (bus _)
    · exact bus _


end Sys2Proof.Machine
end

section
/-! PROOF. The debug ports clear no OTP bit (R509, R511, R519). -/

namespace Sys2Proof.Machine

variable {s t : State}

theorem State.fusesGrow.onDbg (h : s.fusesGrow t) (p : DbgPort) (f : Dbg → Dbg) : s.fusesGrow (t.onDbg p f) := by
  cases p with
  | ch c => exact h.on c (f := fun x => { x with dbg := f x.dbg }) fun _ => ⟨rfl⟩
  | mss => exact h.onMss (f := fun m => { m with dbg := f m.dbg }) fun k => k.of_parts rfl rfl

theorem State.fusesGrow.haltReq (h : s.fusesGrow t) (p : DbgPort) (hart : Nat) (hold : Bool) :
    s.fusesGrow (t.haltReq p hart hold) := by
  refine .ite _ h ?_
  cases p with
  | ch c =>
    exact h.on c fun c => ⟨by simp only [Channel.ite_otp, Channel.wantHalt_otp, Channel.haltNow_otp, ite_self]⟩
  | mss => exact h.onMssIf _ fun k => k.of_parts rfl rfl

theorem State.fusesGrow.resumeHart (h : s.fusesGrow t) (p : DbgPort) (hart : Nat) (step : Bool) :
    s.fusesGrow (t.resumeHart p hart step) := by
  have hd := fun f => h.onDbg p f
  refine .ite _ h (.ite _ (hd _) ?_)
  cases p with
  | ch c => exact (hd _).on c fun c => ⟨c.setHalted_otp _ _⟩
  | mss => exact (hd _).onMss fun k => k.of_parts rfl rfl

theorem State.fusesGrow.sbFail (h : s.fusesGrow t) (ch : Chan) (e : Nat) : s.fusesGrow (t.sbFail ch e) := h.onDbg _ _

theorem State.fusesGrow.sysBus (h : s.fusesGrow t) (ch : Chan) (a : Nat) (wr : Option Word) (size : AccSize) :
    s.fusesGrow (t.sysBus ch a wr size) := by
  refine .ite _ h (.ite _ (h.sbFail _ _) (.ite _ (h.sbFail _ _) ?_))
  split
  · have hw : ∀ v b, s.fusesGrow ((t.pairWrite ch a v .word).on ch fun c => { c with bus := b }) :=
      fun v _ => (h.pairWrite ch a v .word).on ch fun _ => ⟨rfl⟩
    exact .ite _ (h.sbFail _ _) (.ite _ ((hw _ _).sbFail _ _) (hw _ _))
  · split
    · exact h.sbFail _ _
    · exact State.fusesGrow.onDbg (.onIf h _ ch fun c => ⟨c.otp_wr _ _⟩) _ _

theorem State.fusesGrow.drawWord (h : s.fusesGrow t) (p : DbgPort) : s.fusesGrow (t.drawWord p).2 := by
  cases p with
  | ch c => exact h.setChan c _ ((t.chan c).draw_otp (2 ^ 32))
  | mss => exact h.onMssAt (f := fun m => (m.draw (2 ^ 32)).2) (h.mss.draw (2 ^ 32))

theorem State.fusesGrow.hartReg (h : s.fusesGrow t) (p : DbgPort) (hart r : Nat) :
    s.fusesGrow (t.hartReg p hart r).2 := by
  unfold State.hartReg
  dsimp only
  split_ifs
  · exact h
  · exact h
  · exact h
  · exact h
  · exact h
  · split
    · exact h
    · dsimp only
      exact (h.drawWord p).onDbg p _

theorem State.fusesGrow.setHartReg (h : s.fusesGrow t) (p : DbgPort) (hart r : Nat) (v : Word) :
    s.fusesGrow (t.setHartReg p hart r v) := by
  unfold State.setHartReg
  exact h.onDbg p _

theorem State.fusesGrow.abstractCmd (h : s.fusesGrow t) (p : DbgPort) (v : Word) : s.fusesGrow (t.abstractCmd p v) := by
  have hd := fun f => h.onDbg p f
  exact .ite _ h (.ite _ (hd _) (.ite _ (hd _) (.ite _ h (.ite _ (h.setHartReg p _ _ _)
    ((h.hartReg p _ _).onDbg p _)))))

theorem State.fusesGrow.dmiBus (h : s.fusesGrow t) (p : DbgPort) (wr : Option Word) : s.fusesGrow (t.dmiBus p wr) := by
  cases p with
  | mss => exact h
  | ch c =>
    have hb : ∀ (big : Bool) a size, s.fusesGrow (if big then t.sbFail c 4 else t.sysBus c a wr size) :=
      fun _ a size => .ite _ (h.sbFail c 4) (h.sysBus c a wr size)
    exact .ite _ ((hb _ _ _).onDbg _ _) (hb _ _ _)

theorem State.fusesGrow.dmcontrol (h : s.fusesGrow t) (p : DbgPort) (v : Word) : s.fusesGrow (t.dmcontrol p v) := by
  have hd := fun f => h.onDbg p f
  refine .ite _ ?_ (.ite _ (hd _) (.ite _ ?_ ((hd _).haltReq p _ _)))
  · cases p with
    | ch c => exact (hd _).on c fun c => ⟨c.otp_wr _ _⟩
    | mss => exact hd _
  · exact (((hd _).haltReq p _ _).onDbg p _).resumeHart p _ _

theorem State.fusesGrow.dmiWrite (h : s.fusesGrow t) (p : DbgPort) (a : Nat) (v : Word) :
    s.fusesGrow (t.dmiWrite p a v) := by
  have hd := fun f => h.onDbg p f
  exact .ite _ (h.dmcontrol p v) (.ite _ h (.ite _ (hd _) (.ite _ (hd _) (.ite _ (h.abstractCmd p v)
    (.ite _ ((hd _).onDbg p _) (.ite _ (.ite _ ((hd _).dmiBus p _) (hd _)) (.ite _ ((hd _).dmiBus p _) h)))))))

theorem State.fusesGrow.dmi (h : s.fusesGrow t) (p : DbgPort) (op : DmiOp) (a : Nat) (v : Word) :
    s.fusesGrow (t.dmi p op a v) := by
  have hd := fun f => h.onDbg p f
  unfold State.dmi
  cases op with
  | nop => exact hd _
  | read => exact .ite _ ((hd _).dmiBus p _) (hd _)
  | write => exact (h.dmiWrite p a v).onDbg p _

end Sys2Proof.Machine
end

section
/-! PROOF. The commands that are one change of one channel and lie beside its die's fuses (R462). -/

namespace Sys2Proof.Machine

open Channel

variable {s t : State}

/-! ### Fault collector and steward -/

theorem execEpinPulseEnd_fusesGrow (h : s.fusesGrow t) (ch : Chan) : Out.fusesGrow s (execEpinPulseEnd ch t) :=
  .next (h.onLive ch fun c => ⟨by simp only [errRefresh_otp]⟩)

theorem execFccEpinHold_fusesGrow (h : s.fusesGrow t) (ch : Chan) (hold : Bool) :
    Out.fusesGrow s (execFccEpinHold ch hold t) :=
  .next (h.onLive ch fun c => ⟨by simp only [flag_otp, errRefresh_otp]⟩)

theorem execInjectionRelease_fusesGrow (h : s.fusesGrow t) (ch : Chan) :
    Out.fusesGrow s (execInjectionRelease ch t) :=
  .next (h.onLive ch fun c => ⟨by simp only [ite_otp, ite_self]⟩)

theorem execCoreWdog_fusesGrow (h : s.fusesGrow t) (ch : Chan) (eng : Fin 4) :
    Out.fusesGrow s (execCoreWdog ch eng t) :=
  .next (h.onLive ch fun c => ⟨by simp only [ite_otp, ite_self, raiseAll_otp, kick_otp]⟩)

theorem execClkFail_fusesGrow (h : s.fusesGrow t) (ch : Chan) (reportArrives : Bool) :
    Out.fusesGrow s (execClkFail ch reportArrives t) :=
  .next (h.onLive ch fun c => ⟨by simp only [ite_otp, ite_self, raise_otp, goSilent_otp]⟩)

/-! ### Core pair and memories -/

theorem execCmpDiv_fusesGrow (h : s.fusesGrow t) (ch : Chan) (group : Fin 64) (pc : Word) :
    Out.fusesGrow s (execCmpDiv ch group pc t) :=
  .next (h.onLive ch fun c => ⟨by simp only [ite_otp, ite_self, diverge_otp]⟩)

theorem execCmpSelf_fusesGrow (h : s.fusesGrow t) (ch : Chan) (kind : SelfKind) (pc : Word) :
    Out.fusesGrow s (execCmpSelf ch kind pc t) :=
  .next (h.onLive ch fun c => ⟨by simp only [ite_otp, ite_self, diverge_otp]⟩)

theorem execDigestDue_fusesGrow (h : s.fusesGrow t) (ch : Chan) : Out.fusesGrow s (execDigestDue ch t) :=
  .next (h.onLive ch fun c => ⟨by simp only [otp_wr, ite_otp, ite_self]⟩)

theorem execSweepStepTimeout_fusesGrow (h : s.fusesGrow t) (ch : Chan) :
    Out.fusesGrow s (execSweepStepTimeout ch t) :=
  .next (h.onLive ch fun c => ⟨by simp only [ite_otp, ite_self, sweepFail_otp]⟩)

theorem execChannelReset_fusesGrow (h : s.fusesGrow t) (ch : Chan) (cause : ResetCause) :
    Out.fusesGrow s (execChannelReset ch cause t) := by
  refine .next (h.onPower ch fun c => ⟨?_⟩)
  split <;> simp only [reset_otp, repower_otp, errRefresh_otp]

theorem execWipeDone_fusesGrow (h : s.fusesGrow t) (ch : Chan) (splitPin : Bool) :
    Out.fusesGrow s (execWipeDone ch splitPin t) :=
  .next (h.on ch fun c => ⟨by simp only [ite_otp, ite_self, wiped_otp]⟩)

theorem execPatrolScrub_fusesGrow (h : s.fusesGrow t) (ch : Chan) (mem : MemId) (addr : Nat) (ecc : Ecc) :
    Out.fusesGrow s (execPatrolScrub ch mem addr ecc t) := by
  refine .next (h.onLive ch fun c => ⟨?_⟩)
  (repeat' split) <;> simp only [eccCe_otp, eccUe_otp]

/-! ### Field control -/

theorem execBridgeSValley_fusesGrow (h : s.fusesGrow t) (ch : Chan) (v : SValley) :
    Out.fusesGrow s (execBridgeSValley ch v t) :=
  .next (h.onPower ch fun c => ⟨by simp only [ite_otp, ite_self, takeVlc_otp, powerValley_otp, valleyS_otp]⟩)

theorem execTripletOverrun_fusesGrow (h : s.fusesGrow t) (ch set : Chan) :
    Out.fusesGrow s (execTripletOverrun ch set t) :=
  .next (h.onLive ch fun c => ⟨by simp only [ite_otp, ite_self, sat_otp, setUp_otp]⟩)

/-! ### Winding sets and the vote -/

theorem execVoteEchoReceived_fusesGrow (h : s.fusesGrow t) (ch set : Chan) (pkt : BitVec 256) (crcOk : Bool) :
    Out.fusesGrow s (execVoteEchoReceived ch set pkt crcOk t) :=
  .next (h.onLive ch fun c => ⟨by simp only [ite_otp, ite_self, sat_otp, takeEcho_otp]⟩)

/-! ### Pump motor and solenoids -/

theorem execPumpSectorDetectDone_fusesGrow (h : s.fusesGrow t) (ch : Chan) (dir : Fin 6) :
    Out.fusesGrow s (execPumpSectorDetectDone ch dir t) :=
  .next (h.onLive ch fun c => ⟨by simp only [otp_wr, ite_otp, ite_self, f1up_otp]⟩)

theorem execPumpHoldEnd_fusesGrow (h : s.fusesGrow t) (ch : Chan) : Out.fusesGrow s (execPumpHoldEnd ch t) :=
  .next (h.onLive ch fun c => ⟨by simp only [otp_wr, ite_otp, ite_self, f1up_otp]⟩)

theorem execPumpRampEnd_fusesGrow (h : s.fusesGrow t) (ch : Chan) : Out.fusesGrow s (execPumpRampEnd ch t) :=
  .next (h.onLive ch fun c => ⟨by simp only [otp_wr, ite_otp, ite_self, f1up_otp]⟩)

theorem execPumpHandoverTimeout_fusesGrow (h : s.fusesGrow t) (ch : Chan) :
    Out.fusesGrow s (execPumpHandoverTimeout ch t) :=
  .next (h.onLive ch fun c => ⟨by simp only [ite_otp, ite_self, pumpFail_otp]⟩)

theorem execPumpRetry_fusesGrow (h : s.fusesGrow t) (ch : Chan) : Out.fusesGrow s (execPumpRetry ch t) :=
  .next (h.onLive ch fun c => ⟨by simp only [ite_otp, ite_self, pumpAttempt_otp]⟩)

theorem execPumpStopTimeout_fusesGrow (h : s.fusesGrow t) (ch : Chan) : Out.fusesGrow s (execPumpStopTimeout ch t) :=
  .next (h.onLive ch fun c => ⟨by simp only [otp_wr, ite_otp, ite_self, raise_otp, f1up_otp, pumpOpen_otp]⟩)

theorem execBridgePValley_fusesGrow (h : s.fusesGrow t) (ch : Chan) (codeU codeV delay : Nat) :
    Out.fusesGrow s (execBridgePValley ch codeU codeV delay t) :=
  .next (h.onPower ch fun c => ⟨by simp only [ite_otp, ite_self, select_otp, settle_otp, valleyP_otp]⟩)

theorem execSolenoidCurrentSample_fusesGrow (h : s.fusesGrow t) (ch : Chan) (n : Fin 4) (ma : Nat) :
    Out.fusesGrow s (execSolenoidCurrentSample ch n ma t) :=
  .next (h.onLive ch fun c => ⟨by simp only [f1up_otp]⟩)

theorem execSolenoidTick_fusesGrow (h : s.fusesGrow t) (ch : Chan) : Out.fusesGrow s (execSolenoidTick ch t) :=
  .next (h.onLive ch fun c => ⟨by simp only [ite_otp, ite_self, raiseAll_otp, solTicks_otp, speedLoop_otp]⟩)

theorem execCarrierMarker_fusesGrow (h : s.fusesGrow t) (ch from_ : Chan) (tb : Packet (BitVec 48)) (latency : Nat) :
    Out.fusesGrow s (execCarrierMarker ch from_ tb latency t) :=
  .next (h.onLive ch fun c => ⟨by simp only [ite_otp, ite_self, sat_otp, marker_otp]⟩)

/-! ### Chopper and link voltage -/

theorem execChopperOn_fusesGrow (h : s.fusesGrow t) (ch : Chan) (link v0 : Nat) :
    Out.fusesGrow s (execChopperOn ch link v0 t) :=
  .next (h.onPower ch fun c => ⟨by simp only [otp_wr, ite_otp, ite_self]⟩)

theorem execChopperOff_fusesGrow (h : s.fusesGrow t) (ch : Chan) : Out.fusesGrow s (execChopperOff ch t) :=
  .next (h.onPower ch fun c => ⟨by simp only [otp_wr]⟩)

theorem execChopperCheck_fusesGrow (h : s.fusesGrow t) (ch : Chan) (v1 : Nat) :
    Out.fusesGrow s (execChopperCheck ch v1 t) := by
  refine .next (h.onPower ch fun c => ⟨?_⟩)
  split <;> simp only [chopCheck_otp]

theorem execLinkOv1_fusesGrow (h : s.fusesGrow t) (ch : Chan) : Out.fusesGrow s (execLinkOv1 ch t) :=
  .next (h.onPower ch fun c => by
    dsimp only
    exact ⟨by simp only [otp_wr, sat_otp, setCauses_otp, raise_otp, pumpOv_otp]⟩)

theorem execLinkOv2_fusesGrow (h : s.fusesGrow t) (ch : Chan) : Out.fusesGrow s (execLinkOv2 ch t) :=
  .next (h.onPower ch fun c => ⟨by simp only [otp_wr, sat_otp, setCauses_otp, raise_otp, pumpOv_otp]⟩)

theorem execLinkUv_fusesGrow (h : s.fusesGrow t) (ch : Chan) : Out.fusesGrow s (execLinkUv ch t) :=
  .next (h.onPower ch fun c => ⟨by simp only [otp_wr, sat_otp, setCauses_otp, raise_otp]⟩)

theorem execOv1Clear_fusesGrow (h : s.fusesGrow t) (ch : Chan) : Out.fusesGrow s (execOv1Clear ch t) :=
  .next (h.onPower ch fun c => ⟨by simp only [otp_wr, setCauses_otp]⟩)

theorem execOv2Clear_fusesGrow (h : s.fusesGrow t) (ch : Chan) : Out.fusesGrow s (execOv2Clear ch t) :=
  .next (h.onPower ch fun c => ⟨by simp only [otp_wr, ite_otp, ite_self, setCauses_otp, pumpAgain_otp, reenter_otp]⟩)

theorem execUvClear_fusesGrow (h : s.fusesGrow t) (ch : Chan) : Out.fusesGrow s (execUvClear ch t) :=
  .next (h.onPower ch fun c => ⟨by simp only [otp_wr, setCauses_otp]⟩)

theorem execDieToDieLoss_fusesGrow (h : s.fusesGrow t) (ch : Chan) : Out.fusesGrow s (execDieToDieLoss ch t) :=
  .next (h.onPower ch fun c => ⟨by simp only [setCauses_otp]⟩)

theorem execDigitalDieSilent_fusesGrow (h : s.fusesGrow t) (ch : Chan) :
    Out.fusesGrow s (execDigitalDieSilent ch t) :=
  .next (h.onPower ch fun c => ⟨by simp only [setCauses_otp]⟩)

/-! ### Gate drive -/

theorem execDesatLatch_fusesGrow (h : s.fusesGrow t) (ch : Chan) (latches : BitVec 17) (sol : BitVec 4) (sameCycle :
    Bool) :
    Out.fusesGrow s (execDesatLatch ch latches sol sameCycle t) :=
  .next (h.onPower ch fun c => ⟨by simp only [latch_otp]⟩)

theorem execOcLatch_fusesGrow (h : s.fusesGrow t) (ch : Chan) (sol : BitVec 4) (sameCycle : Bool) :
    Out.fusesGrow s (execOcLatch ch sol sameCycle t) :=
  .next (h.onPower ch fun c => ⟨by simp only [latch_otp]⟩)

theorem execGdUvlo_fusesGrow (h : s.fusesGrow t) (ch : Chan) (sol : BitVec 4) (sameCycle : Bool) :
    Out.fusesGrow s (execGdUvlo ch sol sameCycle t) :=
  .next (h.onPower ch fun c => ⟨by simp only [otp_wr, gdRefresh_otp, latch_otp]⟩)

theorem execGdOt_fusesGrow (h : s.fusesGrow t) (ch : Chan) (sol : BitVec 4) (sameCycle : Bool) :
    Out.fusesGrow s (execGdOt ch sol sameCycle t) :=
  .next (h.onPower ch fun c => ⟨by simp only [latch_otp]⟩)

theorem execGdStcmd_fusesGrow (h : s.fusesGrow t) (ch : Chan) (leg : Fin 6) :
    Out.fusesGrow s (execGdStcmd ch leg t) :=
  .next (h.onPower ch fun c => ⟨by simp only [sat_otp, setBit_otp, raise_otp, legUp_otp]⟩)

theorem execGdrBlockReset_fusesGrow (h : s.fusesGrow t) (ch : Chan) : Out.fusesGrow s (execGdrBlockReset ch t) :=
  .next (h.onLive ch fun c => ⟨by simp only [ite_otp, ite_self, gdrAtDie_otp]⟩)

theorem execLocalBlockReset_fusesGrow (h : s.fusesGrow t) (ch : Chan) : Out.fusesGrow s (execLocalBlockReset ch t) :=
  .next (h.onPower ch fun c => ⟨by simp only [otp_wr, ite_otp, ite_self, gdrAtDie_otp]⟩)

theorem execGdenFall_fusesGrow (h : s.fusesGrow t) (ch : Chan) : Out.fusesGrow s (execGdenFall ch t) :=
  .next (h.onPower ch fun c => ⟨by simp only [otp_wr, ite_otp, ite_self, sat_otp, gdRefresh_otp, raise_otp]⟩)

theorem execGdenoPulse_fusesGrow (h : s.fusesGrow t) (ch : Chan) : Out.fusesGrow s (execGdenoPulse ch t) :=
  .next (h.onLive ch fun c => ⟨by simp only⟩)

theorem execGdenoPulseEnd_fusesGrow (h : s.fusesGrow t) (ch : Chan) : Out.fusesGrow s (execGdenoPulseEnd ch t) :=
  .next (h.onPower ch fun c => ⟨by simp only⟩)

/-! ### Position feedback -/

theorem execStandstillTimeout_fusesGrow (h : s.fusesGrow t) (ch : Chan) (unit : Fin 6) :
    Out.fusesGrow s (execStandstillTimeout ch unit t) :=
  .next (h.onLit ch fun c => ⟨by simp only [otp_wr, ite_otp, ite_self, setBit_otp, unitUp_otp, showStill_otp]⟩)

theorem execComparePulseEnd_fusesGrow (h : s.fusesGrow t) (ch : Chan) (unit : Fin 6) :
    Out.fusesGrow s (execComparePulseEnd ch unit t) :=
  .next (h.onLit ch fun c => ⟨by simp only [ite_otp, ite_self, unitUp_otp]⟩)

theorem execSentTimeout_fusesGrow (h : s.fusesGrow t) (ch : Chan) (m : Fin 3) :
    Out.fusesGrow s (execSentTimeout ch m t) :=
  .next (h.onLit ch fun c => ⟨by simp only [otp_wr, ite_otp, ite_self, setBit_otp, sentErr_otp]⟩)

/-! ### Safety inputs -/

theorem execSinSample_fusesGrow (h : s.fusesGrow t) (ch : Chan) (raw : BitVec 12) :
    Out.fusesGrow s (execSinSample ch raw t) :=
  .next (h.onLive ch fun c => ⟨by simp only [ite_otp, ite_self, sinTake_otp]⟩)

theorem execDiscrepancyTimeout_fusesGrow (h : s.fusesGrow t) (ch : Chan) (p : Fin 6) :
    Out.fusesGrow s (execDiscrepancyTimeout ch p t) :=
  .next (h.onLive ch fun c => ⟨by simp only [ite_otp, ite_self, discFault_otp]⟩)

theorem execFaultRearm_fusesGrow (h : s.fusesGrow t) (ch : Chan) (p : Fin 6) :
    Out.fusesGrow s (execFaultRearm ch p t) :=
  .next (h.onLive ch fun c => ⟨by simp only [ite_otp, ite_self, setPair_otp]⟩)

theorem execTestPulseStart_fusesGrow (h : s.fusesGrow t) (ch : Chan) (b : Bool) :
    Out.fusesGrow s (execTestPulseStart ch b t) := by
  refine .next (h.onLive ch fun c => ⟨?_⟩)
  (repeat' split) <;> simp only [pulseStart_otp]

theorem execTestPulseCheck_fusesGrow (h : s.fusesGrow t) (ch : Chan) (b : Bool) (raw : BitVec 12) :
    Out.fusesGrow s (execTestPulseCheck ch b raw t) :=
  .next (h.onLive ch fun c => ⟨by simp only [ite_otp, ite_self, pulseCheck_otp]⟩)

/-! ### Network time -/

theorem execLinkDelayTimeout_fusesGrow (h : s.fusesGrow t) (ch : Chan) (port : Fin 2) :
    Out.fusesGrow s (execLinkDelayTimeout ch port t) :=
  .next (h.onLive ch fun c => ⟨by simp only [ite_otp, ite_self, sat_otp, ldDiscard_otp]⟩)

theorem execNtcTimelRead_fusesGrow (h : s.fusesGrow t) (ch : Chan) : Out.fusesGrow s (execNtcTimelRead ch t) :=
  .next (h.onLive ch fun c => ⟨by simp only [otp_wr, ite_otp, ite_self]⟩)

theorem execCycleMark_fusesGrow (h : s.fusesGrow t) (ch : Chan) (mark : Fin 8) :
    Out.fusesGrow s (execCycleMark ch mark t) :=
  .next (h.onLive ch fun c => ⟨by simp only [ite_otp, ite_self, fireMark_otp]⟩)

/-! ### The membership decision -/

theorem execMembershipDecision_fusesGrow (h : s.fusesGrow t) (ch : Chan) (env : Env) :
    Out.fusesGrow s (execMembershipDecision ch env t) :=
  .next (h.onLive ch fun c => ⟨by simp only [ite_otp, ite_self, enterDecision_otp]⟩)

/-! ### The Folio loader -/

theorem execFolCtrlWrite_fusesGrow (h : s.fusesGrow t) (ch : Chan) (v : Word) :
    Out.fusesGrow s (execFolCtrlWrite ch v t) :=
  .next (h.onLive ch fun c => ⟨by simp only [State.folCtrl_otp]⟩)

theorem execMssFolioTimeout_fusesGrow (h : s.fusesGrow t) (ch : Chan) : Out.fusesGrow s (execMssFolioTimeout ch t) :=
  .next (h.onLive ch fun c => ⟨by simp only [ite_otp, ite_self, State.noMss_otp]⟩)

theorem execFolioPartReceived_fusesGrow (h : s.fusesGrow t) (ch : Chan) (src : Src) (size : Nat) (part : FolPart) :
    Out.fusesGrow s (execFolioPartReceived ch src size part t) :=
  .next (h.onLive ch fun c => ⟨by simp only [ite_otp, ite_self, State.part_otp]⟩)

theorem execPeerLoadRetry_fusesGrow (h : s.fusesGrow t) (ch : Chan) : Out.fusesGrow s (execPeerLoadRetry ch t) :=
  .next (h.onLive ch fun c => ⟨by simp only [ite_otp, ite_self, State.askPeers_otp]⟩)

theorem execPeerLoadTimeout_fusesGrow (h : s.fusesGrow t) (ch : Chan) : Out.fusesGrow s (execPeerLoadTimeout ch t) :=
  .next (h.onLive ch fun c => ⟨by simp only [ite_otp, ite_self, rejectSrc_otp, loadFails_otp]⟩)

/-! ### The Tether node -/

theorem execPortDown_fusesGrow (h : s.fusesGrow t) (ch : Chan) (port : Fin 2) :
    Out.fusesGrow s (execPortDown ch port t) :=
  .next (h.onLive ch fun c => ⟨by simp only [otp_wr, ite_otp, ite_self, raise_otp, tteUp_otp, brkRefresh_otp]⟩)

theorem execPortUp_fusesGrow (h : s.fusesGrow t) (ch : Chan) (port : Fin 2) :
    Out.fusesGrow s (execPortUp ch port t) :=
  .next (h.onLive ch fun c => ⟨by simp only [otp_wr, ite_otp, ite_self, brkRefresh_otp]⟩)

theorem execStreamFetch_fusesGrow (h : s.fusesGrow t) (ch : Chan) (id : Fin 128) :
    Out.fusesGrow s (execStreamFetch ch id t) :=
  .next (h.onLive ch fun c => ⟨by simp only [ite_otp, ite_self, fetch_otp]⟩)

theorem execStreamSlot_fusesGrow (h : s.fusesGrow t) (n : NodeSlot) (id : Fin 128) (nth : Nat) (fold : Bool) :
    Out.fusesGrow s (execStreamSlot n id nth fold t) :=
  .next (h.onLive n.ch fun c => ⟨by simp only [slot_otp]⟩)

theorem execAcceptanceWindowEnd_fusesGrow (h : s.fusesGrow t) (ch : Chan) (id : Fin 128) :
    Out.fusesGrow s (execAcceptanceWindowEnd ch id t) :=
  .next (h.onLive ch fun c => ⟨by simp only [ite_otp, ite_self, missed_otp]⟩)

theorem execLinkDelayRequestSend_fusesGrow (h : s.fusesGrow t) (ch : Chan) (port : Fin 2) (t1 : Int) :
    Out.fusesGrow s (execLinkDelayRequestSend ch port t1 t) :=
  .next (h.onLive ch fun c => ⟨by simp only [ite_otp, ite_self, ntcUp_otp, sendLd_otp]⟩)

theorem execLinkDelayRequestReceived_fusesGrow (h : s.fusesGrow t) (ch : Chan) (f : Frame) (t3 : Int) :
    Out.fusesGrow s (execLinkDelayRequestReceived ch f t3 t) :=
  .next (h.onLive ch fun c => ⟨by simp only [ite_otp, ite_self, rxKind_otp, sendLd_otp]⟩)

theorem execLinkDelayResponseReceived_fusesGrow (h : s.fusesGrow t) (ch : Chan) (f : Frame) :
    Out.fusesGrow s (execLinkDelayResponseReceived ch f t) :=
  .next (h.onLive ch fun c => ⟨by simp only [ite_otp, ite_self, ldResponse_otp, rxKind_otp]⟩)

/-! ### The cycle and the lead -/

theorem execCycleStart_fusesGrow (h : s.fusesGrow t) (n : NodeSlot) : Out.fusesGrow s (execCycleStart n t) :=
  .next (h.onLive n.ch fun c => ⟨by simp only [ite_otp, ite_self, leadCycle_otp, cycleEnd_otp, nextCycle_otp,
    sendOwed_otp]⟩)

theorem execCycleFrameReceived_fusesGrow (h : s.fusesGrow t) (n : NodeSlot) (f : Frame) :
    Out.fusesGrow s (execCycleFrameReceived n f t) :=
  .next (h.onLive n.ch fun c => ⟨by simp only [cycleFrame_otp]⟩)

theorem execClaimRetry_fusesGrow (h : s.fusesGrow t) (n : NodeSlot) : Out.fusesGrow s (execClaimRetry n t) :=
  .next (h.onLive n.ch fun c => ⟨by simp only [ite_otp, ite_self, sendClaim_otp]⟩)

theorem execEnumerationResend_fusesGrow (h : s.fusesGrow t) (n : NodeSlot) :
    Out.fusesGrow s (execEnumerationResend n t) :=
  .next (h.onLive n.ch fun c => ⟨by simp only [ite_otp, ite_self, sendPass_otp]⟩)

theorem execListenTimeout_fusesGrow (h : s.fusesGrow t) (ch : Chan) : Out.fusesGrow s (execListenTimeout ch t) :=
  .next (h.onLive ch fun c => ⟨by simp only [otp_wr, ite_otp, ite_self, sendKind_otp]⟩)

theorem execStartupFrame_fusesGrow (h : s.fusesGrow t) (ch : Chan) (f : Frame) :
    Out.fusesGrow s (execStartupFrame ch f t) :=
  .next (h.onLive ch fun c => ⟨by simp only [otp_wr, ite_otp, ite_self, rxKind_otp]⟩)

theorem execStartupWaitEnd_fusesGrow (h : s.fusesGrow t) (n : NodeSlot) : Out.fusesGrow s (execStartupWaitEnd n t) :=
  .next (h.onLive n.ch fun c => ⟨by simp only [ite_otp, ite_self, becomeLead_otp]⟩)

theorem execCycleFrameLoss_fusesGrow (h : s.fusesGrow t) (ch : Chan) : Out.fusesGrow s (execCycleFrameLoss ch t) :=
  .next (h.onLive ch fun c => ⟨by simp only [otp_wr, ite_otp, ite_self, raise_otp]⟩)

/-! ### The ISOBUS attachment -/

theorem execGuidanceCommandReceived_fusesGrow (h : s.fusesGrow t) (ch : Chan) (f : CanFrame) :
    Out.fusesGrow s (execGuidanceCommandReceived ch f t) :=
  .next (h.onCan ch fun _ c => ⟨by simp only [ite_otp, ite_self, rxPush_otp]⟩)

theorem execSpeedMessageReceived_fusesGrow (h : s.fusesGrow t) (ch : Chan) (f : CanFrame) :
    Out.fusesGrow s (execSpeedMessageReceived ch f t) :=
  .next (h.onCan ch fun _ c => ⟨by simp only [ite_otp, ite_self, rxPush_otp]⟩)

theorem execCanFrameReceived_fusesGrow (h : s.fusesGrow t) (ch : Chan) (f : CanFrame) :
    Out.fusesGrow s (execCanFrameReceived ch f t) :=
  .next (h.onCan ch fun _ c => ⟨by simp only [ite_otp, ite_self, rxPush_otp]⟩)

theorem execAddressClaimReceived_fusesGrow (h : s.fusesGrow t) (ch : Chan) (f : CanFrame) :
    Out.fusesGrow s (execAddressClaimReceived ch f t) :=
  .next (h.onCan ch fun _ c => ⟨by simp only [ite_otp, ite_self, claimSeen_otp]⟩)

theorem execClaimHoldOffEnd_fusesGrow (h : s.fusesGrow t) (ch : Chan) (func : Fin 2) :
    Out.fusesGrow s (execClaimHoldOffEnd ch func t) :=
  .next (h.onLive ch fun c => ⟨by simp only [otp_wr, ite_otp, ite_self, canUp_otp]⟩)

theorem execRequestReceived_fusesGrow (h : s.fusesGrow t) (ch : Chan) (f : CanFrame) :
    Out.fusesGrow s (execRequestReceived ch f t) :=
  .next (h.onCan ch fun _ c => ⟨by simp only [ite_otp, ite_self, foldl_otp, implies_true, foldl_otp, answer_otp]⟩)

theorem execTpRtsReceived_fusesGrow (h : s.fusesGrow t) (ch : Chan) (f : CanFrame) :
    Out.fusesGrow s (execTpRtsReceived ch f t) :=
  .next (h.onCan ch fun _ c => ⟨by simp only [ite_otp, ite_self, rts_otp]⟩)

theorem execTpBamReceived_fusesGrow (h : s.fusesGrow t) (ch : Chan) (f : CanFrame) :
    Out.fusesGrow s (execTpBamReceived ch f t) :=
  .next (h.onCan ch fun _ c => ⟨by simp only [ite_otp, ite_self, bam_otp]⟩)

theorem execTpDtReceived_fusesGrow (h : s.fusesGrow t) (ch : Chan) (f : CanFrame) :
    Out.fusesGrow s (execTpDtReceived ch f t) := by
  refine .next (h.onCan ch fun _ c => ⟨?_⟩)
  (repeat' split) <;> simp only [dt_otp]

theorem execIsoVoice_fusesGrow (h : s.fusesGrow t) (ch : Chan) : Out.fusesGrow s (execIsoVoice ch t) :=
  .next (h.onLive ch fun c => ⟨by simp only [ite_otp, ite_self, raise_otp]⟩)

theorem execIsoBusoff_fusesGrow (h : s.fusesGrow t) (ch : Chan) : Out.fusesGrow s (execIsoBusoff ch t) :=
  .next (h.onLive ch fun c => ⟨by simp only [otp_wr, ite_otp, ite_self, sat_otp, draw_otp, raise_otp]⟩)

theorem execBusIntegrationDone_fusesGrow (h : s.fusesGrow t) (ch : Chan) :
    Out.fusesGrow s (execBusIntegrationDone ch t) :=
  .next (h.onLive ch fun c => ⟨by simp only [otp_wr, ite_otp, ite_self, canUp_otp]⟩)

theorem execStatusMessageSend_fusesGrow (h : s.fusesGrow t) (ch : Chan) :
    Out.fusesGrow s (execStatusMessageSend ch t) :=
  .next (h.onLive ch fun c => ⟨by simp only [ite_otp, ite_self, enqueue_otp]⟩)

/-! ### The herd -/

theorem execHb1Send_fusesGrow (h : s.fusesGrow t) (ch : Chan) (second : Bool) :
    Out.fusesGrow s (execHb1Send ch second t) :=
  .next (h.onLive ch fun c => ⟨by simp only [ite_otp, ite_self, sendHb_otp]⟩)

theorem execHb2Relay_fusesGrow (h : s.fusesGrow t) (ch : Chan) : Out.fusesGrow s (execHb2Relay ch t) :=
  .next (h.onLive ch fun c => ⟨by simp only [hrdUp_otp]⟩)

theorem execSimplexTimerExpiry_fusesGrow (h : s.fusesGrow t) (ch : Chan) :
    Out.fusesGrow s (execSimplexTimerExpiry ch t) :=
  .next (h.onLive ch fun c => ⟨by simp only [ite_otp, ite_self, showMode_otp, herdUp_otp]⟩)

theorem execIdegTimerExpiry_fusesGrow (h : s.fusesGrow t) (ch : Chan) : Out.fusesGrow s (execIdegTimerExpiry ch t) :=
  .next (h.onLive ch fun c => ⟨by simp only [ite_otp, ite_self, showMode_otp, herdUp_otp]⟩)

theorem execIdegClear_fusesGrow (h : s.fusesGrow t) (ch : Chan) : Out.fusesGrow s (execIdegClear ch t) :=
  .next (h.onLive ch fun c => ⟨by simp only [ite_otp, ite_self, showMode_otp, herdUp_otp]⟩)

theorem execBringupWindowEnd_fusesGrow (h : s.fusesGrow t) (ch : Chan) :
    Out.fusesGrow s (execBringupWindowEnd ch t) :=
  .next (h.onLive ch fun c => ⟨by simp only [ite_otp, ite_self, herdUp_otp]⟩)

theorem execSplitStationaryLost_fusesGrow (h : s.fusesGrow t) (ch : Chan) :
    Out.fusesGrow s (execSplitStationaryLost ch t) :=
  .next (h.onLive ch fun c => ⟨by simp only [otp_wr, ite_otp, ite_self, setCauses_otp, gdrAtDie_otp, blockReset_otp,
    showMode_otp]⟩)

theorem execModeReqService_fusesGrow (h : s.fusesGrow t) (ch : Chan) : Out.fusesGrow s (execModeReqService ch t) :=
  .next (h.onLive ch fun c => ⟨by simp only [ite_otp, ite_self, requestMode_otp, splitService_otp]⟩)

theorem execSafeStopRampEnd_fusesGrow (h : s.fusesGrow t) (ch : Chan) : Out.fusesGrow s (execSafeStopRampEnd ch t) :=
  .next (h.onLive ch fun c => ⟨by simp only [ite_otp, ite_self, herdUp_otp]⟩)

theorem execSafeStopFullBrake_fusesGrow (h : s.fusesGrow t) (ch : Chan) :
    Out.fusesGrow s (execSafeStopFullBrake ch t) :=
  .next (h.onLive ch fun c => ⟨by simp only [ite_otp, ite_self, herdUp_otp]⟩)

theorem execStationaryDeclared_fusesGrow (h : s.fusesGrow t) (ch : Chan) :
    Out.fusesGrow s (execStationaryDeclared ch t) :=
  .next (h.onLive ch fun c => ⟨by simp only [ite_otp, ite_self, herdUp_otp]⟩)

theorem execJoinRecord_fusesGrow (h : s.fusesGrow t) (ch : Chan) (rec : Packet JoinRec) :
    Out.fusesGrow s (execJoinRecord ch rec t) :=
  .next (h.onLive ch fun c => ⟨by simp only [ite_otp, ite_self, badCrc_otp, hrdUp_otp]⟩)

theorem execAdmissionReply_fusesGrow (h : s.fusesGrow t) (ch from_ : Chan) (gen round : Word) (tb : Packet (BitVec
    48)) :
    Out.fusesGrow s (execAdmissionReply ch from_ gen round tb t) :=
  .next (h.onLive ch fun c => ⟨by simp only [ite_otp, ite_self, badCrc_otp, admitted_otp]⟩)

theorem execListenRoundEnd_fusesGrow (h : s.fusesGrow t) (ch : Chan) : Out.fusesGrow s (execListenRoundEnd ch t) :=
  .next (h.onLive ch fun c => ⟨by simp only [State.listenEnd_otp]⟩)

theorem execShadowComplete_fusesGrow (h : s.fusesGrow t) (ch : Chan) : Out.fusesGrow s (execShadowComplete ch t) :=
  .next (h.onLive ch fun c => ⟨by simp only [ite_otp, ite_self, herdUp_otp]⟩)

theorem execControlCycleBoundary_fusesGrow (h : s.fusesGrow t) (ch : Chan) :
    Out.fusesGrow s (execControlCycleBoundary ch t) :=
  .next (h.onLive ch fun c => ⟨by simp only [State.boundary_otp]⟩)

theorem execMigrationStateSend_fusesGrow (h : s.fusesGrow t) (ch : Chan) (task : Fin 256) :
    Out.fusesGrow s (execMigrationStateSend ch task t) := by
  refine .next (h.onLive ch fun c => ⟨?_⟩)
  (repeat' split) <;> simp only [ite_otp, ite_self, hrdUp_otp]

theorem execMigrationStateArrived_fusesGrow (h : s.fusesGrow t) (ch : Chan) (task : Fin 256) (bytes : Packet (List
    Byte)) :
    Out.fusesGrow s (execMigrationStateArrived ch task bytes t) := by
  refine .next (h.onLive ch fun c => ⟨?_⟩)
  (repeat' split) <;> simp only [ite_otp, ite_self, badCrc_otp, hrdUp_otp]

theorem execDataHomeWrite_fusesGrow (h : s.fusesGrow t) (ch : Chan) (home : Fin 256) (off : Nat) (v : Word) :
    Out.fusesGrow s (execDataHomeWrite ch home off v t) :=
  .next (h.onLive ch fun c => ⟨by simp only [ite_otp, ite_self, hrdUp_otp, homeWrite_otp]⟩)

theorem execDataHomeUpdateReceived_fusesGrow (h : s.fusesGrow t) (ch : Chan) (home : Fin 256) (off : Nat) (v : Packet
    Word) :
    Out.fusesGrow s (execDataHomeUpdateReceived ch home off v t) :=
  .next (h.onLive ch fun c => ⟨by simp only [ite_otp, ite_self, badCrc_otp, homeWrite_otp]⟩)

theorem execJobRelease_fusesGrow (h : s.fusesGrow t) (ch : Chan) (task : Fin 256) :
    Out.fusesGrow s (execJobRelease ch task t) :=
  .next (h.onLive ch fun c => ⟨by simp only [ite_otp, ite_self, sat_otp, hrdUp_otp]⟩)

theorem execRepairRequest_fusesGrow (h : s.fusesGrow t) (ch : Chan) : Out.fusesGrow s (execRepairRequest ch t) :=
  .next (h.onLive ch fun c => ⟨by simp only [otp_wr, ite_otp, ite_self, hrdUp_otp]⟩)

theorem execAbsenceRequestDropped_fusesGrow (h : s.fusesGrow t) (ch : Chan) :
    Out.fusesGrow s (execAbsenceRequestDropped ch t) :=
  .next (h.onLive ch fun c => ⟨by simp only [otp_wr, ite_otp, ite_self, hrdUp_otp]⟩)

theorem execRotationNextRequest_fusesGrow (h : s.fusesGrow t) (ch : Chan) :
    Out.fusesGrow s (execRotationNextRequest ch t) :=
  .next (h.onLive ch fun c => ⟨by simp only [ite_otp, ite_self, herdUp_otp]⟩)

theorem execReturnDeadline_fusesGrow (h : s.fusesGrow t) (ch : Chan) : Out.fusesGrow s (execReturnDeadline ch t) :=
  .next (h.onLive ch fun c => ⟨by simp only [ite_otp, ite_self, herdUp_otp]⟩)

theorem execProofTestDue_fusesGrow (h : s.fusesGrow t) (ch : Chan) : Out.fusesGrow s (execProofTestDue ch t) :=
  .next (h.onLive ch fun c => ⟨by simp only [ite_otp, ite_self, herdUp_otp, showHerd_otp]⟩)

theorem execProofOverdue_fusesGrow (h : s.fusesGrow t) (ch : Chan) : Out.fusesGrow s (execProofOverdue ch t) :=
  .next (h.onLive ch fun c => ⟨by simp only [ite_otp, ite_self, raise_otp, herdUp_otp, showHerd_otp]⟩)

theorem execRecoveryWindowExpiry_fusesGrow (h : s.fusesGrow t) (ch : Chan) :
    Out.fusesGrow s (execRecoveryWindowExpiry ch t) :=
  .next (h.onLive ch fun c => ⟨by simp only [ite_otp, ite_self, herdUp_otp, showHerd_otp]⟩)

/-! ### Power -/

theorem execP1LeaveRequest_fusesGrow (h : s.fusesGrow t) (ch : Chan) : Out.fusesGrow s (execP1LeaveRequest ch t) :=
  .next (h.onLive ch fun c => ⟨by simp only [ite_otp, ite_self]⟩)

theorem execAwakeTimeEnd_fusesGrow (h : s.fusesGrow t) (ch : Chan) : Out.fusesGrow s (execAwakeTimeEnd ch t) :=
  .next (h.onLive ch fun c => ⟨by simp only⟩)

/-! ### Memory accesses -/

theorem execCoreMemoryAccess_fusesGrow (h : s.fusesGrow t) (ch : Chan) (mem : MemId) (addr : Nat) (op : MemOp) (ecc :
    Ecc) :
    Out.fusesGrow s (execCoreMemoryAccess ch mem addr op ecc t) := by
  refine .next (h.onLive ch fun c => ⟨?_⟩)
  split <;> simp only [memAccess_otp, store_otp]

/-! ### Block resets -/

theorem execBlockResetRelease_fusesGrow (h : s.fusesGrow t) (ch : Chan) (blk : Fin 17) :
    Out.fusesGrow s (execBlockResetRelease ch blk t) :=
  .next (h.onLive ch fun c => ⟨by simp only [ite_otp, ite_self, blockRelease_otp]⟩)

/-! ### Cross-links and windows -/

theorem execClass4RetryExhausted_fusesGrow (h : s.fusesGrow t) (ch peer : Chan) :
    Out.fusesGrow s (execClass4RetryExhausted ch peer t) :=
  .next (h.onLive ch fun c => ⟨by simp only [ite_otp, ite_self, raise_otp, abandonBulk_otp]⟩)

theorem execMailboxRead_fusesGrow (h : s.fusesGrow t) (ch : Chan) (off : SizedAddr) :
    Out.fusesGrow s (execMailboxRead ch off t) :=
  .next (h.onLive ch fun c => ⟨by simp only⟩)

theorem execMailboxReadTimeout_fusesGrow (h : s.fusesGrow t) (ch : Chan) :
    Out.fusesGrow s (execMailboxReadTimeout ch t) :=
  .next (h.onLive ch fun c => ⟨by simp only [ite_otp, ite_self]⟩)

end Sys2Proof.Machine
end

section
/-! PROOF. The commands of several parts clear no OTP bit: those that act on the fuses of a die (R464), on several
channels, or on the management subsystem. -/

namespace Sys2Proof.Machine

variable {s t : State}

/-! ### Dies that take in fuses (R464) -/

/-- A channel that runs takes in fuses, or not. -/
theorem State.fusesGrow.joinOnLive (h : s.fusesGrow t) (ch : Chan) (p : Channel → Bool) {f : Channel → Channel}
    (hf : ∀ c : Channel, c.otp.grows (f c).otp) : s.fusesGrow (t.onLive ch fun c => if p c then f c else c) := by
  refine h.setDie ch _ ?_
  dsimp only
  split
  · split
    · exact hf _
    · exact .refl _
  · exact .refl _

theorem execFolioRequest_fusesGrow (h : s.fusesGrow t) (ch : Chan) : Out.fusesGrow s (execFolioRequest ch t) :=
  .next (h.joinOnLive ch (fun c => c.fol.asked && t.mlinkUp c && t.mss.on && t.mss.ready && t.mss.mpRuns)
    fun c => t.answerFolio_grows c)

theorem execPeerLoadServe_fusesGrow (h : s.fusesGrow t) (ch requester : Chan) :
    Out.fusesGrow s (execPeerLoadServe ch requester t) :=
  .next (h.joinOnLive requester (fun c => c.fol.waitPeer && c.fol.peerAsked && t.server c == some ch)
    fun c => c.servedBy_grows _)

theorem execFolioApplyDone_fusesGrow (h : s.fusesGrow t) (ch : Chan) : Out.fusesGrow s (execFolioApplyDone ch t) :=
  .ite _ (.next (.onMssIf (h.setChan ch _ (Channel.applyFolio_otp _)) _ fun k => k.onPort ch _)) (.next h)

/-! ### Two changes of one channel, and several channels -/

theorem execEncInputChange_fusesGrow (h : s.fusesGrow t) (ch : Chan) (unit : Fin 6) (levels : BitVec 3) (since : Nat) :
    Out.fusesGrow s (execEncInputChange ch unit levels since t) :=
  .next ((h.on ch fun c => ⟨c.unitUp_otp _ _⟩).onLit ch fun c =>
    ⟨(Channel.edgeCheck_otp _ _ _).trans c.passThrough_otp⟩)

theorem execRoundStart_fusesGrow (h : s.fusesGrow t) (ch : Chan) : Out.fusesGrow s (execRoundStart ch t) :=
  .next (State.fusesGrow.closePorts (h.onLive ch fun c => ⟨by
    simp only [Channel.ite_otp, Channel.recall_otp, Channel.roundStart_otp, ite_self]⟩) false)

theorem execCrossLinkDown_fusesGrow (h : s.fusesGrow t) (l : Link) : Out.fusesGrow s (execCrossLinkDown l t) :=
  .next ((h.onLive _ fun c => ⟨c.linkLost_otp _ _⟩).onLive _ fun c => ⟨c.linkLost_otp _ _⟩)

theorem execCrossLinkUp_fusesGrow (h : s.fusesGrow t) (l : Link) : Out.fusesGrow s (execCrossLinkUp l t) :=
  .next (.ite _ ((h.on _ fun c => ⟨c.setLink_otp _ _⟩).on _ fun c => ⟨c.setLink_otp _ _⟩) h)

theorem execFailSilentReset_fusesGrow (h : s.fusesGrow t) (ch : Chan) : Out.fusesGrow s (execFailSilentReset ch t) :=
  .next (.ite _ ((h.divergeReport ch).on ch fun c => ⟨(Channel.errRefresh_otp _).trans (c.reset_otp _ _)⟩) h)

/-- A change of what the other channels read of one (R36). -/
theorem State.fusesGrow.onXlk (h : s.fusesGrow t) (ch : Chan) (f : Channel → Xlk) :
    s.fusesGrow (t.on ch fun c => { c with xlk := f c }) := h.on ch fun _ => ⟨rfl⟩

theorem execPeerWindowRead_fusesGrow (h : s.fusesGrow t) (ch : Chan) (addr : SizedAddr) :
    Out.fusesGrow s (execPeerWindowRead ch addr t) := by
  have bad : Out.fusesGrow s (.next (t.on ch fun c => { c with bus := .error })) := .next (h.on ch fun _ => ⟨rfl⟩)
  refine .ite _ (.next h) (.ite _ bad ?_)
  split
  · exact .ite _ (.next ((h.onXlk _ _).on ch fun _ => ⟨rfl⟩)) bad
  · exact bad

theorem execPeerWindowReadServed_fusesGrow (h : s.fusesGrow t) (ch : Chan) (requester : Packet Chan) :
    Out.fusesGrow s (execPeerWindowReadServed ch requester t) := by
  unfold execPeerWindowReadServed
  split
  · exact .next (h.onLive ch fun c => ⟨by simp only [Channel.ite_otp, Channel.badCrc_otp, ite_self]⟩)
  · exact .next h

theorem execPeerReadReply_fusesGrow (h : s.fusesGrow t) (dst : Packet Chan) :
    Out.fusesGrow s (execPeerReadReply dst t) := by
  refine .ite _ (.next (h.onLive _ fun c => ⟨c.badCrc_otp⟩)) ?_
  split
  · split
    · exact .next ((h.onXlk _ _).onLive _ fun _ => ⟨rfl⟩)
    · exact .next h
  · exact .next h

/-! ### The CAN channels (R397 to R404) -/

theorem execTpTimeout_fusesGrow (h : s.fusesGrow t) (ch : Chan) (sa da : Nat) :
    Out.fusesGrow s (execTpTimeout ch sa da t) := by
  refine .next (State.fusesGrow.hearTx (h.onCan ch fun gap c => ⟨?_⟩) ch)
  split
  · simp only [Channel.ite_otp, Channel.say_otp, Channel.sat_otp, Channel.canUp_otp, ite_self]
  · split
    · rfl
    · split
      · simp only [Channel.ite_otp, Channel.say_otp, Channel.sat_otp, Channel.endTx_otp, ite_self]
      · rfl

theorem execTpCtsReceived_fusesGrow (h : s.fusesGrow t) (ch : Chan) (f : CanFrame) :
    Out.fusesGrow s (execTpCtsReceived ch f t) := by
  refine .next (State.fusesGrow.hearTx (h.onCan ch fun _ c => ⟨?_⟩) ch)
  split
  · simp only [Channel.ite_otp, Channel.tpAnswer_otp, ite_self]
  · rfl

theorem execBamPacketSend_fusesGrow (h : s.fusesGrow t) (ch : Chan) (func : Fin 2) :
    Out.fusesGrow s (execBamPacketSend ch func t) := by
  refine .next (State.fusesGrow.hearTx (h.onLive ch fun c => ⟨?_⟩) ch)
  dsimp only
  split
  · simp only [Channel.ite_otp, Channel.sendAllowed_otp, ite_self]
  · rfl

theorem execCanFrameSent_fusesGrow (h : s.fusesGrow t) (ch : Chan) (func : Fin 2) :
    Out.fusesGrow s (execCanFrameSent ch func t) := by
  refine .next (State.fusesGrow.hearTx (h.onLive ch fun c => ?_) ch)
  extract_lets k
  split
  · exact ⟨rfl⟩
  · split
    · exact ⟨rfl⟩
    · extract_lets c1 c2 c3
      have h3 : c3.otp = c.otp := by
        simp only [c3, c2, c1, Channel.ite_otp, Channel.otp_wr, Channel.canUp_otp, ite_self]
      clear_value c3
      split
      · exact ⟨by simp only [Channel.ite_otp, Channel.endTx_otp, ite_self, h3]⟩
      · exact ⟨h3⟩

theorem execVoiceTxStart_fusesGrow (h : s.fusesGrow t) (ch : Chan) : Out.fusesGrow s (execVoiceTxStart ch t) := by
  have clr : ∀ {u : State} (k : Chan), s.fusesGrow u → s.fusesGrow (u.on k fun x =>
      if x.live then x.canUp fun y => { y with owed := [], theirs := [] } else x) :=
    fun k hu => hu.on k fun x => Channel.otpStands.onIf (fun x => ⟨x.canUp_otp _⟩) _ x
  refine .ite _ (.next (clr .C (clr .B (clr .A (h.on ch fun c => ?_))))) (.next h)
  exact ⟨by simp only [Channel.firstClaim_otp, Channel.foldl_otp, Channel.enqueue_otp, Channel.canUp_otp, implies_true]⟩

theorem execTimeDateReceived_fusesGrow (h : s.fusesGrow t) (ch : Chan) (f : CanFrame) :
    Out.fusesGrow s (execTimeDateReceived ch f t) := by
  have hrx : s.fusesGrow (t.onCan ch fun _ c => c.rxPush f.pgn f.sa f.data) := h.onCan ch fun _ c => ⟨c.rxPush_otp _ _
    _⟩
  refine .ite _ (.next h) ?_
  split
  · exact .next (.onMssIf hrx _ fun k => k.calendar _)
  · exact .next hrx

/-! ### The management subsystem (R434, R450 to R458) -/

/-- A sample set has one value for each of the 25 sensors (R434). -/
theorem execSensorSample_fusesGrow (h : s.fusesGrow t) (samples : SensorSet) (back : BitVec 25) :
    Out.fusesGrow s (execSensorSample samples back t) := by
  refine .next (h.onMss fun k => ?_)
  split
  · rename_i hlen
    simp only [Bool.and_eq_true, beq_iff_eq] at hlen
    exact (Mss.fusesGrow.senseAll back samples 0 (by omega) k).onSup _
  · exact k

theorem execManagementLinkDown_fusesGrow (h : s.fusesGrow t) (ch : Chan) :
    Out.fusesGrow s (execManagementLinkDown ch t) := by
  have hc : s.fusesGrow (t.on ch fun c =>
      if c.mlink && c.live then ({ c with mlink := false } : Channel).raise 13 else { c with mlink := false }) :=
    h.on ch fun c => ⟨by simp only [Channel.ite_otp, Channel.raise_otp, ite_self]⟩
  refine .next (State.fusesGrow.showLost (hc.onMss fun k => ?_))
  have hp := fun f => (k.onPort ch f).showPorts
  exact .ite _ ((hp _).record _ _ _) (hp _)

theorem execManagementLinkUp_fusesGrow (h : s.fusesGrow t) (ch : Chan) :
    Out.fusesGrow s (execManagementLinkUp ch t) := by
  have hc : s.fusesGrow (t.on ch fun c => { c with mlink := true }) := h.on ch fun _ => ⟨rfl⟩
  refine .ite _ (.next (State.fusesGrow.showLost (hc.onMss fun k => ?_))) (.next h)
  exact ((k.onPort ch _).showPorts.hear _).record _ _ _

theorem execMssHbMiss_fusesGrow (h : s.fusesGrow t) (ch : Chan) : Out.fusesGrow s (execMssHbMiss ch t) := by
  have hc : s.fusesGrow (t.on ch fun c => ({ c with mssVote := true, hbLost := true } : Channel).raise 62) :=
    h.on ch fun _ => ⟨Channel.raise_otp _ _⟩
  refine .ite _ (.next (State.fusesGrow.showLost (hc.onMss fun k => ?_))) (.next h)
  exact (k.onPort ch _).showPorts.onSup _

theorem execResetVoteEnd_fusesGrow (h : s.fusesGrow t) (ch : Chan) : Out.fusesGrow s (execResetVoteEnd ch t) := by
  have hc : s.fusesGrow (t.onLive ch fun c => { c with mssVote := false }) := h.onLive ch fun _ => ⟨rfl⟩
  exact .next (hc.onMss fun k => .ite _ (k.onPort ch _).showPorts k)

theorem execMpRestartDone_fusesGrow (h : s.fusesGrow t) : Out.fusesGrow s (execMpRestartDone t) := by
  refine .next (h.onMss fun {n} k => ?_)
  have himage : s.mss.fusesGrow { n.loadImage with mp := true, ready := true, restart := none, bus := .idle } :=
    k.loadImage.of_parts rfl rfl
  split
  · exact .ite _ k (.ite _ (himage.errPulse.record _ _ _) (k.of_parts rfl rfl))
  · exact k

theorem execVsupRise_fusesGrow (h : s.fusesGrow t) (ch : Chan) (low : Bool) :
    Out.fusesGrow s (execVsupRise ch low t) := by
  unfold execVsupRise
  extract_lets first t1 t2
  have h1 : s.fusesGrow t1 := h.onMss fun k => .ite _ (k.onSup _) k
  have hkey : s.fusesGrow (t1.onMss fun m => m.onKey fun k => { k with dbgPorts := 0 }) :=
    h1.onMss fun k => k.onKey _ fun _ => rfl
  have h2 : s.fusesGrow t2 := .ite _ (hkey.closePorts true) h1
  exact .next (h2.on ch fun c => ⟨c.vsupRise_otp⟩)

theorem execRungDwellEnd_fusesGrow (h : s.fusesGrow t) (region : Fin 4) :
    Out.fusesGrow s (execRungDwellEnd region t) := by
  refine .next ?_
  split
  · exact State.fusesGrow.offCheck (h.on _ fun c => ⟨t.descend_otp c⟩)
  · exact h.onMss fun k => .ite _ (k.withRung _) k

theorem execParkHoldEnd_fusesGrow (h : s.fusesGrow t) : Out.fusesGrow s (execParkHoldEnd t) := by
  refine .next (.ite _ (State.fusesGrow.onMss (h.onAll fun c => ⟨c.enterP2_otp⟩) fun k => .ite _ ?_ k) h)
  exact (k.withRung 2).onSup _

/-- A life-cycle change in preparation leads to the state that its token asked for (R468). -/
theorem execIdentityGenerated_fusesGrow (h : s.fusesGrow t) : Out.fusesGrow s (execIdentityGenerated t) := by
  have hgen : s.fusesGrow (t.onMss fun m => (m.onKey fun k => { k with gen := 0, trees := k.trees + 1 }).showId) :=
    h.onMss fun k => Mss.fusesGrow.showId (k.generate _ rfl (show 0 ≠ 2 by decide))
  refine .next (.ite _ h (.ite _ hgen ?_))
  split
  · rename_i hg
    exact State.fusesGrow.resetAll (h.onMssAt (h.mss.lcChange _ _ _ (h.mss.ordered.1 hg)))
  · exact h

/-! ### The MP's requests (R29) -/

theorem execMpFolioLoad_fusesGrow (h : s.fusesGrow t) (ch : Chan) (src peer : Fin 4) :
    Out.fusesGrow s (execMpFolioLoad ch src peer t) :=
  .next (h.mpAsks ch _ fun c => ⟨by simp only [Channel.errRefresh_otp, Channel.reset_otp, Channel.otp_wr]⟩)

theorem execMpDebugAccess_fusesGrow (h : s.fusesGrow t) (ch : Chan) (o : Bool) :
    Out.fusesGrow s (execMpDebugAccess ch o t) :=
  .next (h.mpAsks ch _ fun c => ⟨by simp only [Channel.ite_otp, Channel.closePort_otp, ite_self]⟩)

theorem execVsupReset_fusesGrow (h : s.fusesGrow t) (ch : Chan) : Out.fusesGrow s (execVsupReset ch t) :=
  .next (State.fusesGrow.railCheck (h.on ch fun c => ⟨by simp only [Channel.ite_otp, Channel.unpowered_otp, ite_self]⟩))

end Sys2Proof.Machine
end

section
/-! PROOF. Every command of the table against the fuses (R462), and the statement over a step. -/

namespace Sys2Proof.Machine

variable {s : State}

/-- No command clears an OTP bit. Fuses are set by a key command, a commit,
  a new identity after a life-cycle change and a
load that takes in those of the management subsystem or of a peer. -/
theorem exec_fusesGrow (i : Instr) (hs : s.fusesOrdered) : Out.fusesGrow s (exec i s) := by
  have h := State.fusesGrow.refl hs
  cases i
  case faultEvent ch src => exact .next (h.onLive ch fun c => ⟨c.raise_otp _⟩)
  case runWindowEnd ch src => exact .next (h.onLive ch fun c => ⟨c.closeRun_otp _⟩)
  case recovery ch src => exact .next (h.onLive ch fun c => ⟨c.recover_otp _⟩)
  case epinPulseEnd ch => exact execEpinPulseEnd_fusesGrow h ch
  case fccEpinHold ch hold => exact execFccEpinHold_fusesGrow h ch hold
  case fccInjStart ch v latency => exact .next (h.onLive ch fun c => ⟨c.injStart_otp _ _⟩)
  case injectionRelease ch => exact execInjectionRelease_fusesGrow h ch
  case injectionSample ch stillHigh => exact .next (h.onLive ch fun c => ⟨c.injSample_otp _⟩)
  case stwBlkrstWrite ch v => exact .next (h.onLive ch fun c => ⟨c.requestBlkrst_otp _⟩)
  case stwChrstWrite ch v => exact .next (h.onLive ch fun c => ⟨c.requestChrst_otp _⟩)
  case stwKick ch eng => exact .next (h.onLive ch fun c => ⟨c.kick_otp _⟩)
  case coreWdog ch eng => exact execCoreWdog_fusesGrow h ch eng
  case tempCd ch => exact .next (h.onLive ch fun c => ⟨c.raise_otp _⟩)
  case cpWdog ch => exact .next (h.onLive ch fun c => ⟨c.raise_otp _⟩)
  case d2dErr ch => exact .next (h.onLive ch fun c => ⟨c.raise_otp _⟩)
  case clkFail ch reportArrives => exact execClkFail_fusesGrow h ch reportArrives
  case cmpDiv ch group pc => exact execCmpDiv_fusesGrow h ch group pc
  case cmpSelf ch kind pc => exact execCmpSelf_fusesGrow h ch kind pc
  case digestDue ch => exact execDigestDue_fusesGrow h ch
  case digestTaken ch lead trail stall => exact .next (h.onLive ch fun c => ⟨c.digest_otp _ _ _⟩)
  case cmpInjStart ch v rep => exact .next (h.onLive ch fun c => ⟨c.cmpInjStart_otp _ _⟩)
  case sweepStepTimeout ch => exact execSweepStepTimeout_fusesGrow h ch
  case channelReset ch cause => exact execChannelReset_fusesGrow h ch cause
  case wipeDone ch splitPin => exact execWipeDone_fusesGrow h ch splitPin
  case patrolScrub ch mem addr ecc => exact execPatrolScrub_fusesGrow h ch mem addr ecc
  case hart1Release ch v => exact execHart1Release_fusesGrow h ch v
  case bridgeSValley ch v => exact execBridgeSValley_fusesGrow h ch v
  case adcConversionDone ch => exact .next (h.onLive ch fun c => ⟨c.convDone_otp⟩)
  case samplePacketReceived ch pkt crcOk off => exact .next (h.onLive ch fun c => ⟨c.sampleIn_otp _ _ _⟩)
  case sampleDeadline ch set => exact .next (h.onLive ch fun c => ⟨c.sdl_otp _⟩)
  case tripletOverrun ch set => exact execTripletOverrun_fusesGrow h ch set
  case setComputeDone ch set accepted => exact .next (h.onLive ch fun c => ⟨c.computeSet_otp _ _⟩)
  case rotorLockDone ch => exact .next (h.onLive ch fun c => ⟨c.rotorLocked_otp⟩)
  case dutyTripletReceived ch pkt crcOk off => exact .next (h.onLive ch fun c => ⟨c.tripletIn_otp _ _ _⟩)
  case voteEchoReceived ch set pkt crcOk => exact execVoteEchoReceived_fusesGrow h ch set pkt crcOk
  case vote ch => exact .next (h.onLive ch fun c => ⟨c.voteNow_otp⟩)
  case memberMaskDelivery ch mask tb => exact .next (h.onLive ch fun c => ⟨c.maskIn_otp _ _⟩)
  case carrierPeak ch b => exact .next (h.onPower ch fun c => ⟨c.peak_otp _⟩)
  case fceSetptWrite ch eng v => exact execFceSetptWrite_fusesGrow h ch eng v
  case pumpSectorDetectDone ch dir => exact execPumpSectorDetectDone_fusesGrow h ch dir
  case pumpHoldEnd ch => exact execPumpHoldEnd_fusesGrow h ch
  case pumpRampEnd ch => exact execPumpRampEnd_fusesGrow h ch
  case pumpHandoverTimeout ch => exact execPumpHandoverTimeout_fusesGrow h ch
  case pumpRetry ch => exact execPumpRetry_fusesGrow h ch
  case pumpStopTimeout ch => exact execPumpStopTimeout_fusesGrow h ch
  case bridgePValley ch codeU codeV delay => exact execBridgePValley_fusesGrow h ch codeU codeV delay
  case fceSolnSetWrite ch n v => exact execFceSolnSetWrite_fusesGrow h ch n v
  case solenoidCurrentSample ch n ma => exact execSolenoidCurrentSample_fusesGrow h ch n ma
  case solenoidTick ch => exact execSolenoidTick_fusesGrow h ch
  case offsetCalibrationDone ch b sumU sumV => exact .next (h.onLive ch fun c => ⟨c.calibrate_otp _ _ _⟩)
  case carrierMarker ch from_ tb latency => exact execCarrierMarker_fusesGrow h ch from_ tb latency
  case speedWord ch b omega probe => exact .next (h.onLive ch fun c => ⟨c.speedIn_otp _ _ _⟩)
  case chopperOn ch link v0 => exact execChopperOn_fusesGrow h ch link v0
  case chopperOff ch => exact execChopperOff_fusesGrow h ch
  case chopperCheck ch v1 => exact execChopperCheck_fusesGrow h ch v1
  case linkOv1 ch => exact execLinkOv1_fusesGrow h ch
  case linkOv2 ch => exact execLinkOv2_fusesGrow h ch
  case linkUv ch => exact execLinkUv_fusesGrow h ch
  case ov1Clear ch => exact execOv1Clear_fusesGrow h ch
  case ov2Clear ch => exact execOv2Clear_fusesGrow h ch
  case uvClear ch => exact execUvClear_fusesGrow h ch
  case dieToDieLoss ch => exact execDieToDieLoss_fusesGrow h ch
  case digitalDieSilent ch => exact execDigitalDieSilent_fusesGrow h ch
  case desatLatch ch latches sol sameCycle => exact execDesatLatch_fusesGrow h ch latches sol sameCycle
  case ocLatch ch sol sameCycle => exact execOcLatch_fusesGrow h ch sol sameCycle
  case gdUvlo ch sol sameCycle => exact execGdUvlo_fusesGrow h ch sol sameCycle
  case gdOt ch sol sameCycle => exact execGdOt_fusesGrow h ch sol sameCycle
  case vgdRecovered ch => exact .next (h.onPower ch fun c => ⟨c.otp_wr _ _⟩)
  case gdStcmd ch leg => exact execGdStcmd_fusesGrow h ch leg
  case gdrBlockReset ch => exact execGdrBlockReset_fusesGrow h ch
  case localBlockReset ch => exact execLocalBlockReset_fusesGrow h ch
  case gdrResetRelease ch => exact .next (h.onPower ch fun c => ⟨c.gdrRelease_otp⟩)
  case gdenFall ch => exact execGdenFall_fusesGrow h ch
  case gdenRise ch lowNs present => exact .next (h.onPower ch fun c => ⟨c.gdenUp_otp _ _⟩)
  case gdenoPulse ch => exact execGdenoPulse_fusesGrow h ch
  case gdenoPulseEnd ch => exact execGdenoPulseEnd_fusesGrow h ch
  case powerStageSelfTestDone ch failed chopTest => exact .next (h.onLive ch fun c => ⟨c.selfTest_otp _ _⟩)
  case encInputChange ch unit levels since => exact execEncInputChange_fusesGrow h ch unit levels since
  case encSettlement ch unit cycles => exact .next (h.onLit ch fun c => ⟨c.settlement_otp _ _⟩)
  case encErrorWindowEnd ch unit qerr => exact .next (h.onLit ch fun c => ⟨c.errWindow_otp _ _⟩)
  case observerUpdate ch unit => exact .next (h.onLit ch fun c => ⟨c.obsUpdate_otp _⟩)
  case standstillTimeout ch unit => exact execStandstillTimeout_fusesGrow h ch unit
  case comparePulseEnd ch unit => exact execComparePulseEnd_fusesGrow h ch unit
  case encCmpvWrite ch unit v => exact execEncCmpvWrite_fusesGrow h ch unit v
  case sentFrame ch m f => exact .next (h.onLit ch fun c => ⟨c.sentIn_otp _ _⟩)
  case sentTimeout ch m => exact execSentTimeout_fusesGrow h ch m
  case sinSample ch raw => exact execSinSample_fusesGrow h ch raw
  case discrepancyTimeout ch p => exact execDiscrepancyTimeout_fusesGrow h ch p
  case faultRearm ch p => exact execFaultRearm_fusesGrow h ch p
  case testPulseStart ch b => exact execTestPulseStart_fusesGrow h ch b
  case testPulseCheck ch b raw => exact execTestPulseCheck_fusesGrow h ch b raw
  case sb1Received ch pkt crcOk off => exact .next (h.onLive ch fun c => ⟨c.sbHeld_otp _ _ _ _ _⟩)
  case sb2Received ch pkt crcOk off => exact .next (h.onLive ch fun c => ⟨c.sbHeld_otp _ _ _ _ _⟩)
  case linkDelayTimeout ch port => exact execLinkDelayTimeout_fusesGrow h ch port
  case ntcTimelRead ch => exact execNtcTimelRead_fusesGrow h ch
  case cycleMark ch mark => exact execCycleMark_fusesGrow h ch mark
  case membershipDecision ch env => exact execMembershipDecision_fusesGrow h ch env
  case folCtrlWrite ch v => exact execFolCtrlWrite_fusesGrow h ch v
  case folioRequest ch => exact execFolioRequest_fusesGrow h ch
  case mssFolioTimeout ch => exact execMssFolioTimeout_fusesGrow h ch
  case folioPartReceived ch src size part => exact execFolioPartReceived_fusesGrow h ch src size part
  case peerLoadRetry ch => exact execPeerLoadRetry_fusesGrow h ch
  case peerLoadTimeout ch => exact execPeerLoadTimeout_fusesGrow h ch
  case peerLoadServe ch requester => exact execPeerLoadServe_fusesGrow h ch requester
  case folioApplyDone ch => exact execFolioApplyDone_fusesGrow h ch
  case optimeSave => exact .next (h.onMss fun k => .ite _ (k.onSup _) k)
  case calendarUpdate seconds => exact execCalendarUpdate_fusesGrow h seconds
  case sensorSample samples backTenSeconds => exact execSensorSample_fusesGrow h samples backTenSeconds
  case envRecord => exact .next (h.onMss fun k => .ite _ k.envRecord k)
  case failSilentReset ch => exact execFailSilentReset_fusesGrow h ch
  case logQueueDrain ch => exact .next (h.drain ch)
  case mailboxMessage ch v => exact .next (h.onLive ch fun c => ⟨c.mailboxMsg_otp _⟩)
  case logGo => exact execLogGo_fusesGrow h
  case logRecordWritten fail0 fail1 => exact .next (h.onMss fun k => .ite _ (k.written fail0 fail1) k)
  case managementLinkDown ch => exact execManagementLinkDown_fusesGrow h ch
  case managementLinkUp ch => exact execManagementLinkUp_fusesGrow h ch
  case logReadRequest ch v => exact execLogReadRequest_fusesGrow h ch v
  case logReadDone ch bad0 bad1 => exact .next (h.onMss fun k => .ite _ (k.readDone ch bad0 bad1) k)
  case shadowRefresh => exact .next (h.onMss fun k => .ite _ (k.of_parts rfl rfl) k)
  case loadFrame busy => exact .next (h.onMss fun k => .ite _ (k.loadFrame busy) k)
  case mssHbKick => exact execMssHbKick_fusesGrow h
  case supervisorHeartbeat => exact .next (.ite _ (State.fusesGrow.heartbeat (h.onMss fun k => k.onSup _)) h)
  case mssHbMiss ch => exact execMssHbMiss_fusesGrow h ch
  case resetVoteEnd ch => exact execResetVoteEnd_fusesGrow h ch
  case mpVoteReset => exact .next (State.fusesGrow.showLost (h.onMss fun k => .ite _ k.voteReset k))
  case mpWatchdogReset => exact .next (h.onMss fun k => .ite _ (k.mpReset 2) k)
  case mpRestartDone => exact execMpRestartDone_fusesGrow h
  case portDown ch port => exact execPortDown_fusesGrow h ch port
  case portUp ch port => exact execPortUp_fusesGrow h ch port
  case frameForward ch f ttx => exact .next (h.onLive ch fun c => ⟨c.forward_otp _ _⟩)
  case streamFetch ch id => exact execStreamFetch_fusesGrow h ch id
  case streamSlot n id nth fold => exact execStreamSlot_fusesGrow h n id nth fold
  case txCommit ch port v => exact execTxCommit_fusesGrow h ch port v
  case portSelect ch port v => exact execPortSelect_fusesGrow h ch port v
  case streamDataReceived ch f => exact .next (h.onLive ch fun c => ⟨c.streamIn_otp _⟩)
  case acceptanceWindowEnd ch id => exact execAcceptanceWindowEnd_fusesGrow h ch id
  case linkDelayRequestSend ch port t1 => exact execLinkDelayRequestSend_fusesGrow h ch port t1
  case linkDelayRequestReceived ch f t3 => exact execLinkDelayRequestReceived_fusesGrow h ch f t3
  case linkDelayResponseReceived ch f => exact execLinkDelayResponseReceived_fusesGrow h ch f
  case cycleStart n => exact execCycleStart_fusesGrow h n
  case cycleFrameReceived n f => exact execCycleFrameReceived_fusesGrow h n f
  case claimReceived ch f slot => exact .next (h.onLive ch fun c => ⟨c.claimIn_otp _ _⟩)
  case claimRetry n => exact execClaimRetry_fusesGrow h n
  case enumerationFrame ch f => exact .next (h.onLive ch fun c => ⟨c.enumIn_otp _⟩)
  case enumerationResend n => exact execEnumerationResend_fusesGrow h n
  case listenTimeout ch => exact execListenTimeout_fusesGrow h ch
  case startupFrame ch f => exact execStartupFrame_fusesGrow h ch f
  case startupWaitEnd n => exact execStartupWaitEnd_fusesGrow h n
  case cycleFrameLoss ch => exact execCycleFrameLoss_fusesGrow h ch
  case canRxPop ch => exact execCanRxPop_fusesGrow h ch
  case guidanceCommandReceived ch f => exact execGuidanceCommandReceived_fusesGrow h ch f
  case speedMessageReceived ch f => exact execSpeedMessageReceived_fusesGrow h ch f
  case canFrameReceived ch f => exact execCanFrameReceived_fusesGrow h ch f
  case timeDateReceived ch f => exact execTimeDateReceived_fusesGrow h ch f
  case addressClaimReceived ch f => exact execAddressClaimReceived_fusesGrow h ch f
  case claimHoldOffEnd ch func => exact execClaimHoldOffEnd_fusesGrow h ch func
  case requestReceived ch f => exact execRequestReceived_fusesGrow h ch f
  case tpRtsReceived ch f => exact execTpRtsReceived_fusesGrow h ch f
  case tpBamReceived ch f => exact execTpBamReceived_fusesGrow h ch f
  case tpDtReceived ch f => exact execTpDtReceived_fusesGrow h ch f
  case tpTimeout ch sa da => exact execTpTimeout_fusesGrow h ch sa da
  case tpCtsReceived ch f => exact execTpCtsReceived_fusesGrow h ch f
  case canTxGo ch v => exact execCanTxGo_fusesGrow h ch v
  case bamPacketSend ch func => exact execBamPacketSend_fusesGrow h ch func
  case canFrameSent ch func => exact execCanFrameSent_fusesGrow h ch func
  case voiceTxStart ch => exact execVoiceTxStart_fusesGrow h ch
  case isoVoice ch => exact execIsoVoice_fusesGrow h ch
  case isoBusoff ch => exact execIsoBusoff_fusesGrow h ch
  case busIntegrationDone ch => exact execBusIntegrationDone_fusesGrow h ch
  case statusMessageSend ch => exact execStatusMessageSend_fusesGrow h ch
  case roundStart ch => exact execRoundStart_fusesGrow h ch
  case hb1Send ch second => exact execHb1Send_fusesGrow h ch second
  case hb1Received ch pkt crcOk off => exact .next (h.onLive ch fun c => ⟨c.hbIn_otp _ _ _ _ _⟩)
  case hb2Received ch pkt crcOk off => exact .next (h.onLive ch fun c => ⟨c.hbIn_otp _ _ _ _ _⟩)
  case hb2Relay ch => exact execHb2Relay_fusesGrow h ch
  case simplexTimerExpiry ch => exact execSimplexTimerExpiry_fusesGrow h ch
  case idegTimerExpiry ch => exact execIdegTimerExpiry_fusesGrow h ch
  case idegClear ch => exact execIdegClear_fusesGrow h ch
  case bringupWindowEnd ch => exact execBringupWindowEnd_fusesGrow h ch
  case splitStationaryLost ch => exact execSplitStationaryLost_fusesGrow h ch
  case modeReqLeaveService ch => exact .next (h.onLive ch fun c => ⟨c.requestMode_otp _⟩)
  case modeReqSafeStop ch => exact .next (h.onLive ch fun c => ⟨c.requestMode_otp _⟩)
  case modeReqService ch => exact execModeReqService_fusesGrow h ch
  case modeReqPark ch => exact .next (h.onLive ch fun c => ⟨c.requestMode_otp _⟩)
  case safeStopRampEnd ch => exact execSafeStopRampEnd_fusesGrow h ch
  case safeStopFullBrake ch => exact execSafeStopFullBrake_fusesGrow h ch
  case stationaryDeclared ch => exact execStationaryDeclared_fusesGrow h ch
  case joinRecord ch rec => exact execJoinRecord_fusesGrow h ch rec
  case admissionReply ch from_ gen round tb => exact execAdmissionReply_fusesGrow h ch from_ gen round tb
  case listenRoundEnd ch => exact execListenRoundEnd_fusesGrow h ch
  case shadowComplete ch => exact execShadowComplete_fusesGrow h ch
  case controlCycleBoundary ch => exact execControlCycleBoundary_fusesGrow h ch
  case migrationStateSend ch task => exact execMigrationStateSend_fusesGrow h ch task
  case migrationStateArrived ch task bytes => exact execMigrationStateArrived_fusesGrow h ch task bytes
  case dataHomeWrite ch home off v => exact execDataHomeWrite_fusesGrow h ch home off v
  case dataHomeUpdateReceived ch home off v => exact execDataHomeUpdateReceived_fusesGrow h ch home off v
  case jobRelease ch task => exact execJobRelease_fusesGrow h ch task
  case hrdDone ch task crc => exact execHrdDone_fusesGrow h ch task crc
  case hreqUpdateRotation ch => exact .next (h.onLive ch fun c => ⟨c.request_otp _⟩)
  case hreqProofTest ch => exact .next (h.onLive ch fun c => ⟨c.request_otp _⟩)
  case hreqAbort ch => exact .next (h.onLive ch fun c => ⟨c.request_otp _⟩)
  case repairRequest ch => exact execRepairRequest_fusesGrow h ch
  case absenceRequestDropped ch => exact execAbsenceRequestDropped_fusesGrow h ch
  case rotationNextRequest ch => exact execRotationNextRequest_fusesGrow h ch
  case returnDeadline ch => exact execReturnDeadline_fusesGrow h ch
  case proofTestDue ch => exact execProofTestDue_fusesGrow h ch
  case proofOverdue ch => exact execProofOverdue_fusesGrow h ch
  case recoveryWindowExpiry ch => exact execRecoveryWindowExpiry_fusesGrow h ch
  case keyChallenge ch => exact .next (.onMssIf h _ fun k => k.keyStart ch 1)
  case keySubmitToken ch => exact .next (.onMssIf h _ fun k => k.keyStart ch 2)
  case keyAttest ch => exact .next (.onMssIf h _ fun k => k.keyStart ch 3)
  case keyFuseRootSlot ch => exact .next (.onMssIf h _ fun k => k.keyStart ch 4)
  case keyAppendPart ch => exact .next (.onMssIf h _ fun k => k.keyStart ch 5)
  case keyCommandDone ch => exact .next (.ite _ (h.keyDone ch) h)
  case identityGenerated => exact execIdentityGenerated_fusesGrow h
  case attestCredit => exact .next (h.onMss fun k => .ite _ (k.wr _ _ rfl) k)
  case updOpen ch => exact .next (.onMssIf h _ fun k => k.updOpen ch)
  case updBlock ch words => exact .next (.onMssIf h _ fun k => k.updBlock ch words)
  case updVerify ch => exact .next (.onMssIf h _ fun k => k.updVerify ch)
  case updVerifyDone => exact .next (.onMssIf h _ fun k => k.verifyDone)
  case updArmRotation ch => exact .next (.ite _ (h.updArm ch 4) h)
  case updArmPowerCycle ch => exact .next (.ite _ (h.updArm ch 5) h)
  case slotCopyDone ok => exact .next (h.onMss fun k => .ite _ (k.copyDone ok) k)
  case updDiscard ch => exact .next (.onMssIf h _ fun k => k.updDiscard ch)
  case commit => exact .next (.ite _ h.commit h)
  case trialNoHerdTimeout => exact .next (.onMssIf h _ fun k => k.onUpd _)
  case commitReportRepeat ch => exact .next (.ite _ h.ackCommit h)
  case vsupMLoss => exact .next (State.fusesGrow.railCheck (h.onMss fun k => k.onSup _))
  case mssPowerOn imageOk used => exact .next (.ite _ (State.fusesGrow.closePorts (h.onMss fun k => k.powerOn imageOk
    used) true) h)
  case vsupRise ch allLowFor100ms => exact execVsupRise_fusesGrow h ch allLowFor100ms
  case vsupUndervoltage ch => exact .next (State.fusesGrow.railCheck (h.on ch fun c => ⟨c.undervoltage_otp⟩))
  case vsupReset ch => exact execVsupReset_fusesGrow h ch
  case bistDone ch pass => exact .next (h.onLive ch fun c => ⟨c.bistDone_otp _⟩)
  case p1EnterRequest ch => exact .next (h.onLive ch fun c => ⟨c.p1Request_otp _⟩)
  case p1LeaveRequest ch => exact execP1LeaveRequest_fusesGrow h ch
  case keyFiltered ch on => exact .next (h.onLive ch fun c => ⟨c.flag_otp _ _⟩)
  case awakeTimeEnd ch => exact execAwakeTimeEnd_fusesGrow h ch
  case parkHoldEnd => exact execParkHoldEnd_fusesGrow h
  case rungDwellEnd region => exact execRungDwellEnd_fusesGrow h region
  case wake w => exact .next (h.wake w)
  case mpWake ch => exact .next (.onIf h _ ch fun c => ⟨c.wakeUp_otp _ _⟩)
  case registerWrite ch ag a v z =>
    exact .next (.ite _ (h.mpWrite a v z) (.ite _ h (.ite _ (h.pairWrite ch a v z) (h.engineWrite ch ag a v z))))
  case coreMemoryAccess ch mem addr op ecc => exact execCoreMemoryAccess_fusesGrow h ch mem addr op ecc
  case blockResetRelease ch blk => exact execBlockResetRelease_fusesGrow h ch blk
  case crossLinkDown l => exact execCrossLinkDown_fusesGrow h l
  case crossLinkUp l => exact execCrossLinkUp_fusesGrow h l
  case class3RetryExhausted ch => exact .next (h.onLive ch fun c => ⟨c.readFails_otp⟩)
  case class4RetryExhausted ch peer => exact execClass4RetryExhausted_fusesGrow h ch peer
  case peerWindowRead ch addr => exact execPeerWindowRead_fusesGrow h ch addr
  case peerWindowReadServed ch requester => exact execPeerWindowReadServed_fusesGrow h ch requester
  case peerReadReply dst => exact execPeerReadReply_fusesGrow h dst
  case peerReadTimeout ch => exact .next (h.onLive ch fun c => ⟨c.readFails_otp⟩)
  case mailboxRead ch off => exact execMailboxRead_fusesGrow h ch off
  case mailboxReadTimeout ch => exact execMailboxReadTimeout_fusesGrow h ch
  case mpStateRead ch what => exact .next (.ite _ (h.reply ch _ _) h)
  case mpPlannedAbsence ch hreq => exact .next (.ite _ ((h.on ch fun c => ⟨c.request_otp _⟩).reply ch _ _) h)
  case mpFolioLoad ch src peer => exact execMpFolioLoad_fusesGrow h ch src peer
  case mpBlockEnable ch mask => exact .next (h.mpAsks ch _ fun c => ⟨c.setEnables_otp mask⟩)
  case mpBlockReset ch mask => exact .next (h.mpAsks ch _ fun c => ⟨c.blockResets_otp _⟩)
  case mpChannelReset ch => exact .next (h.mpAsks ch _ fun c => ⟨(Channel.errRefresh_otp _).trans (c.reset_otp _ _)⟩)
  case mpDebugAccess ch open_ => exact execMpDebugAccess_fusesGrow h ch open_
  case debugHaltRequest port hart hold => exact .next (.ite _ (h.haltReq port hart hold) h)
  case debugResume port hart step => exact .next (.ite _ (h.resumeHart port hart step) h)
  case systemBusAccess ch addr wr size => exact .next (.ite _ (h.sysBus ch addr wr size) h)
  case dmiAccess port op addr data => exact .next (.ite _ (h.dmi port op _ data) (.ite _ (h.onDbg port _) h))

/-- 40 ns without a command leave every fuse. -/
theorem State.tick_fusesGrow (hs : s.fusesOrdered) : s.fusesGrow s.tick where
  mss := .ite _ ((Mss.fusesGrow.refl hs).onSup _) (.refl hs)
  dies ch := .of_eq (by cases ch <;> exact Channel.tick_otp _)

theorem step_fusesGrow (hs : s.fusesOrdered) : Out.fusesGrow s (step s) := by
  unfold step
  split
  · exact .next (State.tick_fusesGrow hs)
  · rename_i c rest _
    obtain ⟨t, e, ⟨hmss, hdies⟩⟩ := exec_fusesGrow (s := { s with pending := rest }) c hs
    exact ⟨t, e, hmss, fun ch => by cases ch; exacts [hdies .A, hdies .B, hdies .C]⟩

/-- Settles O58: each command leaves every fuse block, or sets bits of it. -/
theorem otpBitsAreNeverCleared : Obligations.OtpBitsAreNeverCleared := by
  unfold Obligations.OtpBitsAreNeverCleared
  intro s t hs hstep
  obtain ⟨u, hu, ⟨hmss, hdies⟩⟩ := step_fusesGrow hs
  cases hu.symm.trans hstep
  exact ⟨t.fusesOrdered_iff.2 hmss.ordered, hmss.otp, hmss.dv, hdies⟩

end Sys2Proof.Machine
end
